-- ==== Sys2Proof/Word.lean ====
section
/-! DEFINITION. The words of the block: register words, line bytes, flit slots, line addresses and locations. -/

namespace Sys2Proof

/-- A register word (R10: every register is 48 bits wide). -/
abbrev Word := BitVec 48

/-- One byte of a line, an image or the flash. -/
abbrev Byte := BitVec 8

/-- A 64 B line, line byte `i` in bits `[8i+7:8i]` (the numbering of R258). -/
abbrev Line := BitVec 512

/-- A 16 B message slot of a flit (R61). -/
abbrev Slot := BitVec 128

/-- A line address, ADDR[47:6] (R98). -/
abbrev LineAddr := BitVec 42

/-- A line location LOC[36:0] (R200, Table 8.2). -/
abbrev Loc := BitVec 37

end Sys2Proof
end

