-- ==== Sys2Proof/Syntax.lean ====
section
/-! DEFINITION. The commands of the block: one constructor per row of spec/opcode_table.json, in its order, with the
operands that the row's event carries from outside. A request that has fields of its own comes with its first slot in the
pieces of Table 4.3, from bit 127 down: their concatenation is the slot. An operand of type `Unit` carries nothing: the line
that the command works on is the one that its own access has read. -/

namespace Sys2Proof

/-- Who makes a register access (R24, R157, R333). -/
inductive Master where
  /-- the hub, by an MRD or MWR on VC M -/
  | hub
  /-- engine En through its cluster fabric -/
  | engine (n : Fin 72)
  /-- the Accord loader -/
  | loader
  /-- TAP debug (R333) -/
  | tap
deriving DecidableEq, Repr

/-- What power-on finds: the level of BOOTSEL[1:0] (R332, R345), and whether the flash's SFDP tables declare what R346
asks. -/
structure PowerUp where
  bootsel : BitVec 2
  sfdp : Bool
deriving DecidableEq, Repr

/-- A direction of the link: `rx` is KRX (towards the Adroth), `tx` is KTX (R57). -/
inductive Dir where
  | rx
  | tx
deriving DecidableEq, Repr

/-- A virtual channel that carries requests (Table 4.1). -/
inductive Vc where
  | q
  | k
  | m
deriving DecidableEq, Repr

/-- A 240 B flit as received: header, 14 slots, CRC-64 (R61). -/
structure Flit where
  hdr : BitVec 64
  slots : List Slot
  crc : BitVec 64
deriving DecidableEq, Repr

/-- The common fields of a request's first slot (R98). -/
structure Req where
  tag : BitVec 12
  src : BitVec 10
  note : BitVec 4
  line : LineAddr
deriving DecidableEq, Repr

/-- A token of 256 B (Table 13.4): its fields as the hub writes them. Byte `i` of the token is bits `[8i+7:8i]`. -/
abbrev TokenBytes := BitVec 2048

/-- What a fault source reports with one occurrence (R286): the event code, the address and its kind, COORD, the
master when there is one, and the access type. -/
structure Report where
  event : BitVec 8
  addr : Word
  akind : BitVec 2
  coord : BitVec 16
  master : Option (BitVec 11)
  access : BitVec 4
deriving DecidableEq, Repr

/-- A bank of DRAM: tile, layer minus 1, bank group, bank (Table 1.3). -/
structure BankId where
  tile : Fin 16
  cid : BitVec 3
  bg : BitVec 3
  bank : BitVec 2
deriving DecidableEq, Repr

/-- The commands. -/
inductive Instr where
  -- reset and the Accord
  /-- RESET_N rises at power-on (R332, R345). -/
  | powerOn (found : PowerUp)
  /-- RESET_N falls (R307). -/
  | resetNFall
  /-- The drain ends; `ue` lists write entries whose data word is uncorrectable, port and entry number (R309). -/
  | drainEnd (ue : List (Fin 4 × Nat))
  /-- 50 µs have passed in step 2 (R309). -/
  | drainTimeout
  /-- Every tile powered is in self-refresh (R310). -/
  | retainEnd
  /-- The core reset completes; `bootsel` is sampled if step 5 starts (R308, R345). -/
  | coreResetEnd (bootsel : BitVec 2)
  /-- RESET_N rises (R308). -/
  | resetNRise (bootsel : BitVec 2)
  /-- The attempt fails on the verdict of its checks (R40). -/
  | accordLoadFail
  /-- No push data for 100 ms (R39). -/
  | sourceTimeout
  /-- The flash has not responded for 1 ms (R40). -/
  | flashTimeout
  /-- The verified Accord is applied (R50). -/
  | accordApply
  /-- 1 µs after a removed tile entered self-refresh (R177). -/
  | tileRemovePowerOff (t : Fin 16)
  /-- RAMP has elapsed on tile `t` (R167, R176). -/
  | tileRampDone (t : Fin 16)
  /-- A write of ACCORD.PUSH_CTL with value `v` by master `m` (R39). -/
  | pushStart (m : Master) (v : Word)
  /-- A write of six image bytes to ACCORD.PUSH_DATA (R39). -/
  | pushData (m : Master) (v : Word)
  /-- A write of `v` to the register at word address `a` that holds CG fields (R53). -/
  | cgWrite (m : Master) (a : BitVec 24) (v : Word)
  /-- A write of `v` to ACCORD.CG_COMMIT with ABORT clear (R53). -/
  | cgCommit (m : Master) (v : Word)
  /-- A write of `v` to ACCORD.CG_COMMIT with ABORT set (R54). -/
  | cgAbort (m : Master) (v : Word)
  /-- Group `g` of Table 2.6, bit `i`: its boundary comes (R52, R53). -/
  | cgLand (g : Fin 9) (i : Fin 16)
  /-- 1 ms after the commit of an IDLE group instance (R52). -/
  | cgIdleHold (g : Fin 9) (i : Fin 16)
  /-- A register write by master `m` (R24). -/
  | regWrite (m : Master) (a : BitVec 24) (v : Word)
  -- the link
  /-- A flit arrives on KRX: the words captured on each of the 22 physical lanes, one for each beat (R63, R71). -/
  | dataFlitRx (lanes : List (List (BitVec 48)))
  /-- A flit boundary on KTX (R70). -/
  | flitTx
  /-- A NAK for `seq` is received (R72). -/
  | nak (seq : BitVec 12)
  /-- NAK_TIMER expires (R71). -/
  | nakTimeout
  /-- ACK_TIMER expires for the oldest unacknowledged flit (R73). -/
  | ackTimeout
  /-- 64 consecutive beats without framing (R89). -/
  | framingLoss
  /-- RTT_PROBE with STAMP is received (R81). -/
  | rttProbe (stamp : BitVec 16)
  /-- RTT_ECHO with STAMP is received; `cc` is the measured trip (R81). -/
  | rttEcho (stamp : BitVec 16) (cc : Nat)
  /-- TEST_RESULT is received (R87). -/
  | testResult (lane : Fin 22) (pass : Bool) (errors : BitVec 32)
  /-- LINK_RESET is received (R91). -/
  | linkReset (rate : BitVec 2)
  /-- FULL_RESET is received (R68). -/
  | fullReset (key : BitVec 16)
  /-- Clock recovery of a KRX lane loses lock (R82). -/
  | laneLockLoss (lane : Fin 22)
  /-- One guard-band symbol is counted on a KRX lane (R82). -/
  | laneMarginThresh (lane : Fin 22)
  /-- A LANE_WINDOW ends (R82). -/
  | laneWindowEnd
  /-- Flit n + 2 of an announced SWAP (R85). -/
  | laneSwap (d : Dir) (lane : Fin 22)
  /-- Flit n + 2 of an announced DROP (R85). -/
  | laneDrop (d : Dir) (lane : Fin 22)
  /-- Flit n + 2 of an announced ADD (R85). -/
  | laneAdd (d : Dir) (lane : Fin 22)
  /-- Flit n + 2 of an announced TEST (R85). -/
  | laneTest (d : Dir) (lane : Fin 22)
  /-- A write of `v` to LINK.LANE_TEST (R87). -/
  | laneTestStart (m : Master) (v : Word)
  /-- The lane test has counted 2^34 bits with `errors` errors (R87). -/
  | laneTestDone (errors : BitVec 32)
  /-- A write of `v` to LINK.CTL (R91). -/
  | linkCtlReset (m : Master) (v : Word)
  /-- A training attempt ends; bit p set for each lane of each direction that passed (R91). -/
  | trainingEnd (passRx passTx : BitVec 22)
  /-- 100 ms after a failed attempt at 28.8 Gb/s; the lanes that pass its lane tests (R92). -/
  | trainingRetryTimer (testRx testTx : BitVec 22)
  /-- The first good flit in each direction (R93). -/
  | linkUp
  /-- The condition of R116 for sending RESYNC is met. -/
  | resyncSend
  /-- RESYNC_TIMER expires (R118). -/
  | resyncRepeat
  /-- A write of `v` to TXN.RESYNC (R118). -/
  | resyncAck (m : Master) (v : Word)
  -- transactions
  /-- RD in request cycle 1 with its slot (R98, R105). -/
  | rd (h : Slot)
  /-- WR with its first slot and its four data slots (R99, R105). -/
  | wr (h : Slot) (data : List Slot)
  /-- WRM with its first slot, its mask slot and its data slots (R99, R105). -/
  | wrm (h mask : Slot) (data : List Slot)
  /-- ATOM with OP ADD, its operand slot after it (R99, R100). -/
  | atomAdd (common : BitVec 72) (fields : BitVec 56) (operand : Slot)
  /-- ATOM with OP SWAP (R99, R100). -/
  | atomSwap (common : BitVec 72) (fields : BitVec 56) (operand : Slot)
  /-- ATOM with OP CAS; the operand slot is COMPARE and VALUE (R99, R100). -/
  | atomCas (common : BitVec 72) (fields : BitVec 56) (compare value : BitVec 64)
  /-- FLUSH (R99, R109). -/
  | flush (common : BitVec 72) (fields : BitVec 56)
  /-- OPK (R99, R266). -/
  | opk (mtag : BitVec 16) (source : BitVec 56) (kidx : BitVec 8) (window : BitVec 4) (length : BitVec 32) (low : BitVec 12)
  /-- MRD (R23, R99). -/
  | mrd (common : BitVec 72) (waddr : BitVec 24) (count : BitVec 4) (low : BitVec 28)
  /-- MWR with its data slots (R23, R99). -/
  | mwr (common : BitVec 72) (waddr : BitVec 24) (count : BitVec 4) (low : BitVec 28) (data : List Slot)
  /-- The verdict for the request with this tag on this VC (R110, R111). -/
  | verdict (vc : Vc) (tag : BitVec 12) (accepted : Bool)
  -- scheduling
  /-- One core cycle of port `p` (R134); `bad` names subchannels whose picked command a comparator discards (R293). -/
  | schedPick (p : Fin 4) (bad : BitVec 2)
  /-- The oldest outstanding burst of subchannel `s` is captured; word k is position pk, bit 4n+i is lane i of beat n
  (R196, R201). -/
  | readDataCapture (s : Fin 8) (burst : List (BitVec 64))
  /-- Every write that the FLUSH with this tag covers is placed or left unissued (R109). -/
  | flushDone (tag : BitVec 12)
  /-- Write entry `q` of port `p` has been queued WAGE cc (R132). -/
  | writeAgeDrain (p : Fin 4) (q : Nat)
  /-- The open row of a bank has been idle for PAGE_TIMEOUT cc (R141). -/
  | pageTimeout (b : BankId)
  /-- Entry `q` of port `p` has been queued STARVE cc, or 2 × STARVE (R138). -/
  | starvePromote (p : Fin 4) (q : Nat)
  /-- WINDOW of note `n` ends (R147). -/
  | qosWindowEnd (n : BitVec 4)
  /-- A write of `v` to TXN.ATTN (R124). -/
  | attnAck (m : Master) (v : Word)
  -- refresh, disturbance, self-refresh
  /-- The interval timer of tile `t` reaches I(t) (R150). -/
  | refreshInterval (t : Fin 16)
  /-- A refresh unit starts on tile `t` (R151, R154). -/
  | refreshUnit (t : Fin 16)
  /-- The last command of the unit is issued (R151). -/
  | refreshUnitDone (t : Fin 16)
  /-- 8192 units have settled on tile `t` (R158). -/
  | trackerClear (t : Fin 16)
  /-- MR4 of every layer of tile `t` is read; `hot` when any position reports above 85 °C (R152). -/
  | tempPoll (t : Fin 16) (hot : Bool)
  /-- RT_GAP cc without an RT request queued (R153). -/
  | rtBurstEnd (p : Fin 4)
  /-- The conditions of R155 hold at port `p`. -/
  | geyserStart (p : Fin 4)
  /-- PEN_WINDOW µs of the penalty of a bank have passed (R159). -/
  | penaltyEnd (b : BankId)
  /-- The port has been idle for SR_IDLE µs (R161). -/
  | srIdleEntry (p : Fin 4)
  /-- The port's queues are empty in a self-refresh entry (Table 6.3 steps 2 to 4). -/
  | srDrainDone (p : Fin 4)
  /-- tCKSRE after SRE (Table 6.3 step 5). -/
  | srClockStop (p : Fin 4)
  /-- CK restarts and SRX goes to each layer (R163). -/
  | srExit (p : Fin 4)
  /-- tXS after SRX (R164). -/
  | srxDone (p : Fin 4)
  /-- A write of `v` to `REFR[p].LOST[k]` (R170). -/
  | lostClear (m : Master) (p : Fin 4) (k : Fin 32) (v : Word)
  -- PHY, delays, calibration
  /-- Ss_ALERT_N falls (R180). -/
  | alertFall (s : Fin 8)
  /-- Ss_ALERT_N is high again (R180). -/
  | alertRise (s : Fin 8)
  /-- ALERT_WIN of the oldest retry-buffer burst closes (R181). -/
  | alertWinClose (s : Fin 8)
  /-- ALERT_N has been low for 1 µs (R182). -/
  | alertStuck (s : Fin 8)
  /-- TEST_CMD write with OP 1 (R187). -/
  | csSample (m : Master) (s : Fin 8) (v : Word)
  /-- OP 2. -/
  | caSample (m : Master) (s : Fin 8) (v : Word)
  /-- OP 3. -/
  | wlevel (m : Master) (s : Fin 8) (v : Word)
  /-- OP 4. -/
  | rdPattern (m : Master) (s : Fin 8) (v : Word)
  /-- OP 5. -/
  | wrArray (m : Master) (s : Fin 8) (v : Word)
  /-- OP 6. -/
  | rdCompare (m : Master) (s : Fin 8) (v : Word)
  /-- OP 7. -/
  | mrw (m : Master) (s : Fin 8) (v : Word)
  /-- OP 8. -/
  | mrr (m : Master) (s : Fin 8) (v : Word)
  /-- The repetitions finish: majority samples of the 13 positions, and the bursts captured, one per repetition
  (R187, R188). -/
  | testOpDone (s : Fin 8) (sample : BitVec 13) (bursts : List (List (BitVec 64)))
  /-- A write of `v` to `DLY[t].STATE` (R178). -/
  | tileReadyWrite (m : Master) (t : Fin 16) (v : Word)
  /-- A write of `v` to `CAL[p].CMD` (R190, R193). -/
  | calStart (m : Master) (p : Fin 4) (v : Word)
  /-- 1.2 µs into the pause: CALRES in 0.01 Ω and VREFCAL in 0.1 mV (R191). -/
  | calRefCheck (p : Fin 4) (res vref : BitVec 16)
  /-- 12 µs: the six measured codes of each subchannel, PU, PD, TERM, VREFOFF, DUTY, GAIN (R190). -/
  | calPauseEnd (p : Fin 4) (codes0 codes1 : List (BitVec 6))
  /-- A quiet boundary of subchannel `s` after the run (R192). -/
  | calTrimLand (s : Fin 8)
  /-- DUE_MS ms since the last DONE (R194). -/
  | calDueTimer (p : Fin 4)
  -- line code and sparing
  /-- A DEAD_WINDOW of subchannel `s` ends (R207). -/
  | deadWindowEnd (s : Fin 8)
  /-- A write of `v` to `PROT[s].DECLARE` (R207). -/
  | declare (m : Master) (s : Fin 8) (v : Word)
  /-- The record's trailer is programmed (`ok`), or a flash error occurs (R218, R219). -/
  | journalRecordDone (ok : Bool)
  /-- A write of `v` to `PROT[s].REMAP_CMD` with OP = MOVE (R212). -/
  | remapMove (m : Master) (s : Fin 8) (v : Word)
  /-- The same with OP = RETURN. -/
  | remapReturn (m : Master) (s : Fin 8) (v : Word)
  /-- The row command of subchannel `s` has copied column 127 (R212). -/
  | remapDone (s : Fin 8)
  /-- A write of `v` to `PROT[s].PPR` with OP 1 (R214). -/
  | softPpr (m : Master) (s : Fin 8) (v : Word)
  /-- The same with OP 2. -/
  | hardPpr (m : Master) (s : Fin 8) (v : Word)
  /-- The PPR sequence completes (R214). -/
  | pprDone (s : Fin 8)
  /-- The tiles of subchannel `s` are in service at power-on (R216). -/
  | fill (s : Fin 8)
  /-- Every location has been written (R216). -/
  | fillDone (s : Fin 8)
  /-- INJ_PERIOD ms: the self-test runs; `upset` is XORed into the reference codeword of pattern n by a defect (R220). -/
  | selftest (s : Fin 8) (upset : List (List (BitVec 16)))
  /-- A write of `v` to `PROT[s].INJECT` (R221). -/
  | injectArm (m : Master) (s : Fin 8) (v : Word)
  -- encryption and tiers
  /-- A write of `v` to `CRYPT[8].KEY_CMD` with OP = LOAD (R229). -/
  | keyLoad (m : Master) (v : Word)
  /-- The unwrap finishes (R229). -/
  | keyLoadDone
  /-- A write of `v` to `CRYPT[8].KEY_CMD` with OP = CLEAR (R229). -/
  | keyClear (m : Master) (v : Word)
  /-- A write of `v` to `CRYPT[8].ROT_CMD` (R231). -/
  | rotationStart (m : Master) (v : Word)
  /-- The table line read of page map index `idx` completes (R235). -/
  | pmcMissFill (idx : BitVec 32) (line : Unit)
  /-- Step 4 of R244 of the tier write under way on page `idx`. -/
  | tierWriteMerge (idx : BitVec 32) (lines : Unit)
  /-- Every line of the new extent is loaded (R244). -/
  | tierEntrySwitch (idx : BitVec 32)
  /-- Every read under the old entry has captured its data (R244). -/
  | granuleFree (idx : BitVec 32)
  /-- A write of `v` to `TIER[8].MOVE_CMD[m]` with OP = PROMOTE (R246). -/
  | promote (ma : Master) (m : Fin 4) (v : Word)
  /-- DEMOTE. -/
  | demote (ma : Master) (m : Fin 4) (v : Word)
  /-- REPACK. -/
  | repack (ma : Master) (m : Fin 4) (v : Word)
  /-- The move of mover `m` has written its last line (R246). -/
  | moveDone (m : Fin 4) (lines : Unit)
  -- engine instructions (R257), each with its engine and the fields of its format (Table 10.7)
  | nop (e : Fin 72)
  | add (e : Fin 72) (rd ra rb : Fin 16)
  | sub (e : Fin 72) (rd ra rb : Fin 16)
  | and (e : Fin 72) (rd ra rb : Fin 16)
  | or (e : Fin 72) (rd ra rb : Fin 16)
  | xor (e : Fin 72) (rd ra rb : Fin 16)
  | shl (e : Fin 72) (rd ra rb : Fin 16)
  | shr (e : Fin 72) (rd ra rb : Fin 16)
  | sar (e : Fin 72) (rd ra rb : Fin 16)
  | mul (e : Fin 72) (rd ra rb : Fin 16)
  | sltu (e : Fin 72) (rd ra rb : Fin 16)
  | addi (e : Fin 72) (rd ra : Fin 16) (imm : BitVec 34)
  | andi (e : Fin 72) (rd ra : Fin 16) (imm : BitVec 34)
  | ori (e : Fin 72) (rd ra : Fin 16) (imm : BitVec 34)
  | ldi (e : Fin 72) (rd ra : Fin 16) (imm : BitVec 34)
  | lih (e : Fin 72) (rd ra : Fin 16) (imm : BitVec 34)
  | beq (e : Fin 72) (ra rb : Fin 16) (target : BitVec 12)
  | bne (e : Fin 72) (ra rb : Fin 16) (target : BitVec 12)
  | blt (e : Fin 72) (ra rb : Fin 16) (target : BitVec 12)
  | bltu (e : Fin 72) (ra rb : Fin 16) (target : BitVec 12)
  | jmp (e : Fin 72) (target : BitVec 12)
  | call (e : Fin 72) (target : BitVec 12)
  | jr (e : Fin 72) (ra : Fin 16)
  | ldw (e : Fin 72) (rd ra : Fin 16) (imm : BitVec 34)
  /-- `rs` is the register named in [41:38]. -/
  | stw (e : Fin 72) (rs ra : Fin 16) (imm : BitVec 34)
  | ext (e : Fin 72) (rd rb : Fin 16) (slot : Fin 32) (off : BitVec 9) (width : BitVec 7)
  | ins (e : Fin 72) (rd rb : Fin 16) (slot : Fin 32) (off : BitVec 9) (width : BitVec 7)
  | szero (e : Fin 72) (slot : Fin 32)
  | lget (e : Fin 72) (ra : Fin 16) (slot : Fin 32)
  | lput (e : Fin 72) (ra : Fin 16) (slot : Fin 32)
  /-- The access of `slot` completes: its STATUS and an LGET's line reach the slot (R259). -/
  | lineAccessDone (e : Fin 72) (slot : Fin 32) (status line : Unit)
  /-- `all` is [24]. -/
  | lwait (e : Fin 72) (rd : Fin 16) (slot : Fin 32) (all : Bool)
  | latomAdd (e : Fin 72) (rd ra rb : Fin 16) (line : Unit)
  | latomSwap (e : Fin 72) (rd ra rb : Fin 16) (line : Unit)
  | latomCas (e : Fin 72) (rd ra rb : Fin 16) (line : Unit)
  | lpois (e : Fin 72) (rd ra : Fin 16)
  | lstepRebuild (e : Fin 72) (rd ra : Fin 16) (line : Unit)
  | lstepScrub (e : Fin 72) (rd ra : Fin 16) (line : Unit)
  | lstepRotate (e : Fin 72) (rd ra : Fin 16) (line : Unit)
  | setwin (e : Fin 72) (imm : BitVec 34)
  | padd (e : Fin 72) (rd ra rb : Fin 16)
  | psub (e : Fin 72) (rd ra rb : Fin 16)
  | fadd (e : Fin 72) (rd ra rb : Fin 16)
  | fmin (e : Fin 72) (rd ra rb : Fin 16)
  | fmax (e : Fin 72) (rd ra rb : Fin 16)
  | send (e : Fin 72) (ra : Fin 16)
  /-- SEND of a role engine whose value carries service code 0x01 (R275). -/
  | markDone (e : Fin 72) (v : Word)
  /-- Service code 0x02. -/
  | markFail (e : Fin 72) (v : Word)
  /-- Service code 0x03. -/
  | checkDone (e : Fin 72) (v : Word)
  | waite (e : Fin 72) (rd : Fin 16) (imm : BitVec 34)
  | halt (e : Fin 72)
  | beat (e : Fin 72)
  | tmr (e : Fin 72) (ra : Fin 16)
  | rrd (e : Fin 72) (rd ra : Fin 16)
  | rwr (e : Fin 72) (ra rb : Fin 16)
  -- engine events
  /-- The TMR timer of engine `e` expires (R262). -/
  | tmrExpire (e : Fin 72)
  /-- AGE_TICK ms (R262). -/
  | ageTick
  /-- A write of `v` to `ENG[n].MBOX` (R262). -/
  | mbox (m : Master) (e : Fin 72) (v : Word)
  /-- The oldest dispatchable OPK is dispatched (R267). -/
  | kernelDispatch (line : Unit)
  /-- BUDGET engine cycles have passed on engine `e` (R268). -/
  | kernelBudgetExceeded (e : Fin 72)
  /-- The heartbeat timer of engine `e` reaches HEARTBEAT µs (R270). -/
  | heartbeatMiss (e : Fin 72)
  /-- A write of `v` to `ENG[n].CTL` with FENCE (R271). -/
  | engineFence (m : Master) (e : Fin 72) (v : Word)
  /-- A write of `v` to `ENG[n].CTL` with RESTART (R265). -/
  | engineRestart (m : Master) (e : Fin 72) (v : Word)
  -- faults and Sillage
  /-- Source `s` reports; `level` when the pair stays at (1,0) (R280, R283); `inA`, `inB`: the collectors that see it. -/
  | faultOccurrence (s : Fin 192) (r : Report) (level inA inB : Bool)
  /-- The pair of source `s` has been invalid for 2 CK_S cycles (R281). -/
  | path (s : Fin 192)
  /-- The collectors have disagreed for 2 CK_S cycles (R282). -/
  | disagree
  /-- WINDOW ms of source `s` end (R283). -/
  | faultWindowEnd (s : Fin 192)
  /-- A write of `v` to `FAULT[0].PENDINGk` (R288). -/
  | pendingClear (m : Master) (k : Fin 4) (v : Word)
  /-- A write of `v` to `FAULT[0].FIRST` (R287). -/
  | firstClear (m : Master) (v : Word)
  /-- The function of source `s` has made no progress for WEDGE_US µs (R294). -/
  | wedged (s : Fin 192)
  /-- One REFCLK tick (R297). -/
  | sillageWrite
  /-- The REFCLK count wraps (R296). -/
  | timewrap
  /-- A write of `v` to SILL.CTL with RESUME (R297). -/
  | sillageResume (m : Master) (v : Word)
  /-- A write of `v` to SILL.CTL: INDEX latches that record (R297). -/
  | sillageLatch (m : Master) (v : Word)
  -- resets and power
  /-- A write of `v` to IDENT.FULL_RESET (R27). -/
  | identFullReset (m : Master) (v : Word)
  /-- A write of PWR.CTL with ENTER = 1 (R318). -/
  | enterP1 (m : Master)
  | enterP2 (m : Master)
  | enterP3 (m : Master)
  /-- The polled block reaches its stop point (R319). -/
  | blockAgree
  /-- POLL_US pass without it (R319). -/
  | pollTimeout
  /-- A falling edge of WAKE_N (R322). -/
  | wakeNFall
  /-- Signal on a KRX lane (R322). -/
  | krxSignalWake
  /-- PWR.WAKE.TIMER expires (R322). -/
  | wakeTimer
  /-- The running wake step ends; `crcOk` is step 4's check (R323, R325). -/
  | wakeStepEnd (crcOk : Bool)
  /-- The running wake step is unfinished at ten times its duration (R324). -/
  | wakeFail
  /-- PWRFAIL_N falls (R327). -/
  | pwrfail
  /-- PWRFAIL_N rises (R327). -/
  | pwrfailRise
  /-- All supplies are lost (R328). -/
  | powerLoss
  /-- The eight sensors in °C + 64 (R361). -/
  | sensorRead (temps : List Byte)
  /-- 1 ms at or below a level's start minus 3 °C (R362). -/
  | throttleStepDown
  /-- The comparator trips (R363). -/
  | thermtrip
  -- tokens (R338), each with the bytes submitted
  | vendorKey (tok : TokenBytes) (blown : Bool)
  | advance (tok : TokenBytes) (blown : Bool)
  | ownerKey (tok : TokenBytes) (blown : Bool)
  | ownerKwk (tok : TokenBytes) (blown : Bool)
  | enterField (tok : TokenBytes) (blown : Bool)
  | testUnlock (tok : TokenBytes) (blown : Bool)
  | revoke (tok : TokenBytes) (blown : Bool)
  | floor (tok : TokenBytes) (blown : Bool)
  | returnOwner (tok : TokenBytes) (blown : Bool)
  | returnVendor (tok : TokenBytes) (blown : Bool)
  | void (tok : TokenBytes) (blown : Bool)
  -- flash and I3C and TAP
  /-- A write of `v` to SIDE.FLASH_CMD with OP = ERASE (R347). -/
  | flashErase (m : Master) (v : Word)
  | flashProgram (m : Master) (v : Word)
  | flashRead (m : Master) (v : Word)
  /-- The hub operation completes, `ok` or with an error (R347). -/
  | flashOpDone (ok : Bool)
  /-- ENTDAA assigns a dynamic address (R348). -/
  | i3cEntdaa (addr : BitVec 7)
  /-- Command 0x01 with a word address and N (R348). -/
  | i3cRegRead (a : BitVec 24) (n : BitVec 4)
  /-- Command 0x02 with a record index (R348). -/
  | i3cSillageRead (index : BitVec 16)
  /-- Command 0x50. -/
  | i3cPushOpen
  /-- Command 0x51 with image bytes. -/
  | i3cPushData (bytes : List Byte)
  | idcode
  /-- EXTEST with the boundary register's pin values (R334). -/
  | extest
  /-- SAMPLE captures the pins. -/
  | sample (pins : Word)
  /-- PRELOAD loads the boundary register. -/
  | preload (bits : Word)
  /-- A TAP debug access: `w = some v` writes, `none` reads (R333). -/
  | tapRegAccess (a : BitVec 24) (w : Option Word)
  -- late rows
  /-- The pair of source `s` returns to quiet (R280). -/
  | sourceQuiet (s : Fin 192)
  /-- The zeroisation completes (R342). -/
  | zeroiseDone
  /-- The page map and bitmap are written empty (R240). -/
  | tierInitDone
  /-- 20 µs of step 3 with the named tiles not in self-refresh (R308, R310). -/
  | retainTimeout (failed : BitVec 16)
  /-- An IEEE 1149.6 instruction (R334). -/
  | acTest
  /-- A token whose format check fails (R339). -/
  | badformat (tok : TokenBytes)
deriving DecidableEq, Repr

end Sys2Proof
end

