-- ==== Sys2Proof/Decode.lean ====
section
/-! DEFINITION. Words that spell commands. The table gives its rows no bits, so no word spells a row; the instruction
words of the engines (R256, R257: Tables 10.7 and 10.8) are decoded and encoded here. -/

namespace Sys2Proof

/-- The command that a word spells by the table's bits: the table gives no row any (log 12). -/
def decodeTableWord (_nbits _w : Nat) : Option Instr := none

/-! ### Fields of an instruction word (Table 10.7) -/

def opOf (w : Word) : Nat := (w.toNat >>> 42) % 64

/-- The 4-bit field whose lowest bit is `lo`. -/
def regField (w : Word) (lo : Nat) : Fin 16 := Fin.ofNat 16 (w.toNat >>> lo)

def fA (w : Word) : Fin 16 := regField w 38
def fB (w : Word) : Fin 16 := regField w 34
def fC (w : Word) : Fin 16 := regField w 30
def fImm (w : Word) : BitVec 34 := w.setWidth 34
def fTarget (w : Word) : BitVec 12 := w.setWidth 12

/-- Slot of form L. -/
def fSlotL (w : Word) : Fin 32 := Fin.ofNat 32 (w.toNat >>> 25)

/-- KIND or OP of form L. -/
def fKind (w : Word) : Nat := (w.toNat >>> 23) % 4

/-- Slot, OFF and WIDTH of form F. -/
def fSlotF (w : Word) : Fin 32 := Fin.ofNat 32 (w.toNat >>> 29)
def fOff (w : Word) : BitVec 9 := BitVec.ofNat 9 (w.toNat >>> 20)
def fWidth (w : Word) : BitVec 7 := BitVec.ofNat 7 (w.toNat >>> 13)

/-- The reserved field of a form is zero: `n` low bits. -/
def lowZero (w : Word) (n : Nat) : Bool := w.toNat % 2 ^ n = 0

/-- Reserved fields of form B: [33:12]. -/
def midZero (w : Word) : Bool := (w.toNat >>> 12) % 2 ^ 22 = 0

/-- Keep the instruction when its reserved field is zero (R257). -/
def keepIf (c : Bool) (i : Instr) : Option Instr := if c then some i else none

/-! ### Decoding -/

/-- Form R (Table 10.8). A field that the operation does not use is not reserved and is ignored (DEDUCED, log 32). -/
def decodeR (e : Fin 72) (w : Word) : Option Instr :=
  let k := keepIf (lowZero w 30)
  match opOf w with
  | 0x01 => k (.add e (fA w) (fB w) (fC w))
  | 0x02 => k (.sub e (fA w) (fB w) (fC w))
  | 0x03 => k (.and e (fA w) (fB w) (fC w))
  | 0x04 => k (.or e (fA w) (fB w) (fC w))
  | 0x05 => k (.xor e (fA w) (fB w) (fC w))
  | 0x06 => k (.shl e (fA w) (fB w) (fC w))
  | 0x07 => k (.shr e (fA w) (fB w) (fC w))
  | 0x08 => k (.sar e (fA w) (fB w) (fC w))
  | 0x09 => k (.mul e (fA w) (fB w) (fC w))
  | 0x0A => k (.sltu e (fA w) (fB w) (fC w))
  | 0x1E => k (.jr e (fB w))
  | 0x30 => k (.padd e (fA w) (fB w) (fC w))
  | 0x31 => k (.psub e (fA w) (fB w) (fC w))
  | 0x32 => k (.fadd e (fA w) (fB w) (fC w))
  | 0x33 => k (.fmin e (fA w) (fB w) (fC w))
  | 0x34 => k (.fmax e (fA w) (fB w) (fC w))
  | 0x38 => k (.send e (fB w))
  | 0x3C => k (.tmr e (fB w))
  | 0x3D => k (.rrd e (fA w) (fB w))
  | 0x3E => k (.rwr e (fB w) (fC w))
  | _ => none

/-- Form I. LDI and LIH with ra other than w0 trap in their meaning. -/
def decodeI (e : Fin 72) (w : Word) : Option Instr :=
  match opOf w with
  | 0x10 => some (.addi e (fA w) (fB w) (fImm w))
  | 0x11 => some (.andi e (fA w) (fB w) (fImm w))
  | 0x12 => some (.ori e (fA w) (fB w) (fImm w))
  | 0x13 => some (.ldi e (fA w) (fB w) (fImm w))
  | 0x14 => some (.lih e (fA w) (fB w) (fImm w))
  | 0x20 => some (.ldw e (fA w) (fB w) (fImm w))
  | 0x21 => some (.stw e (fA w) (fB w) (fImm w))
  | 0x2E => some (.setwin e (fImm w))
  | 0x39 => some (.waite e (fA w) (fImm w))
  | _ => none

/-- Form B. -/
def decodeB (e : Fin 72) (w : Word) : Option Instr :=
  let r := keepIf (midZero w)
  match opOf w with
  | 0x18 => r (.beq e (fA w) (fB w) (fTarget w))
  | 0x19 => r (.bne e (fA w) (fB w) (fTarget w))
  | 0x1A => r (.blt e (fA w) (fB w) (fTarget w))
  | 0x1B => r (.bltu e (fA w) (fB w) (fTarget w))
  | 0x1C => r (.jmp e (fTarget w))
  | 0x1D => r (.call e (fTarget w))
  | _ => none

/-- Forms L and F, and the operations without a form. What an access finds in memory is no part of the word. -/
def decodeL (e : Fin 72) (w : Word) : Option Instr :=
  let k := keepIf (lowZero w 23)
  match opOf w with
  | 0x00 => some (.nop e)
  | 0x22 => keepIf (lowZero w 13) (.ext e (fA w) (fB w) (fSlotF w) (fOff w) (fWidth w))
  | 0x23 => keepIf (lowZero w 13) (.ins e (fA w) (fB w) (fSlotF w) (fOff w) (fWidth w))
  | 0x24 => k (.szero e (fSlotL w))
  | 0x28 => k (.lget e (fB w) (fSlotL w))
  | 0x29 => k (.lput e (fB w) (fSlotL w))
  | 0x2A => k (.lwait e (fA w) (fSlotL w) ((w.toNat >>> 24) % 2 = 1))
  | 0x2B =>
    (match fKind w with
     | 1 => k (.latomAdd e (fA w) (fB w) (fC w) ())
     | 2 => k (.latomSwap e (fA w) (fB w) (fC w) ())
     | 3 => k (.latomCas e (fA w) (fB w) (fC w) ())
     | _ => none)
  | 0x2C => k (.lpois e (fA w) (fB w))
  | 0x2D =>
    (match fKind w with
     | 1 => k (.lstepRebuild e (fA w) (fB w) ())
     | 2 => k (.lstepScrub e (fA w) (fB w) ())
     | 3 => k (.lstepRotate e (fA w) (fB w) ())
     | _ => none)
  | 0x3A => some (.halt e)
  | 0x3B => some (.beat e)
  | _ => none

/-- The instruction that engine `e` reads from a word; `none` for a reserved OP or field value, which traps with cause
ENCODING (R257). -/
def decodeEngine (e : Fin 72) (w : Word) : Option Instr :=
  ((decodeR e w).or (decodeI e w)).or ((decodeB e w).or (decodeL e w))

/-! ### Encoding -/

/-- OP and the three register fields. -/
def encHead (op : Nat) (a b c : Fin 16) : Nat := op <<< 42 ||| a.val <<< 38 ||| b.val <<< 34 ||| c.val <<< 30

def encR (op : Nat) (a b c : Fin 16) : Option Word := some (BitVec.ofNat 48 (encHead op a b c))
def encI (op : Nat) (a b : Fin 16) (imm : BitVec 34) : Option Word := some (BitVec.ofNat 48 (encHead op a b 0 ||| imm.toNat))
def encB (op : Nat) (a b : Fin 16) (t : BitVec 12) : Option Word := some (BitVec.ofNat 48 (encHead op a b 0 ||| t.toNat))

def encL (op : Nat) (a b c : Fin 16) (slot : Fin 32) (kind : Nat) : Option Word :=
  some (BitVec.ofNat 48 (encHead op a b c ||| slot.val <<< 25 ||| kind <<< 23))

def encF (op : Nat) (a b : Fin 16) (slot : Fin 32) (off : BitVec 9) (width : BitVec 7) : Option Word :=
  some (BitVec.ofNat 48 (encHead op a b 0 ||| slot.val <<< 29 ||| off.toNat <<< 20 ||| width.toNat <<< 13))

/-- The word of an engine instruction (Tables 10.7 and 10.8), its unused fields zero; `none` for the other commands. -/
def encodeEngine : Instr → Option Word
  | .nop _ => encR 0x00 0 0 0
  | .add _ a b c => encR 0x01 a b c
  | .sub _ a b c => encR 0x02 a b c
  | .and _ a b c => encR 0x03 a b c
  | .or _ a b c => encR 0x04 a b c
  | .xor _ a b c => encR 0x05 a b c
  | .shl _ a b c => encR 0x06 a b c
  | .shr _ a b c => encR 0x07 a b c
  | .sar _ a b c => encR 0x08 a b c
  | .mul _ a b c => encR 0x09 a b c
  | .sltu _ a b c => encR 0x0A a b c
  | .addi _ a b i => encI 0x10 a b i
  | .andi _ a b i => encI 0x11 a b i
  | .ori _ a b i => encI 0x12 a b i
  | .ldi _ a b i => encI 0x13 a b i
  | .lih _ a b i => encI 0x14 a b i
  | .beq _ a b t => encB 0x18 a b t
  | .bne _ a b t => encB 0x19 a b t
  | .blt _ a b t => encB 0x1A a b t
  | .bltu _ a b t => encB 0x1B a b t
  | .jmp _ t => encB 0x1C 0 0 t
  | .call _ t => encB 0x1D 0 0 t
  | .jr _ b => encR 0x1E 0 b 0
  | .ldw _ a b i => encI 0x20 a b i
  | .stw _ a b i => encI 0x21 a b i
  | .ext _ a b s o n => encF 0x22 a b s o n
  | .ins _ a b s o n => encF 0x23 a b s o n
  | .szero _ s => encL 0x24 0 0 0 s 0
  | .lget _ b s => encL 0x28 0 b 0 s 0
  | .lput _ b s => encL 0x29 0 b 0 s 0
  | .lwait _ a s all => encL 0x2A a 0 0 s (if all then 2 else 0)
  | .latomAdd _ a b c _ => encL 0x2B a b c 0 1
  | .latomSwap _ a b c _ => encL 0x2B a b c 0 2
  | .latomCas _ a b c _ => encL 0x2B a b c 0 3
  | .lpois _ a b => encL 0x2C a b 0 0 0
  | .lstepRebuild _ a b _ => encL 0x2D a b 0 0 1
  | .lstepScrub _ a b _ => encL 0x2D a b 0 0 2
  | .lstepRotate _ a b _ => encL 0x2D a b 0 0 3
  | .setwin _ i => encI 0x2E 0 0 i
  | .padd _ a b c => encR 0x30 a b c
  | .psub _ a b c => encR 0x31 a b c
  | .fadd _ a b c => encR 0x32 a b c
  | .fmin _ a b c => encR 0x33 a b c
  | .fmax _ a b c => encR 0x34 a b c
  | .send _ b => encR 0x38 0 b 0
  | .waite _ a i => encI 0x39 a 0 i
  | .halt _ => encR 0x3A 0 0 0
  | .beat _ => encR 0x3B 0 0 0
  | .tmr _ b => encR 0x3C 0 b 0
  | .rrd _ a b => encR 0x3D a b 0
  | .rwr _ b c => encR 0x3E 0 b c
  | _ => none

end Sys2Proof
end

