-- ==== Sys2Proof/Config.lean ====
section
/-! DEFINITION. What one implementation fixes, and the free values: constants without a body, so that no proof can
evaluate them. The state's counter `freeCtr` picks a fresh index at each use. -/

namespace Sys2Proof.Config

/-- A free value of up to 512 bits, index `n` (R2: "may take any value"). DESIGN CHOICE (log 8). -/
opaque freeLine (n : Nat) : BitVec 512

/-- A free register word, index `n` (R2, R240). DESIGN CHOICE (log 8). -/
opaque freeWord (n : Nat) : BitVec 48

/-- A free choice, index `n` (R2: "may or may not take place"). DESIGN CHOICE (log 8). -/
opaque freeBool (n : Nat) : Bool

/-- The internal random source of the token nonce (R337), draw `n`. DESIGN CHOICE (log 8). -/
opaque nonceDraw (n : Nat) : BitVec 48

/-- The way the page map cache evicts when a set is full: R235 names no policy. DESIGN CHOICE (log 8). -/
opaque pmcVictim (n : Nat) : Fin 8

/-- `IDENT.PART.STEP_MAJOR`, "Per stepping" (Table 1.9). DESIGN CHOICE (log 7). -/
opaque stepMajor : BitVec 8

/-- `IDENT.PART.STEP_MINOR`, "Per stepping" (Table 1.9). DESIGN CHOICE (log 7). -/
opaque stepMinor : BitVec 8

/-- A free number, index `n`: one of several outcomes, or a count, that the spec leaves open (R2). DESIGN CHOICE (log 8). -/
opaque freeNat (n : Nat) : Nat

/-- Bit `n` of the PRBS of order `order` from `seed`: Table 7.10 names PRBS7 and PRBS15 and their seeds, and states
neither polynomial nor bit order. DESIGN CHOICE (log 8). -/
opaque prbsBit (order seed n : Nat) : Bool

end Sys2Proof.Config
end

