-- ==== Sys2Proof/Machine/State.lean ====
section
/-! DEFINITION. The state of the block as plain data, the reasons a step can stop, and the state after reset. -/

namespace Sys2Proof.Machine

/-- Why a step stops with a fault. -/
inductive Fault where
  /-- Raised by nobody: the spec gives every command of the table an effect. Kept so that the type has a name to
  stop with. Safe. -/
  | none_raised
deriving DecidableEq, Repr

/-- Why a step has no meaning. -/
inductive Refusal where
  /-- Raised by an arm of `exec` whose meaning is not written. Safe. -/
  | notModelled (mnemonic : String)
deriving DecidableEq, Repr

/-- The register file: word address and value; an address that is not listed reads as its reset value. Addresses rise
strictly and no entry equals the reset value. -/
abbrev RegMap := List (Nat × Word)

/-- Bytes by key (flash by byte address, configuration stores by section and offset), in the same canonical form. -/
abbrev Memory := List Host.Cell

/-- The fuse array (R331, Table 13.1). -/
structure Fuses where
  uid : BitVec 96
  lcVendor : BitVec 8
  lcField : BitVec 8
  lcReturned : BitVec 8
  lcVoid : BitVec 8
  keys : Vector (BitVec 768) 8
  revoked : BitVec 8
  kwk : BitVec 256
  floors : Vector (BitVec 16) 32
  zdone : BitVec 8
  /-- a life-cycle pattern that cannot be read, or a key word failing its parity (R332) -/
  unreadable : Bool
deriving DecidableEq, Repr

/-- What the checks of a load attempt found (R40). -/
inductive Verdict where
  | fail (code : BitVec 8)
  | ok (cfg : Memory) (build : BitVec 64) (secver : BitVec 16)
deriving DecidableEq, Repr

/-- The Accord loader (R38 to R43). -/
structure Loader where
  /-- an attempt is under way (STATE LOADING) -/
  active : Bool
  /-- SOURCE code of Table 2.7: 1 flash, 2 link push, 3 I3C push -/
  src : BitVec 3
  /-- flash slot under trial -/
  slot : Bool
  /-- the second flash slot is under trial (R38) -/
  second : Bool
  /-- code of the first slot when the second is tried -/
  firstCode : BitVec 8
  pushOpen : Bool
  /-- image bytes of the open push, in order -/
  push : List Byte
  verdict : Option Verdict
deriving DecidableEq, Repr

/-- One commit group (R52 to R54): bit i stands for instance i. -/
structure CgGroup where
  opened : BitVec 16
  pend : BitVec 16
  /-- instances that were following when they were committed, once for each such commit: each counts at its boundary (R54) -/
  emptyCommit : List Nat
  /-- the IDLE fallback holds acceptance (R52) -/
  hold : BitVec 16
deriving DecidableEq, Repr

/-- A physical lane's state (R57 to R60, R82). -/
inductive Lane where
  | active (logical : Nat)
  | spare
  | out
  | unused
deriving DecidableEq, Repr

inductive LinkSt where
  | down
  | training
  | up
deriving DecidableEq, Repr

/-- What a physical KTX lane carries during one flit (R63, R85). -/
inductive LaneSig where
  /-- its words, one for each beat -/
  | words (ws : List (BitVec 48))
  /-- PRBS31, restarted with this flit or going on -/
  | prbs31 (restart : Bool)
  | quiet
deriving DecidableEq, Repr

/-- A data flit of the replay buffer: SEQ, its 14 slots, replays made without an ACK advancing (R70, R74). -/
structure TxFlit where
  seq : BitVec 12
  slots : List (Option Slot)
  tries : Nat
deriving DecidableEq, Repr

/-- A lane change (LCMD 1 SWAP, 2 DROP, 3 ADD, 4 TEST) of a physical lane (Table 3.2). -/
structure Change where
  cmd : BitVec 3
  lane : Nat
deriving DecidableEq, Repr

structure Link where
  st : LinkSt
  /-- 0 down, 1 115.2, 2 57.6, 3 28.8 Gb/s -/
  rate : BitVec 2
  rxLanes : Vector Lane 22
  txLanes : Vector Lane 22
  next : BitVec 12
  exp : BitVec 12
  replay : List TxFlit
  resend : List (BitVec 12)
  nakOut : Bool
  ackv : Bool
  ctlq : List Slot
  xoffP : Bool
  xoffM : Bool
  xoffQ : Bool
  freshXoff : Bool
  req : Option Change
  /-- TEST and ADD requests that wait their turn -/
  reqWait : List Change
  /-- the request that the hub's last header carried, so that a repeated one is known (R84) -/
  lastReq : Option Change
  /-- NEXT has passed 4095 since link-up (R73: which SEQ were sent) -/
  wrapped : Bool
  failing : List Nat
  announce : Option Change
  announced : Option Change
  /-- the flit just built carried the announcement: the next one is flit n + 1 (R84) -/
  announceGap : Bool
  /-- the change that the far end announced, and whether flit n + 1 is still to come (R86) -/
  rxChange : Option Change
  rxGap : Bool
  /-- PRBS31 restarts on this lane with the next flit (R85) -/
  prbsFrom : Option Nat
  margin : Vector Nat 22
  rttMax : Nat
  probesLeft : Nat
  laneTest : Option Nat
  /-- target rate of the training under way (R91) -/
  target : BitVec 2
  /-- the training under way follows an apply (R59): its link-up is not a link-down's recovery -/
  afterApply : Bool
  /-- a failed attempt waits 100 ms before the next one (R92) -/
  retryWait : Bool
  /-- the next RESYNC carries RST = 1 (R117) -/
  rstUp : Bool
  /-- the link is in standby (R316) -/
  standby : Bool
  lastTx : Option (BitVec 64 × List (Option Slot) × BitVec 64)
  /-- what the 22 KTX lanes carry during that flit -/
  lanesOut : List LaneSig
deriving DecidableEq, Repr

/-- A message in the receive buffer (R75, R76). -/
structure RxMsg where
  vc : Vc
  tag : BitVec 12
  slots : List Slot
deriving DecidableEq, Repr

/-- A message built and not wholly sent (R66, R79). -/
structure OutMsg where
  vc : Vc
  tag : BitVec 12
  resync : Bool
  started : Bool
  slots : List Slot
deriving DecidableEq, Repr

/-- STATUS codes (Table 4.5). -/
inductive Status where
  | ok
  | poison
  | nospace
  | opfault
  | noop
  | lost
deriving DecidableEq, Repr

/-- What a decoded request asks for (R98 to R100). -/
inductive Op where
  | rd
  | wr (data : Line)
  | wrm (mask : BitVec 64) (data : Line)
  | atom (op : BitVec 2) (w : BitVec 3) (compare value : BitVec 64)
  | flush
  | opk (kidx : BitVec 8) (window : BitVec 4) (length : BitVec 32)
  | mrd (waddr : BitVec 24) (count : BitVec 4)
  | mwr (waddr : BitVec 24) (count : BitVec 4) (vals : List Word)
  /-- an LPOIS (Table 10.8): the line is written as poison -/
  | pois
deriving DecidableEq, Repr

/-- How a stored line is encrypted (R226): its media line address, and for a line of a region with ENC its key slot, the
epoch, and the region and pointer unit that decide the epoch (R231, R232). -/
structure KeyUse where
  media : LineAddr
  enc : Bool
  slot : BitVec 5
  epoch : BitVec 32
  region : Nat
  unit : Nat
  /-- an access by LOC: its line has no media address (R253) -/
  isLoc : Bool
  /-- its epoch stands whatever the pointer says: a rotation's own write (R231) -/
  pinned : Bool
deriving DecidableEq, Repr

/-- Whose access it is, and where its end is told. -/
inductive Who where
  /-- a request of the hub (R98) -/
  | hub (tag : BitVec 12) (src : BitVec 10)
  /-- an LGET or LPUT of slot `k`, or the argument line (R259, R267), of the engine's invocation or role `gen` -/
  | slot (e : Fin 72) (k : Fin 32) (gen : Nat)
  /-- an LATOM or LPOIS (R260, Table 10.8) -/
  | latom (e : Fin 72) (gen : Nat)
  /-- line `i` that the tier access `id` reads or writes (R243, R244) -/
  | tier (id i : Nat)
  /-- a page map table line (R235) -/
  | pmc (idx : BitVec 32)
  /-- line `i` of a job (R210, R212, R215, R231) -/
  | job (id i : Nat)
  /-- the fill of a subchannel (R216) -/
  | fill (s : Fin 8)
  /-- the writing of the page map table and bitmap (R240) -/
  | init
  | none
deriving DecidableEq, Repr

/-- An access as the queues know it. -/
structure Acc where
  who : Who
  note : BitVec 4
  master : BitVec 11
  /-- number of its request, for counting it once (R143) and for FLUSH (R109) -/
  rid : Nat
  /-- core cycle 0 of its latency (R146) -/
  c0 : Nat
  /-- its completion mode, fixed when it was accepted into a queue (R145) -/
  placed : Bool
  /-- it had executed before a link-down (R115) -/
  late : Bool
deriving DecidableEq, Repr

/-- A decoded request or an access that waits for its verdict or for entries (R104, R110, R130). -/
structure Held where
  vc : Vc
  r : Req
  op : Op
  who : Who
  master : BitVec 11
  rid : Nat
  /-- core cycle at decode (R146) -/
  c0 : Nat
  decided : Option Status
  accepted : Bool
  /-- taken from the receive buffer and waiting behind a locked line (R105) -/
  taken : Bool
  /-- it stands for a message of the hub in the receive buffer (R130) -/
  msg : Bool
  /-- location and encryption, where they do not follow from the line address (R253, R244) -/
  fixed : Option (Loc × KeyUse)
  /-- the elastic page whose frame it goes to (R241) -/
  page : Option (BitVec 32)
deriving DecidableEq, Repr

/-- An accepted request until its response is acknowledged (R114, R115). -/
structure Track where
  vc : Vc
  tag : BitVec 12
  executed : Bool
  built : Bool
  /-- accepted before a link-down (R115, R116) -/
  dead : Bool
  /-- SEQ of the flit with the response's last slot -/
  seq : Option (BitVec 12)
deriving DecidableEq, Repr

/-- A FLUSH not yet answered: the writes that it still waits for, by request number (R109). -/
structure FlushWait where
  tag : BitVec 12
  src : BitVec 10
  cover : List Nat
  poison : Bool
deriving DecidableEq, Repr

/-- What waits for an RSP_M to be sent or dropped (R27, R91, R318). -/
inductive AfterRsp where
  | fullReset
  | linkReset
  | enter (target : BitVec 2)
deriving DecidableEq, Repr

structure Txn where
  rx : List RxMsg
  part : List Slot
  held : List Held
  track : List Track
  lossQ : List (BitVec 12)
  lossK : List (BitVec 12)
  lossM : List (BitVec 12)
  outP : List OutMsg
  outM : List OutMsg
  flushes : List FlushWait
  /-- number of the next request or access -/
  nextRid : Nat
  /-- accepted WR, WRM and ATOM requests whose write has not reached the pins (R109) -/
  writes : List Nat
  afterRsp : List (BitVec 12 × AfterRsp)
  epoch : BitVec 8
  /-- RST of the RESYNC pending (R118 repeats it) -/
  resyncRst : Bool
deriving DecidableEq, Repr

/-- What a DRAM read is for: its data, a merge (R106), or an atomic (R107). -/
inductive RdOp where
  | rd
  | merge (wq : Nat)
  | atom (op : BitVec 2) (w : BitVec 3) (compare value : BitVec 64)
deriving DecidableEq, Repr

/-- A read entry (R129). -/
structure RdEnt where
  q : Nat
  s : Fin 8
  loc : Loc
  key : KeyUse
  op : RdOp
  acc : Acc
  /-- bytes that the page map cache or the pool accounting holds of the line, by mask (R253) -/
  ov : Option (BitVec 64 × Line)
  t0 : Nat
  promo : Nat
  /-- speculative and its verdict still due (R110) -/
  specWait : Bool
  /-- its column command was picked before its verdict and waits to load (R111) -/
  picked : Bool
  discards : Nat
  /-- its ACT has been counted in DIST.HELD (R160) -/
  penHeld : Bool
deriving DecidableEq, Repr

/-- What an entry carries besides its line (R210, R212). -/
inductive Carry where
  /-- the line at the rebuild pointer: it is encoded under the spare map -/
  | rebuild
  /-- a column of a row move: it is written to this row -/
  | row (r : BitVec 18)
deriving DecidableEq, Repr

/-- A write entry (R105 to R108). -/
structure WrEnt where
  q : Nat
  s : Fin 8
  loc : Loc
  key : KeyUse
  mask : BitVec 64
  data : Line
  poison : Bool
  /-- its merge read is outstanding (R106) -/
  merging : Bool
  note : BitVec 4
  master : BitVec 11
  t0 : Nat
  promo : Nat
  aged : Bool
  /-- accesses that learn when it reaches the pins, with the OLD word of an atomic (R108) -/
  comps : List (Acc × Option (BitVec 64))
  /-- numbers of the hub's requests whose bytes it holds (R109) -/
  hubs : List Nat
  /-- number and note of each request that it holds, merged ones too (R143) -/
  reqs : List (Nat × BitVec 4)
  carry : Option Carry
  discards : Nat
  penHeld : Bool
deriving DecidableEq, Repr

/-- A bank (R139, R140) with the DRAM timing stamps of its last commands in root PLL periods. -/
structure Bank where
  row : Option (BitVec 18)
  last : Option (BitVec 18)
  pred : Nat
  due : Bool
  tAct : Option Nat
  tRd : Option Nat
  tWr : Option Nat
  tPre : Option Nat
  /-- entries whose ACT opened the row, and whose PRE closed the one before (R140) -/
  actQ : Option Nat
  preQ : Option Nat
  /-- port cycle of each master's last ACT to the bank (R160) -/
  actBy : List (BitVec 11 × Nat)
deriving DecidableEq, Repr

/-- Phases of a self-refresh entry and exit (Table 6.3, R163). -/
inductive SrPhase where
  | run
  | drain
  | sre
  | stopped
  | exiting
deriving DecidableEq, Repr

structure Port where
  cyc : Nat
  rdq : List RdEnt
  wrq : List WrEnt
  banks : List (Nat × Bank)
  drain : BitVec 5
  batch : List Nat
  locks : List Loc
  nextQ : Nat
  rtBurst : Bool
  burstEnded : Bool
  sr : SrPhase
  /-- the entry was requested by PWR, not by idleness (R161) -/
  srPower : Bool
  srArrived : Bool
deriving DecidableEq, Repr

/-- A tracker entry (R157). -/
structure Trk where
  row : BitVec 18
  count : Nat
  master : BitVec 11
  vote : Nat
deriving DecidableEq, Repr

/-- A penalty: master, port cycle of its last ACT to the bank (R160). -/
structure Pen where
  master : BitVec 11
  lastAct : Nat
deriving DecidableEq, Repr

structure Tile where
  owed : Nat
  hot : Bool
  coolPolls : Nat
  /-- a refresh unit has issued its first command (R151) -/
  refUnit : Bool
  /-- commands that a same-bank unit under way has issued (R151) -/
  refNext : Nat
  /-- a unit is due, or under way, by force: it holds the tile until it completes (R154) -/
  forced : Bool
  geyser : Bool
  /-- the tile leaves its Geyser with the unit under way (R155) -/
  geyserEnd : Bool
  inSr : Bool
  powered : Bool
  /-- RAMP is running, or the tile waits for its initialisation (R167, R176) -/
  ramping : Bool
  /-- RAMP has elapsed, and the port's DRAM_RESET_N waits for its other tiles (R176) -/
  ramped : Bool
  settled : Nat
  /-- root PLL period up to which a refresh unit holds the tile (R151) -/
  holdUntil : Nat
  /-- changed MR_INIT entries are to be written after SRX and tXS (R177) -/
  mrDue : Bool
  trackers : List (Nat × List Trk)
  pens : List (Nat × Pen)
deriving DecidableEq, Repr

/-- DRAM commands that leave on CA. -/
inductive CmdKind where
  | act | rd | wr | pre | preAll | refAb | refSb | rfmAb | rfmSb | sre | srx | mrwK | mrrK | zqStart | zqLatch | test
deriving DecidableEq, Repr

structure Cmd where
  kind : CmdKind
  tile : Fin 16
  cid : BitVec 3
  bg : BitVec 3
  bank : BitVec 2
  row : BitVec 18
  col : BitVec 7
  ap : Bool
deriving DecidableEq, Repr

/-- A WR burst of the retry buffer (R179 to R182). -/
structure Burst where
  loc : Loc
  words : List (BitVec 64)
  resent : Nat
deriving DecidableEq, Repr

/-- A read column command whose data is due (R201): the map in force when it was encoded (R206). -/
structure Inflight where
  loc : Loc
  key : KeyUse
  op : RdOp
  acc : Acc
  ov : Option (BitVec 64 × Line)
  spare : Option Nat
  /-- logical positions erased then (R205, R208) -/
  erased : List Nat
  drop : Bool
deriving DecidableEq, Repr

inductive AlertSt where
  | idle
  | low
  /-- low since a test operation: no resend follows (R188) -/
  | lowTest
  | stuck
deriving DecidableEq, Repr

structure Phy where
  retry : List Burst
  alert : AlertSt
  inflight : List Inflight
  /-- test operation under way -/
  test : Option Word
  /-- its command has left; before that it waits for the scheduler (R188, R190) -/
  testSent : Bool
  /-- the tile's delay set that the operation uses: SLICE_T, SLICE_B, TILE, live or shadow (R184) -/
  testDly : List Word
  /-- root PLL period up to which the DRAM turnaround after a test operation holds the subchannel (R188) -/
  turnUntil : Nat
  /-- commands that leave when the subchannel issues again (R180, R188) -/
  due : List Cmd
  /-- when ALERT_N rose after a stuck alert (R182) -/
  riseAt : Option Nat
  lastCmd : Option Cmd
  lastAt : Nat
  /-- DLY[t].TILE as the last command left: the CA, CS and CK delays of its tile (R174) -/
  lastDly : Word
  lastWr : Option (List (BitVec 64))
  /-- last column commands for tCCD and tWTR: time, tile and bank group, write -/
  lastCol : Option (Nat × Fin 16 × BitVec 3 × Bool)
  /-- ACT times for tRRD and tFAW: time, tile and layer, bank group, newest first -/
  acts : List (Nat × Fin 16 × BitVec 3 × BitVec 3)
deriving DecidableEq, Repr

structure Cal where
  pause : Bool
  queued : Bool
  codes : Vector (List (BitVec 6)) 2
  pend : Vector (Option (List (BitVec 6))) 2
  /-- a run has ended DONE since power-on (R194) -/
  everDone : Bool
deriving DecidableEq, Repr

/-- A row command of a subchannel (R212 to R214). -/
structure RowOp where
  /-- 1 MOVE, 2 RETURN, 3 soft PPR, 4 hard PPR -/
  kind : BitVec 3
  v : Word
  /-- waits for a rebuild to end (Table 8.4) -/
  waiting : Bool
  /-- the PPR sequence has left on CA (R214) -/
  sent : Bool
deriving DecidableEq, Repr

structure Prot where
  dead : BitVec 13
  rebuild : Bool
  frozen : Bool
  spareUsed : Bool
  spareFor : BitVec 4
  p : BitVec 34
  reinstate : BitVec 64
  filling : Bool
  /-- the fill of R216 has not started yet -/
  fillDue : Bool
  /-- sweep position of the next fill write, and the writes not yet loaded (R216) -/
  fillP : Nat
  fillLeft : Nat
  rowOp : Option RowOp
  injCount : Nat
deriving DecidableEq, Repr

/-- The spare journal (R217 to R219). -/
structure Journal where
  busy : Bool
  /-- a change waits for the next record -/
  dirty : Bool
  /-- the slot not holding the latest record is still to be erased (R218, R219) -/
  eraseDue : Bool
  /-- bytes 0x0000 to 0x20BF of the record under way (R217: a snapshot) -/
  image : List Byte
deriving DecidableEq, Repr

/-- A block of the pool (R239); a block not listed is free. -/
inductive Blk where
  | frame
  | tier (used : BitVec 8)
deriving DecidableEq, Repr

/-- A page map cache entry: the 16 B of Table 9.3 and its dirty bit (R235). -/
structure PmcEnt where
  e : BitVec 128
  dirty : Bool
deriving DecidableEq, Repr

inductive TierPhase where
  | waitEntry
  | reading
  | writing
  | switched
deriving DecidableEq, Repr

/-- A tier access under way (R241 to R245), in arrival order; it holds the page lock when it is the first of its page. -/
structure TierOp where
  /-- its own number, by which its reads know it -/
  id : Nat
  idx : BitVec 32
  unit : Nat
  h : Held
  phase : TierPhase
  claim : Bool
  /-- lines read so far, by their place in the chunk or, for a move, in the page's extent or frame -/
  got : List (Nat × Option Line)
  /-- lines that the reading phase needs -/
  want : Nat
  /-- lines of other chunks still to be copied into a new extent (R244) -/
  copies : Nat
  /-- lines of the new or rewritten extent not yet loaded into the serialiser (R244) -/
  wleft : Nat
  /-- accesses that read under the old entry when the entry changed (R244) -/
  readers : List Nat
  /-- one of them needed correction (R202) -/
  gotCorr : Bool
  /-- one of them came from a write entry -/
  gotFwd : Bool
  newEntry : BitVec 128
  oldEntry : BitVec 128
  /-- the merged chunk in the compression unit's staging (Table 9.5); `none` lines are poison -/
  staged : List (Option Line)
  /-- it waited while an earlier write of its page was merged, so that the staging does not answer it (Table 9.5) -/
  early : Bool
  /-- what a write answers when it is placed, and an atomic's OLD word, fixed at the merge -/
  st : Status
  oldW : BitVec 64
  /-- the request had executed before a link-down (R115) -/
  late : Bool
  /-- completion mode, fixed at admission (R145) -/
  placed : Bool
  /-- a move of this mover, not a request (R246, R247) -/
  move : Option (Fin 4)
deriving DecidableEq, Repr

structure Move where
  /-- 1 PROMOTE, 2 DEMOTE, 3 REPACK -/
  op : BitVec 2
  idx : BitVec 32
deriving DecidableEq, Repr

structure Tier where
  pmc : List (Nat × PmcEnt)
  /-- table lines read for a miss, by page map index, until the request continues (R235) -/
  loaded : List (Nat × Option Line)
  pool : List (Nat × Blk)
  free : Nat
  frag : Nat
  claims : Nat
  ops : List TierOp
  /-- number of the next access -/
  nextId : Nat
  moves : Vector (Option Move) 4
  initWait : Bool
  /-- the next line of the table and bitmap to write empty, and the writes not yet loaded (R240) -/
  initP : Nat
  initLeft : Nat
deriving DecidableEq, Repr

/-- Pointer steps that lock, read and write lines (R210, R212, R215, R231). -/
inductive JobKind where
  | rebuild (s : Fin 8)
  | scrub (s : Fin 8)
  | rotate (r : BitVec 6)
  | row (s : Fin 8)
deriving DecidableEq, Repr

/-- One step under way. -/
structure Job where
  id : Nat
  kind : JobKind
  /-- the engine whose LSTEP it is, and its generation -/
  e : Option (Fin 72 × Nat)
  note : BitVec 4
  master : BitVec 11
  /-- page whose lock it holds (R247) -/
  page : Option (BitVec 32)
  /-- the lines it moves: location, and the key of the write -/
  lines : List (Loc × KeyUse)
  /-- lines neither written nor found to need no write -/
  left : Nat
  /-- worst outcome so far (R261) -/
  worst : Nat
deriving DecidableEq, Repr

structure Crypt where
  slots : Vector (Option (BitVec 256)) 32
  keyData : Vector Word 8
  epochValid : BitVec 64
  /-- slot of the LOAD under way -/
  busy : Option (BitVec 5)
deriving DecidableEq, Repr

inductive Run where
  | off
  | idle
  | running
  | waiting
  | halted
  | fenced
deriving DecidableEq, Repr

/-- What a WAITING engine waits for (R257, R259, R262, R267). -/
inductive Wait where
  | none
  | event (mask : BitVec 16) (rd : Fin 16)
  | slot (slot : Fin 32) (rd : Fin 16)
  | allSlots (rd : Fin 16)
  /-- SEND of a kernel waits for every slot (R267) -/
  | send (v : Word)
  /-- an LATOM, an LPOIS, an LSTEP (R260, R261) -/
  | atom (rd : Fin 16)
  | pois (rd : Fin 16)
  | step (rd : Fin 16)
  /-- the argument line of an invocation is being loaded (R267) -/
  | start
deriving DecidableEq, Repr

/-- One kernel invocation (R266, R267). -/
structure Inv where
  kidx : BitVec 8
  window : BitVec 4
  tag : BitVec 12
  src : BitVec 10
  line : LineAddr
  length : BitVec 32
  pf : Bool
  /-- the spare on which it re-runs (R273) -/
  onE : Option (Fin 72)
deriving DecidableEq, Repr

structure Engine where
  run : Run
  role : BitVec 8
  image : BitVec 4
  /-- engine whose role record this engine carries -/
  fromE : BitVec 7
  pc : BitVec 12
  regs : Vector Word 16
  imem : List (Nat × Word)
  dmem : List (Nat × Word)
  slots : List (Nat × Line)
  busy : BitVec 32
  stat : List (Nat × BitVec 4)
  /-- accesses that have ended and whose slots are not yet free: slot, STATUS, an LGET's line (R259) -/
  ended : List (Nat × BitVec 4 × Option Line)
  window : Option (BitVec 4)
  events : BitVec 16
  wait : Wait
  trap : BitVec 4
  fenceCause : BitVec 4
  tmr : Bool
  inv : Option Inv
  /-- invocations and starts so far: an access of an earlier one is not the engine's any more (R267) -/
  gen : Nat
  unusedSpare : Bool
deriving DecidableEq, Repr

/-- A fault record of the record store (R286, Table 11.10). -/
structure Rec where
  addr : Word
  time : Word
  coord : BitVec 16
  master : Option (BitVec 11)
  access : BitVec 4
  sev : BitVec 3
  event : BitVec 8
  akind : BitVec 2
  esc : Bool
  promoted : Bool
  /-- the first record at its capture (R287) -/
  first : Bool
deriving DecidableEq, Repr

/-- One fault source as both collectors hold it (R280 to R288). -/
structure Src where
  pendA : Bool
  pendB : Bool
  presA : Bool
  presB : Bool
  sevA : BitVec 3
  sevB : BitVec 3
  count : BitVec 8
  wcount : BitVec 8
  window : Bool
  pathBad : Bool
  /-- a reporting-path fault since PENDING was last cleared (R281, R290) -/
  pathPend : Bool
  fenced : Bool
  rcd : Option Rec
  /-- a record was invalidated and none captured since: what its fields read is open (R288) -/
  stale : Bool
  /-- what the source reports while its pair stays at (1,0), for the occurrence that follows a clear (R288) -/
  cur : Option Report
deriving DecidableEq, Repr

structure FaultState where
  src : List (Nat × Src)
  first : Option (BitVec 8)
  fatal : Bool
  subFence : BitVec 8
  portFence : BitVec 4
deriving DecidableEq, Repr

structure Sill where
  ring : List (Nat × BitVec 128)
  next : BitVec 12
  wraps : BitVec 16
  frozen : Bool
  queue : List (BitVec 128)
  lostNow : Nat
  /-- records still to write before freezing, once a FATAL occurrence armed it (R297) -/
  countdown : Option Nat
  time : Word
deriving DecidableEq, Repr

structure Pwr where
  /-- index of the block being polled, 0 engines to 4 link (R319) -/
  poll : Nat
  latched : BitVec 3
  wakeEvents : BitVec 3
  wakeStep : Nat
  markDone : List (Fin 72)
  checkDone : List (Fin 72)
  /-- WAKE.TIMER was not zero at the commit (R322) -/
  timerOn : Bool
  /-- wake steps of a full reset triggered in P2 or P3 end in its step 4 (R312) -/
  toReset : Bool
deriving DecidableEq, Repr

structure Rst where
  /-- step of Table 12.4 under way, 0 when none -/
  step : Nat
  /-- held at the end of step 4 by RESET_N (R308) -/
  waitRise : Bool
  /-- tiles in service before the reset (R186) -/
  wasReady : BitVec 16
  /-- ATTN 7 is due after the apply step (R310) -/
  attn7 : Bool
  /-- this sequence restarted one in step 5 or 6 (R307), which had set DRAIN_OK, RETAIN_OK to 0 -/
  drainBad : Bool
  retainBad : Bool
  /-- write entries discarded so far in this sequence (R309) -/
  discarded : Nat
deriving DecidableEq, Repr

structure Side where
  flashOp : Option (BitVec 2 × BitVec 32 × BitVec 6)
  i3cAddr : Option (BitVec 7)
  i3cBuf : BitVec 128
  i3cOut : List Byte
  tapBr : Word
  tapOut : Word
  /-- the last instruction acted as BYPASS (R334) -/
  tapBypass : Bool
  /-- an Accord has applied since power-on (R335) -/
  accordSeen : Bool
  /-- the flash's SFDP tables, read at power-on, declare what R346 asks -/
  flashOk : Bool
  /-- RETURNED was entered since power-on, so that the fault log is copied whatever it holds (R342) -/
  zeroFresh : Bool
deriving DecidableEq, Repr

structure Pins where
  resetN : Bool
  pwrfailN : Bool
  thermtripN : Bool
  dramResetN : BitVec 4
deriving DecidableEq, Repr

/-- Everything but the queue of commands, the fuses and the flash. -/
structure Dev where
  on : Bool
  /-- the no-Accord state (R42) -/
  noAccord : Bool
  freeCtr : Nat
  rf : RegMap
  shadow : RegMap
  cg : Vector CgGroup 9
  cfg : Memory
  applied : Bool
  loader : Loader
  link : Link
  txn : Txn
  ports : Vector Port 4
  tiles : Vector Tile 16
  phys : Vector Phy 8
  cals : Vector Cal 4
  prots : Vector Prot 8
  journal : Journal
  mrShadow : List (Nat × Byte)
  qos : Vector (Nat × Bool) 16
  crypt : Crypt
  tier : Tier
  jobs : List Job
  nextJob : Nat
  engs : Vector Engine 72
  kq : List Inv
  flt : FaultState
  sill : Sill
  pwr : Pwr
  rst : Rst
  side : Side
  pins : Pins
deriving DecidableEq, Repr

/-- The state of the block. -/
structure State where
  /-- commands waiting, first in first out -/
  pending : List Instr
  /-- the fuses as power-on read them, and what tokens have read back since (R332, R340) -/
  fuses : Fuses
  /-- the fuse cells themselves: what the next power-on reads -/
  cells : Fuses
  flash : Memory
  dev : Dev
deriving DecidableEq, Repr

/-- A BLANK die: DESIGN CHOICE, the fuses' contents are "Fused" (log 6). -/
def Fuses.blank : Fuses :=
  { uid := 0, lcVendor := 0, lcField := 0, lcReturned := 0, lcVoid := 0, keys := Vector.replicate 8 0, revoked := 0,
    kwk := 0, floors := Vector.replicate 32 0, zdone := 0, unreadable := false }

def Loader.idle : Loader :=
  { active := false, src := 0, slot := false, second := false, firstCode := 0, pushOpen := false, push := [],
    verdict := none }

def CgGroup.following : CgGroup := { opened := 0, pend := 0, emptyCommit := [], hold := 0 }

/-- The link before any training: every lane unused, fresh counters. -/
def Link.initial : Link :=
  { st := .down, rate := 0, rxLanes := Vector.replicate 22 .unused, txLanes := Vector.replicate 22 .unused, next := 0,
    exp := 0, replay := [], resend := [], nakOut := false, ackv := false, ctlq := [], xoffP := false,
    xoffM := false, xoffQ := false, freshXoff := true, req := none, reqWait := [], lastReq := none, wrapped := false,
    failing := [], announce := none, announced := none,
    announceGap := false, rxChange := none, rxGap := false, prbsFrom := none, margin := Vector.replicate 22 0, rttMax := 0, probesLeft := 0,
    laneTest := none, target := 0, afterApply := false, retryWait := false, rstUp := false, standby := false,
    lastTx := none, lanesOut := [] }

def Txn.empty : Txn :=
  { rx := [], part := [], held := [], track := [], lossQ := [], lossK := [], lossM := [], outP := [], outM := [],
    flushes := [], nextRid := 0, writes := [], afterRsp := [], epoch := 0, resyncRst := false }

/-- Predictor 2 is what the apply step sets (R139); before it, DESIGN CHOICE (log 15). -/
def Bank.closed : Bank :=
  { row := none, last := none, pred := 2, due := false, tAct := none, tRd := none, tWr := none, tPre := none,
    actQ := none, preQ := none, actBy := [] }

def Port.empty : Port :=
  { cyc := 0, rdq := [], wrq := [], banks := [], drain := 0, batch := [], locks := [], nextQ := 0, rtBurst := false,
    burstEnded := false, sr := .run, srPower := false, srArrived := false }

def Tile.off : Tile :=
  { owed := 0, hot := false, coolPolls := 0, refUnit := false, refNext := 0, forced := false, geyser := false,
    geyserEnd := false, inSr := false, powered := false,
    ramping := false, ramped := false, settled := 0, holdUntil := 0, mrDue := false, trackers := [], pens := [] }

def Phy.idle : Phy :=
  { retry := [], alert := .idle, inflight := [], test := none, testSent := false, testDly := [], turnUntil := 0,
    due := [], riseAt := none, lastCmd := none, lastAt := 0, lastDly := 0, lastWr := none, lastCol := none,
    acts := [] }

def Cal.idle : Cal :=
  { pause := false, queued := false, codes := Vector.replicate 2 [], pend := Vector.replicate 2 none, everDone := false }

def Prot.fresh : Prot :=
  { dead := 0, rebuild := false, frozen := false, spareUsed := false, spareFor := 0, p := 0, reinstate := 0,
    filling := false, fillDue := false, fillP := 0, fillLeft := 0, rowOp := none, injCount := 0 }

def Crypt.empty : Crypt :=
  { slots := Vector.replicate 32 none, keyData := Vector.replicate 8 0, epochValid := 0, busy := none }

def Tier.empty : Tier :=
  { pmc := [], loaded := [], pool := [], free := 0, frag := 0, claims := 0, ops := [], nextId := 0, moves := Vector.replicate 4 none,
    initWait := false, initP := 0, initLeft := 0 }

def Engine.off : Engine :=
  { run := .off, role := 0, image := 0, fromE := 0, pc := 0, regs := Vector.replicate 16 0, imem := [], dmem := [],
    slots := [], busy := 0, stat := [], ended := [], window := none, events := 0, wait := .none, trap := 0, fenceCause := 0,
    tmr := false, inv := none, gen := 0, unusedSpare := false }

def Src.quiet : Src :=
  { pendA := false, pendB := false, presA := false, presB := false, sevA := 0, sevB := 0, count := 0, wcount := 0,
    window := false, pathBad := false, pathPend := false, fenced := false, rcd := none, stale := false, cur := none }

def FaultState.clear : FaultState := { src := [], first := none, fatal := false, subFence := 0, portFence := 0 }

def Sill.empty : Sill :=
  { ring := [], next := 0, wraps := 0, frozen := false, queue := [], lostNow := 0, countdown := none,
    time := 0 }

def Pwr.p0 : Pwr :=
  { poll := 0, latched := 0, wakeEvents := 0, wakeStep := 0, markDone := [], checkDone := [],
    timerOn := false, toReset := false }

def Rst.none : Rst :=
  { step := 0, waitRise := false, wasReady := 0, attn7 := false,
    drainBad := false, retainBad := false, discarded := 0 }

def Side.idle : Side :=
  { flashOp := Option.none, i3cAddr := Option.none, i3cBuf := 0, i3cOut := [], tapBr := 0, tapOut := 0,
    tapBypass := false, accordSeen := false, flashOk := false, zeroFresh := false }

/-- RESET_N is held low by its pull-down until power-on (Table 14.4); the other inputs rest high. -/
def Pins.rest : Pins :=
  { resetN := false, pwrfailN := true, thermtripN := true, dramResetN := 0 }

def Dev.reset : Dev :=
  { on := false, noAccord := false, freeCtr := 0, rf := [], shadow := [], cg := Vector.replicate 9 .following, cfg := [],
    applied := false, loader := .idle, link := .initial, txn := .empty, ports := Vector.replicate 4 .empty,
    tiles := Vector.replicate 16 .off, phys := Vector.replicate 8 .idle, cals := Vector.replicate 4 .idle,
    prots := Vector.replicate 8 .fresh, journal := { busy := false, dirty := false, eraseDue := false, image := [] },
    mrShadow := [], qos := Vector.replicate 16 (0, false), crypt := .empty, tier := .empty, jobs := [], nextJob := 0,
    engs := Vector.replicate 72 .off, kq := [], flt := .clear, sill := .empty, pwr := .p0, rst := .none,
    side := .idle, pins := .rest }

/-- The block with its supplies up and RESET_N low, before POWER_ON: every register at its Reset column (R10), the
queue empty. DESIGN CHOICE for what the spec calls Fused, Random and Sampled (log 1, 6, 15). -/
def State.reset : State := { pending := [], fuses := .blank, cells := .blank, flash := [], dev := .reset }

end Sys2Proof.Machine
end

