-- ==== Sys2Proof/Machine/Bits.lean ====
section
/-! DEFINITION. Bit fields of words, sparse maps in their canonical form, and small list helpers. -/

namespace Sys2Proof.Machine

/-- A code as it acts: one of the codes `l` that the spec assigns, or for a reserved one a free choice among them (R2, R6;
DESIGN CHOICE, log 87). -/
def codeOf (l : List Nat) (v : Nat) : Nat := if l.contains v then v else l.getD (Config.freeNat v % l.length) 0

/-- Field `[lo+len-1:lo]` of a bit vector, as a number. -/
def fld {w : Nat} (x : BitVec w) (lo len : Nat) : Nat := (x.toNat >>> lo) % 2 ^ len

/-- Bit `i` of a bit vector. -/
def bit {w : Nat} (x : BitVec w) (i : Nat) : Bool := x.getLsbD i

/-- The word with ones in `[hi:lo]`. -/
def ones (hi lo : Nat) : Word := BitVec.ofNat 48 ((2 ^ (hi + 1 - lo) - 1) <<< lo)

/-- `x` with field `[lo+len-1:lo]` set to `v` modulo `2^len`. -/
def put (x : Word) (lo len v : Nat) : Word :=
  (x &&& ~~~ ones (lo + len - 1) lo) ||| BitVec.ofNat 48 ((v % 2 ^ len) <<< lo)

/-- `x` with bit `i` set to `b`. -/
def putBit {w : Nat} (x : BitVec w) (i : Nat) (b : Bool) : BitVec w :=
  if b then x ||| BitVec.ofNat w (1 <<< i) else x &&& ~~~ BitVec.ofNat w (1 <<< i)

def b2n (b : Bool) : Nat := if b then 1 else 0

/-- `[(lo, v), …]` packed into a word. -/
def pack : List (Nat × Nat) → Word
  | [] => 0
  | (lo, v) :: r => BitVec.ofNat 48 (v <<< lo) ||| pack r

/-- The bits of a list of Booleans, first one lowest. -/
def bitsOf : List Bool → Nat
  | [] => 0
  | b :: r => b2n b + 2 * bitsOf r

/-- Saturating add on a field of `len` bits. -/
def satAdd (len a b : Nat) : Nat := min (a + b) (2 ^ len - 1)

/-- Rounding-up division. -/
def ceilDiv (a b : Nat) : Nat := (a + b - 1) / b

/-- Sparse map: the value at key `a`, `d` when it is not listed. -/
def sget {α : Type} (d : α) : List (Nat × α) → Nat → α
  | [], _ => d
  | (k, v) :: r, a => if a = k then v else sget d r a

/-- Sparse map: without key `a`. -/
def sdel {α : Type} : List (Nat × α) → Nat → List (Nat × α)
  | [], _ => []
  | (k, v) :: r, a => if a = k then sdel r a else (k, v) :: sdel r a

/-- Sparse map: `(a, v)` before the first higher key. -/
def sins {α : Type} (a : Nat) (v : α) : List (Nat × α) → List (Nat × α)
  | [] => [(a, v)]
  | (k, w) :: r => if a < k then (a, v) :: (k, w) :: r else (k, w) :: sins a v r

/-- Sparse map: set key `a` to `v`; `d` is what an unlisted `a` reads as. Keeps the canonical form. -/
def sset {α : Type} [DecidableEq α] (d : α) (l : List (Nat × α)) (a : Nat) (v : α) : List (Nat × α) :=
  if v = d then sdel l a else sins a v (sdel l a)

/-- Keys rise strictly from above `lo` and no entry equals `d`. -/
def sortedFrom {α : Type} [DecidableEq α] (d : α) : Nat → List (Nat × α) → Bool
  | _, [] => true
  | lo, (k, v) :: r => decide (lo ≤ k) && decide (v ≠ d) && sortedFrom d (k + 1) r

/-- What an erased flash byte reads as. PRESUMED (log 5). -/
def flashErased : Byte := 0xFF

/-- The canonical form of the flash memory: addresses strictly rising, no entry equal to an erased byte. -/
def Memory.wf (m : Memory) : Bool := sortedFrom flashErased 0 m

def memRead (m : Memory) (a : Nat) : Byte := sget flashErased m a

def memWrite (m : Memory) (a : Nat) (b : Byte) : Memory := sset flashErased m a b

/-- Write bytes at rising addresses. -/
def memWriteList (m : Memory) (a : Nat) : List Byte → Memory
  | [] => m
  | b :: r => memWriteList (memWrite m a b) (a + 1) r

/-- Read `n` bytes. -/
def memReadList (m : Memory) (a : Nat) : Nat → List Byte
  | 0 => []
  | n + 1 => memRead m a :: memReadList m (a + 1) n

/-- Remove every listed byte in `[lo, hi)`: an erase. -/
def memErase (m : Memory) (lo hi : Nat) : Memory := m.filter (fun c => c.1 < lo || hi ≤ c.1)

/-- Little-endian number of a byte list (R28). -/
def leNat : List Byte → Nat
  | [] => 0
  | b :: r => b.toNat + 256 * leNat r

/-- The `n` low bytes of a number, least significant first. -/
def leBytes : Nat → Nat → List Byte
  | 0, _ => []
  | n + 1, v => BitVec.ofNat 8 v :: leBytes n (v / 256)

/-- Big-endian number of a byte list. -/
def beNat (l : List Byte) : Nat := leNat l.reverse

/-- Update the elements of a list that satisfy `c`. -/
def updWhere {α : Type} (c : α → Bool) (f : α → α) (l : List α) : List α := l.map (fun x => if c x then f x else x)

/-- The first element satisfying `c`, and the list without it. -/
def takeFirst {α : Type} (c : α → Bool) : List α → Option (α × List α)
  | [] => none
  | x :: r => if c x then some (x, r) else (takeFirst c r).map (fun (y, q) => (y, x :: q))

/-- Byte `i` of a line. -/
def lineByte (l : Line) (i : Nat) : Byte := l.extractLsb' (8 * i) 8

/-- A line from its bytes, byte 0 first. -/
def lineOf (bs : List Byte) : Line := BitVec.ofNat 512 (leNat bs)

/-- The 64 bytes of a line, byte 0 first. -/
def lineBytes (l : Line) : List Byte := leBytes 64 l.toNat

/-- The 64-bit byte mask widened to a line mask. -/
def lineMaskAux (m : BitVec 64) : Nat → Nat
  | 0 => 0
  | i + 1 => lineMaskAux m i + (if m.getLsbD i then 255 <<< (8 * i) else 0)

def lineMask (m : BitVec 64) : Line := BitVec.ofNat 512 (lineMaskAux m 64)

/-- The bytes of `new` under `m`, the others from `old` (R105, R106). -/
def mergeLine (m : BitVec 64) (new old : Line) : Line := (new &&& lineMask m) ||| (old &&& ~~~ lineMask m)

/-- 8 B word `w` of a line, little-endian (R100). -/
def lineWord (l : Line) (w : Nat) : BitVec 64 := l.extractLsb' (64 * w) 64

def putLineWord (l : Line) (w : Nat) (v : BitVec 64) : Line :=
  mergeLine (BitVec.ofNat 64 (255 <<< (8 * w))) (v.setWidth 512 <<< (64 * w)) l

/-! ### Keyed lists without a default -/

def kvGet {α : Type} : List (Nat × α) → Nat → Option α
  | [], _ => none
  | (k, v) :: r, a => if a = k then some v else kvGet r a

def kvSet {α : Type} : List (Nat × α) → Nat → α → List (Nat × α)
  | [], a, v => [(a, v)]
  | (k, w) :: r, a, v => if a < k then (a, v) :: (k, w) :: r else if a = k then (a, v) :: r else (k, w) :: kvSet r a v

def kvDel {α : Type} (l : List (Nat × α)) (a : Nat) : List (Nat × α) := l.filter (fun e => e.1 ≠ a)

end Sys2Proof.Machine
end

