-- ==== Sys2Proof/Machine/Crypto.lean ====
section
/-! DEFINITION. The checks and ciphers that the spec takes from public standards (Table 0.2): CRC-64 of ECMA-182 (R62),
CRC-32C (R31), SHA-384 and ECDSA P-384 of FIPS 180 and 186 (R36), AES-256 of FIPS 197 (R226). PRESUMED: the bodies of
the standards are not in the spec (log 9). -/

namespace Sys2Proof.Machine

/-- Eight steps of a most-significant-bit-first CRC-64 register. -/
def crc64Bits : Nat → Nat → Nat
  | 0, c => c
  | n + 1, c =>
    crc64Bits n (if c.testBit 63 then ((c <<< 1) % 2 ^ 64) ^^^ 0x42F0E1EBA9EA3693 else (c <<< 1) % 2 ^ 64)

def crc64Aux : List Byte → Nat → Nat
  | [], c => c
  | b :: r, c => crc64Aux r (crc64Bits 8 (c ^^^ (b.toNat <<< 56)))

/-- The CRC-64 of R62: not reflected, initial value and final XOR all ones. -/
def crc64 (bs : List Byte) : BitVec 64 := BitVec.ofNat 64 (crc64Aux bs (2 ^ 64 - 1) ^^^ (2 ^ 64 - 1))

def crc32Bits : Nat → Nat → Nat
  | 0, c => c
  | n + 1, c => crc32Bits n (if c.testBit 0 then (c >>> 1) ^^^ 0x82F63B78 else c >>> 1)

def crc32Aux : List Byte → Nat → Nat
  | [], c => c
  | b :: r, c => crc32Aux r (crc32Bits 8 (c ^^^ b.toNat))

/-- The CRC-32C of R31: polynomial 0x1EDC6F41 reflected, initial value and final XOR all ones. -/
def crc32c (bs : List Byte) : Nat := crc32Aux bs 0xFFFFFFFF ^^^ 0xFFFFFFFF

/-! ### SHA-384 -/

/-- `r` plus the largest `x` below 2 ^ b with (r + x) ^ k at most `n`, bit by bit. -/
def rootBits (k n : Nat) : Nat → Nat → Nat
  | 0, r => r
  | b + 1, r => rootBits k n b (if (r + 2 ^ b) ^ k ≤ n then r + 2 ^ b else r)

/-- The first 64 bits of the fractional part of the k-th root of `p` (FIPS 180), for roots below 8. -/
def rootFrac (k p : Nat) : Nat := rootBits k (p * 2 ^ (64 * k)) 67 0 % 2 ^ 64

/-- The first 80 primes: no number below 23 ^ 2 is composite without a prime factor up to 19. -/
def primes80 : List Nat :=
  (List.range 410).filter (fun n => 2 ≤ n && [2, 3, 5, 7, 11, 13, 17, 19].all (fun q => n = q || n % q ≠ 0))

/-- The round constants: cube roots of the first 80 primes. -/
def shaK : List Nat := primes80.map (rootFrac 3)

/-- The initial hash value of SHA-384: square roots of the ninth to sixteenth primes. -/
def shaH : List Nat := ((primes80.drop 8).take 8).map (rootFrac 2)

def rotr64 (n x : Nat) : Nat := (x >>> n) ||| ((x <<< (64 - n)) % 2 ^ 64)

/-- The message schedule: the last 16 words, newest first, extended by `n` words onto the front. -/
def shaSched : Nat → List Nat → List Nat
  | 0, w => w
  | n + 1, w =>
    let a := w.getD 14 0
    let b := w.getD 1 0
    let s0 := rotr64 1 a ^^^ rotr64 8 a ^^^ (a >>> 7)
    let s1 := rotr64 19 b ^^^ rotr64 61 b ^^^ (b >>> 6)
    shaSched n (((w.getD 15 0 + s0 + w.getD 6 0 + s1) % 2 ^ 64) :: w)

/-- The 80 rounds over (round constant, word) pairs; the eight working variables a to h as a list. -/
def shaRounds : List (Nat × Nat) → List Nat → List Nat
  | (k, w) :: r, [a, b, c, d, e, f, g, h] =>
    let t1 := h + (rotr64 14 e ^^^ rotr64 18 e ^^^ rotr64 41 e) + ((e &&& f) ^^^ ((2 ^ 64 - 1 - e) &&& g)) + k + w
    let t2 := (rotr64 28 a ^^^ rotr64 34 a ^^^ rotr64 39 a) + ((a &&& b) ^^^ (a &&& c) ^^^ (b &&& c))
    shaRounds r [(t1 + t2) % 2 ^ 64, a, b, c, (d + t1) % 2 ^ 64, e, f, g]
  | _, v => v

def shaBlock (h : List Nat) (block : List Byte) : List Nat :=
  let w0 := (List.range 16).map (fun i => beNat ((block.drop (8 * i)).take 8))
  let w := (shaSched 64 w0.reverse).reverse
  List.zipWith (fun x y => (x + y) % 2 ^ 64) h (shaRounds (shaK.zip w) h)

def shaBlocks : Nat → List Nat → List Byte → List Nat
  | 0, h, _ => h
  | n + 1, h, bs => shaBlocks n (shaBlock h (bs.take 128)) (bs.drop 128)

/-- The SHA-384 digest of a byte string, as a 384-bit number whose first byte is the most significant. -/
def sha384 (bs : List Byte) : Nat :=
  let len := bs.length
  let zeros := (239 - len % 128) % 128
  let padded := bs ++ [0x80] ++ List.replicate zeros 0 ++ (leBytes 16 (8 * len)).reverse
  ((shaBlocks (padded.length / 128) shaH padded).take 6).foldl (fun acc x => acc * 2 ^ 64 + x) 0

/-- The first 32 bytes of a SHA-384 digest (SECHASH, BODYHASH). -/
def sha384First32 (bs : List Byte) : Nat := sha384 bs / 2 ^ 128

/-! ### ECDSA over P-384 -/

def p384P : Nat := 2 ^ 384 - 2 ^ 128 - 2 ^ 96 + 2 ^ 32 - 1
def p384N : Nat := 0xffffffffffffffffffffffffffffffffffffffffffffffffc7634d81f4372ddf581a0db248b0a77aecec196accc52973
def p384B : Nat := 0xb3312fa7e23ee7e4988e056be3f82d19181d9c6efe8141120314088f5013875ac656398d8a2ed19d2a85c8edd3ec2aef
def p384G : Nat × Nat × Nat :=
  (0xaa87ca22be8b05378eb1c71ef320ad746e1d3b628ba79b9859f741e082542a385502f25dbf55296c3a545e3872760ab7,
   0x3617de4a96262c6f5d9e98bf9292dc29f8f41dbd289a147ce9da3113b5f0b8c00a60b1ce1d7e819d7a431d7c90ea0e5f, 1)

/-- `b ^ e mod m` for exponents of at most `n` bits. -/
def powModAux (m : Nat) : Nat → Nat → Nat → Nat → Nat
  | 0, _, _, acc => acc
  | n + 1, b, e, acc => powModAux m n (b * b % m) (e / 2) (if e % 2 = 1 then acc * b % m else acc)

def powMod (b e m : Nat) : Nat := powModAux m 384 (b % m) e 1

/-- Doubling in Jacobian coordinates, a = −3; Z = 0 is the point at infinity. -/
def jDouble (q : Nat × Nat × Nat) : Nat × Nat × Nat :=
  let (x, y, z) := q
  if y = 0 || z = 0 then (1, 1, 0) else
  let p := p384P
  let d := z * z % p
  let g := y * y % p
  let b := x * g % p
  let al := 3 * (x + p - d) * (x + d) % p
  let x3 := (al * al + 8 * (p - b)) % p
  let z3 := 2 * y * z % p
  let y3 := (al * (4 * b + p - x3) + 8 * (p - g * g % p)) % p
  (x3, y3, z3)

def jAdd (q r : Nat × Nat × Nat) : Nat × Nat × Nat :=
  let (x1, y1, z1) := q
  let (x2, y2, z2) := r
  if z1 = 0 then r else if z2 = 0 then q else
  let p := p384P
  let z11 := z1 * z1 % p
  let z22 := z2 * z2 % p
  let u1 := x1 * z22 % p
  let u2 := x2 * z11 % p
  let s1 := y1 * z2 * z22 % p
  let s2 := y2 * z1 * z11 % p
  if u1 = u2 then (if s1 = s2 then jDouble q else (1, 1, 0)) else
  let h := (u2 + p - u1) % p
  let k := (s2 + p - s1) % p
  let h2 := h * h % p
  let h3 := h * h2 % p
  let v := u1 * h2 % p
  let x3 := (k * k + (p - h3) + 2 * (p - v)) % p
  let y3 := (k * (v + p - x3) + (p - s1 * h3 % p)) % p
  (x3, y3, h * z1 * z2 % p)

def jMulAux : Nat → Nat → Nat × Nat × Nat → Nat × Nat × Nat → Nat × Nat × Nat
  | 0, _, _, acc => acc
  | n + 1, k, q, acc => jMulAux n (k / 2) (jDouble q) (if k % 2 = 1 then jAdd acc q else acc)

def jMul (k : Nat) (q : Nat × Nat × Nat) : Nat × Nat × Nat := jMulAux 384 k q (1, 1, 0)

/-- ECDSA P-384 verification of digest `e` under the public key x ‖ y (R36, Table 13.1). -/
def ecdsaVerify (key : BitVec 768) (e r s : Nat) : Bool :=
  let x := key.toNat / 2 ^ 384
  let y := key.toNat % 2 ^ 384
  if x < p384P && y < p384P && (y * y) % p384P = (x * x * x + 3 * (p384P - x) + p384B) % p384P &&
      0 < r && r < p384N && 0 < s && s < p384N then
    let w := powMod s (p384N - 2) p384N
    let (px, _, pz) := jAdd (jMul (e * w % p384N) p384G) (jMul (r * w % p384N) (x, y, 1))
    pz ≠ 0 && (px * powMod (pz * pz % p384P) (p384P - 2) p384P % p384P) % p384N = r
  else false

/-! ### AES-256 -/

def aesSbox : Nat :=
  0x16bb54b00f2d99416842e6bf0d89a18cdf2855cee9871e9b948ed9691198f8e19e1dc186b95735610ef6034866b53e708a8bbd4b1f74dde8c6b4a61c2e2578ba08ae7a65eaf4566ca94ed58d6d37c8e779e4959162acd3c25c2406490a3a32e0db0b5ede14b8ee4688902a22dc4f816073195d643d7ea7c41744975fec130ccdd2f3ff1021dab6bcf5389d928f40a351a89f3c507f02f94585334d43fbaaefd0cf584c4a39becb6a5bb1fc20ed00d153842fe329b3d63b52a05a6e1b1a2c830975b227ebe28012079a059618c323c7041531d871f1e5a534ccf73f362693fdb7c072a49cafa2d4adf04759fa7dc982ca76abd7fe2b670130c56f6bf27b777c63

def aesInvSbox : Nat :=
  0x7d0c2155631469e126d677ba7e042b17619953833cbbebc8b0f52aae4d3be0a0ef9cc9939f7ae52d0d4ab519a97f51605fec8027591012b131c7078833a8dd1ff45acd78fec0db9a2079d2c64b3e56fc1bbe18aa0e62b76f89c5291d711af1476edf751ce837f9e28535ade72274ac9673e6b4f0cecff297eadc674f4111913a6b8a130103bdafc1020f3fca8f1e2cd00645b3b80558e4f70ad3bc8c00abd890849d8da75746155edab9edfd5048706c92b6655dcc5ca4d41698688664f6f87225d18b6d49a25b76b224d92866a12e084ec3fa420b954cee3d23c2a632947b54cbe9dec444438e3487ff2f9b8239e37cfbd7f3819ea340bf38a53630d56a0952

def sub8 (table b : Nat) : Nat := (table >>> (8 * b)) % 256

def xtime (b : Nat) : Nat := if 128 ≤ b then ((b * 2) % 256) ^^^ 0x1B else b * 2

/-- Product in the AES field for the small factors of the mix columns. -/
def gmul8 (k b : Nat) : Nat :=
  let x2 := xtime b
  let x4 := xtime x2
  let x8 := xtime x4
  (if k.testBit 0 then b else 0) ^^^ (if k.testBit 1 then x2 else 0) ^^^ (if k.testBit 2 then x4 else 0) ^^^
    (if k.testBit 3 then x8 else 0)

def xorL (a b : List Nat) : List Nat := List.zipWith (· ^^^ ·) a b

/-- Key expansion: round keys as 4 B words, newest first. -/
def aesExpand : Nat → Nat → Nat → List (List Nat) → List (List Nat)
  | 0, _, _, ws => ws
  | n + 1, i, rcon, ws =>
    let prev := ws.headD []
    let back := ws.getD 7 []
    let t :=
      if i % 8 = 0 then
        xorL ((prev.drop 1 ++ prev.take 1).map (sub8 aesSbox)) [rcon, 0, 0, 0]
      else if i % 8 = 4 then prev.map (sub8 aesSbox)
      else prev
    aesExpand n (i + 1) (if i % 8 = 0 then xtime rcon else rcon) (xorL back t :: ws)

def chunks4 : Nat → List Nat → List (List Nat)
  | 0, _ => []
  | n + 1, l => l.take 4 :: chunks4 n (l.drop 4)

/-- The 15 round keys of 16 B, in order. -/
def aesRoundKeys (key : List Nat) : List (List Nat) :=
  let ws := (aesExpand 52 8 1 (chunks4 8 key).reverse).reverse
  (List.range 15).map (fun i => ((ws.drop (4 * i)).take 4).flatten)

/-- Row shift of the column-major state, by `1` forwards or `3` backwards. -/
def shiftRows (k : Nat) (s : List Nat) : List Nat :=
  (List.range 16).map (fun i => s.getD (4 * ((i / 4 + k * (i % 4)) % 4) + i % 4) 0)

def mixColumn (m : List Nat) (c : List Nat) : List Nat :=
  (List.range 4).map (fun i =>
    (List.range 4).foldl (fun acc j => acc ^^^ gmul8 (m.getD ((j + 4 - i) % 4) 0) (c.getD j 0)) 0)

def mixColumns (m : List Nat) (s : List Nat) : List Nat := ((chunks4 4 s).map (mixColumn m)).flatten

def aesEncRounds : List (List Nat) → List Nat → List Nat
  | [], s => s
  | [k], s => xorL k (shiftRows 1 (s.map (sub8 aesSbox)))
  | k :: r, s => aesEncRounds r (xorL k (mixColumns [2, 3, 1, 1] (shiftRows 1 (s.map (sub8 aesSbox)))))

def aesDecRounds : List (List Nat) → List Nat → List Nat
  | [], s => s
  | [k], s => xorL k ((shiftRows 3 s).map (sub8 aesInvSbox))
  | k :: r, s => aesDecRounds r (mixColumns [14, 11, 13, 9] (xorL k ((shiftRows 3 s).map (sub8 aesInvSbox))))

def natBytesBe (n v : Nat) : List Nat := (List.range n).map (fun i => (v >>> (8 * (n - 1 - i))) % 256)

def bytesNatBe (l : List Nat) : Nat := l.foldl (fun acc b => acc * 256 + b) 0

/-- AES-256 of one block; key and block with their first byte most significant. -/
def aes256 (key : BitVec 256) (block : BitVec 128) : BitVec 128 :=
  match aesRoundKeys (natBytesBe 32 key.toNat) with
  | [] => block
  | k0 :: ks => BitVec.ofNat 128 (bytesNatBe (aesEncRounds ks (xorL k0 (natBytesBe 16 block.toNat))))

/-- The inverse cipher, used to unwrap keys (R228). -/
def aes256Inv (key : BitVec 256) (block : BitVec 128) : BitVec 128 :=
  match (aesRoundKeys (natBytesBe 32 key.toNat)).reverse with
  | [] => block
  | k0 :: ks => BitVec.ofNat 128 (bytesNatBe (aesDecRounds ks (xorL k0 (natBytesBe 16 block.toNat))))

end Sys2Proof.Machine
end

