-- ==== Sys2Proof/Machine/Regs.lean ====
section
/-! DEFINITION. The register space (R10, R11): word addresses, which bits of each register software may write, which
belong to a commit group (Table 2.6), which live in Caldera, and the registers' reset values. -/

namespace Sys2Proof.Machine

/-- The word address of a register (R10). -/
def ra (fn inst idx : Nat) : Nat := (fn <<< 17) ||| (inst <<< 10) ||| idx

def fnOf (a : Nat) : Nat := a >>> 17
def instOf (a : Nat) : Nat := (a >>> 10) % 128
def idxOf (a : Nat) : Nat := a % 1024

namespace A
def part : Nat := ra 0x00 0 0
def caps : Nat := ra 0x00 0 3
def fullReset : Nat := ra 0x00 0 0x10
def accStatus : Nat := ra 0x01 0 0
def buildLo : Nat := ra 0x01 0 1
def buildHi : Nat := ra 0x01 0 2
def secver : Nat := ra 0x01 0 3
def bootSlot : Nat := ra 0x01 0 4
def budgetSum : Nat := ra 0x01 0 8
def pushCtl : Nat := ra 0x01 0 0x10
def cgCommit : Nat := ra 0x01 0 0x20
def cgState (g : Nat) : Nat := ra 0x01 0 (0x40 + g)
def linkStatus : Nat := ra 0x02 0 0
def linkRtt : Nat := ra 0x02 0 1
def headroom : Nat := ra 0x02 0 2
def qfree : Nat := ra 0x02 0 3
def errcnt : Nat := ra 0x02 0 5
def lanesRx : Nat := ra 0x02 0 6
def lanesTx : Nat := ra 0x02 0 7
def linkCtl : Nat := ra 0x02 0 8
def laneTest : Nat := ra 0x02 0 9
def attn : Nat := ra 0x03 0 0
def outstanding : Nat := ra 0x03 0 1
def spec : Nat := ra 0x03 0 2
def txnCtl : Nat := ra 0x03 0 3
def resync : Nat := ra 0x03 0 4
def wmark (p : Nat) : Nat := ra 0x04 p 0
def schedStatus (p : Nat) : Nat := ra 0x04 p 2
def overR (p : Nat) : Nat := ra 0x04 p 3
def noteR (n : Nat) : Nat := ra 0x04 0 (0x40 + n)
def noteTgt (n : Nat) : Nat := ra 0x04 0 (0x50 + n)
def noteMon (n : Nat) : Nat := ra 0x04 0 (0x60 + n)
def qosStat : Nat := ra 0x04 0 0x70
def misscnt (n : Nat) : Nat := ra 0x04 0 (0x80 + n)
def owed (p : Nat) : Nat := ra 0x05 p 0
def refCount (p : Nat) : Nat := ra 0x05 p 1
def dist (p : Nat) : Nat := ra 0x05 p 2
def distLast (p : Nat) : Nat := ra 0x05 p 3
def sr (p : Nat) : Nat := ra 0x05 p 4
def ret : Nat := ra 0x05 0 0x10
def retStat : Nat := ra 0x05 0 0x11
def lost (p k : Nat) : Nat := ra 0x05 p (0x40 + k)
def testCmd (s : Nat) : Nat := ra 0x06 s 0
def testPat (s : Nat) : Nat := ra 0x06 s 1
def testStat (s : Nat) : Nat := ra 0x06 s 2
def testErr (s : Nat) : Nat := ra 0x06 s 3
def testErrHi (s : Nat) : Nat := ra 0x06 s 4
def crc (s : Nat) : Nat := ra 0x06 s 8
def capture (s i : Nat) : Nat := ra 0x06 s (0x20 + i)
def sliceT (t k : Nat) : Nat := ra 0x07 t k
def sliceB (t k : Nat) : Nat := ra 0x07 t (0x10 + k)
def dlyTile (t : Nat) : Nat := ra 0x07 t 0x20
def dlyState (t : Nat) : Nat := ra 0x07 t 0x21
def calCmd (p : Nat) : Nat := ra 0x08 p 0
def calStatus (p : Nat) : Nat := ra 0x08 p 1
def calTrim (p j : Nat) : Nat := ra 0x08 p (2 + j)
def calOffset (p : Nat) : Nat := ra 0x08 p 4
def calRef (p : Nat) : Nat := ra 0x08 p 5
def steer (s : Nat) : Nat := ra 0x09 s 0x10
def rbPtr (s : Nat) : Nat := ra 0x09 s 0x11
def declare (s : Nat) : Nat := ra 0x09 s 0x12
def corr (s : Nat) : Nat := ra 0x09 s 0x18
def symcnt (s k : Nat) : Nat := ra 0x09 s (0x20 + k)
def scrub (s : Nat) : Nat := ra 0x09 s 0x30
def inject (s : Nat) : Nat := ra 0x09 s 0x31
def selftest (s : Nat) : Nat := ra 0x09 s 0x32
def remapCmd (s : Nat) : Nat := ra 0x09 s 0x38
def ppr (s : Nat) : Nat := ra 0x09 s 0x39
def remap (s j : Nat) : Nat := ra 0x09 s (0x40 + j)
def journal : Nat := ra 0x09 0 0xC0
def cryptCount (s : Nat) : Nat := ra 0x0A s 0
def keyCmd : Nat := ra 0x0A 8 0
def keyState : Nat := ra 0x0A 8 9
def rotCmd : Nat := ra 0x0A 8 0x10
def epoch (r : Nat) : Nat := ra 0x0A 8 (0x40 + r)
def rot (r : Nat) : Nat := ra 0x0A 8 (0x80 + r)
def nextEpoch (r : Nat) : Nat := ra 0x0A 8 (0xC0 + r)
def tierCount (s : Nat) : Nat := ra 0x0B s 0
def tierStatus (s : Nat) : Nat := ra 0x0B s 1
def pool : Nat := ra 0x0B 8 0
def frag : Nat := ra 0x0B 8 1
def warn : Nat := ra 0x0B 8 2
def low : Nat := ra 0x0B 8 3
def high : Nat := ra 0x0B 8 4
def migr : Nat := ra 0x0B 8 5
def pmcCnt : Nat := ra 0x0B 8 8
def space : Nat := ra 0x0B 8 9
def moveCmd (m : Nat) : Nat := ra 0x0B 8 (0x10 + m)
def engState (n : Nat) : Nat := ra 0x0C n 0
def engCtl (n : Nat) : Nat := ra 0x0C n 1
def mbox (n : Nat) : Nat := ra 0x0C n 2
def reply (n : Nat) : Nat := ra 0x0C n 3
def krun (n : Nat) : Nat := ra 0x0C n 4
def engCount (n : Nat) : Nat := ra 0x0C n 5
def cluster (c : Nat) : Nat := ra 0x0C (72 + c) 0
def kqueue : Nat := ra 0x0C 72 0x10
def takeover : Nat := ra 0x0C 72 0x11
def faultStatus : Nat := ra 0x0D 0 0
def first : Nat := ra 0x0D 0 1
def pendR (k : Nat) : Nat := ra 0x0D 0 (4 + k)
def faultCfg : Nat := ra 0x0D 0 0x10
def srcCfg (s : Nat) : Nat := ra 0x0D 0 (0x100 + s)
def cmp : Nat := ra 0x0D 1 0
def pwrCtl : Nat := ra 0x0E 0 0
def pwrStatus : Nat := ra 0x0E 0 1
def refusals : Nat := ra 0x0E 0 2
def wake : Nat := ra 0x0E 0 3
def retCnt : Nat := ra 0x0E 0 4
def reset : Nat := ra 0x0E 0 8
def therm : Nat := ra 0x0E 0 0x20
def temp (k : Nat) : Nat := ra 0x0E 0 (0x21 + k)
def sillCtl : Nat := ra 0x0F 0 1
def sillData (k : Nat) : Nat := ra 0x0F 0 (2 + k)
def sillLost : Nat := ra 0x0F 0 9
def lc : Nat := ra 0x10 0 0
def nonce : Nat := ra 0x10 0 1
def tokenData (j : Nat) : Nat := ra 0x10 0 (0x10 + j)
def tokenCmd : Nat := ra 0x10 0 0x40
def policy : Nat := ra 0x10 0 0x42
def flashAddr : Nat := ra 0x10 0 0x50
def flashCmd : Nat := ra 0x10 0 0x51
def flashData (j : Nat) : Nat := ra 0x10 0 (0x52 + j)
end A

/-- What software may do to a register: bits of type RW, W1C and CG, the bits it never reads (WO fields that hold a
value), and its commit group and instance (Table 2.6) when it has CG bits. -/
structure RegSpec where
  rw : Word
  w1c : Word
  cg : Word
  hide : Word
  grp : Nat
  inst : Nat
deriving DecidableEq, Repr

def RegSpec.ro : RegSpec := { rw := 0, w1c := 0, cg := 0, hide := 0, grp := 0, inst := 0 }
def RegSpec.write (m : Word) : RegSpec := { RegSpec.ro with rw := m }
def RegSpec.clear (m : Word) : RegSpec := { RegSpec.ro with w1c := m }
def RegSpec.group (m : Word) (g i : Nat) : RegSpec := { RegSpec.ro with cg := m, grp := g, inst := i }

/-- Is `x` in `[lo, hi]`? -/
def within (lo hi x : Nat) : Bool := lo ≤ x && x ≤ hi

/-- The register at function `fn`, instance `i`, index `x`: Tables 1.9 to 14.6, row by row; `none` where no register
is (R11). -/
def specAt (fn i x : Nat) : Option RegSpec :=
  match fn with
  | 0x00 => if i = 0 && (x ≤ 3 || x = 0x10) then some .ro else none
  | 0x01 =>
    if i ≠ 0 then none
    else if x = 4 then some (.write (ones 0 0))
    else if x ≤ 3 || x = 8 || x = 0x10 || within 0x11 0x18 x || x = 0x20 then some .ro
    else if within 0x41 0x48 x then some (.clear (ones 40 40))
    else none
  | 0x02 =>
    if i ≠ 0 then none
    else if x = 2 then some (.group (ones 15 0) 5 0)
    else if x = 8 then some (.write (ones 2 1))
    else if x = 9 then some (.write (ones 47 47 ||| ones 4 0))
    else if x ≤ 3 || within 5 7 x then some .ro else none
  | 0x03 =>
    if i ≠ 0 then none
    else if x = 3 then some (.write (ones 0 0))
    else if x ≤ 4 then some .ro else none
  | 0x04 =>
    if i > 3 then none
    else if x = 0 then some (.group (ones 24 16 ||| ones 8 0) 2 i)
    else if within 2 3 x then some .ro
    else if i ≠ 0 then none
    else if within 0x40 0x4F x then some (.group (ones 35 0) 1 0)
    else if within 0x50 0x5F x then some (.group (ones 31 0) 1 0)
    else if within 0x60 0x6F x then some (.group (ones 31 0) 8 0)
    else if x = 0x70 then some (.clear (ones 15 0))
    else if within 0x80 0x8F x then some .ro else none
  | 0x05 =>
    if i > 3 then none
    else if x ≤ 4 then some .ro
    else if within 0x40 0x5F x then some (.clear (ones 31 0))
    else if i ≠ 0 then none
    else if x = 0x10 then some (.write (ones 15 0))
    else if x = 0x11 then some (.clear (ones 31 16)) else none
  | 0x06 =>
    if i > 7 then none
    else if x = 0 then some (.write (ones 47 5 ||| ones 3 0))
    else if x = 1 then some (.write (ones 47 16 ||| ones 3 0))
    else if within 2 4 x || x = 8 || within 0x20 0x3F x then some .ro else none
  | 0x07 =>
    if i > 15 then none
    else if x ≤ 12 then some (.group (ones 35 0) 3 i)
    else if within 0x10 0x1C x then some (.group (ones 30 0) 3 i)
    else if x = 0x20 then some (.group (ones 29 0) 3 i)
    else if x = 0x21 then some (.write (ones 0 0)) else none
  | 0x08 =>
    if i > 3 then none
    else if x = 1 then some (.clear (ones 17 17))
    else if x = 4 then some (.group (ones 23 0) 4 i)
    else if x ≤ 5 then some .ro else none
  | 0x09 =>
    if i > 7 then none
    else if x = 0x31 then some (.write (ones 47 24))
    else if x = 0x32 then some (.clear (ones 15 11))
    else if x = 0x38 then some (.write (ones 45 7))
    else if x = 0x39 then some (.write (ones 45 19))
    else if within 0x10 0x12 x || x = 0x18 || within 0x20 0x2C x || x = 0x30 || within 0x40 0xBF x then some .ro
    else if i = 0 && x = 0xC0 then some .ro else none
  | 0x0A =>
    if i < 8 then (if x = 0 then some .ro else none)
    else if i ≠ 8 then none
    else if x = 0 then some (.write (ones 40 36))
    else if within 1 9 x then some .ro
    else if x = 0x10 then some (.write (ones 45 40 ||| ones 31 0))
    else if within 0x40 0xFF x then some .ro else none
  | 0x0B =>
    if i < 8 then (if x ≤ 1 then some .ro else none)
    else if i ≠ 8 then none
    else if within 2 5 x then some (.group (ones 31 0) 7 0)
    else if within 0x10 0x13 x then some (.write (ones 31 0))
    else if x ≤ 1 || within 8 9 x then some .ro else none
  | 0x0C =>
    if i < 72 then (if x = 2 then some (.write (ones 47 0)) else if x ≤ 5 then some .ro else none)
    else if i < 80 then
      (if x = 0 then some .ro else if i = 72 && within 0x10 0x11 x then some .ro else none)
    else none
  | 0x0D =>
    match i with
    | 0 =>
      if x = 0x10 then some (.group (ones 13 8 ||| ones 2 0) 6 0)
      else if within 0x100 0x1BF x then some (.group (ones 47 24 ||| ones 6 0) 6 0)
      else if x ≤ 1 || within 4 15 x then some .ro else none
    | 1 => if x = 0 || within 4 11 x then some .ro else none
    | 2 => if x < 768 then some .ro else none
    | _ => none
  | 0x0E =>
    if i ≠ 0 then none
    else if x = 3 then some (.write (ones 47 16))
    else if x ≤ 4 || x = 8 || within 0x10 0x14 x || within 0x20 0x22 x then some .ro else none
  | 0x0F =>
    if i ≠ 0 then none
    else if x = 1 then some (.write (ones 11 0))
    else if x ≤ 4 || within 8 9 x then some .ro else none
  | 0x10 =>
    if i ≠ 0 then none
    else if within 0x10 0x3A x then some { RegSpec.write (ones 47 0) with hide := ones 47 0 }
    else if x = 0x50 then some (.write (ones 31 0))
    else if x = 0x51 then some (.write (ones 15 10))
    else if within 0x52 0x59 x then some (.write (ones 47 0))
    else if x ≤ 1 || within 0x40 0x42 x then some .ro else none
  | _ => none

/-- The register at word address `a` (R10, R11). -/
def regSpec (a : Nat) : Option RegSpec := specAt (fnOf a) (instOf a) (idxOf a)

/-- The Reset column: zero but for TXN.CTL.SPEC_EN, the default fault configuration (R303) and SIDE.POLICY. -/
def regReset (a : Nat) : Word :=
  if a = A.txnCtl then 1
  else if a = A.faultCfg then 3
  else if within (A.srcCfg 0) (A.srcCfg 191) a then 0x43
  else if a = A.policy then 3
  else 0

/-- The bits of a register that Caldera keeps through a full reset (R51, R87, R170, R186, R194, R211, R230, R297, R326,
Table 12.18, R335, R340, R369). -/
def calderaMask (a : Nat) : Word :=
  match fnOf a with
  | 0x01 => if idxOf a ≤ 4 || idxOf a = 8 then ones 47 0 else 0
  | 0x05 => if within 0x40 0x5F (idxOf a) || idxOf a = 0x11 then ones 47 0 else 0
  | 0x07 => if idxOf a = 0x21 then 0 else ones 47 0
  | 0x08 => if idxOf a = 1 then ones 31 24 ||| ones 16 16 else if within 2 3 (idxOf a) then ones 47 0 else 0
  | 0x09 => if within 0x40 0xC0 (idxOf a) then ones 47 0 else 0
  | 0x0A => if instOf a = 8 && within 0x40 0xFF (idxOf a) then ones 47 0 else 0
  | 0x0E => if idxOf a = 4 || idxOf a = 8 then ones 47 0 else 0
  | 0x0F => ones 47 0
  | 0x10 => if idxOf a ≤ 1 || idxOf a = 0x42 then ones 47 0 else 0
  | _ => 0

/-- Functions whose registers the P3 save list covers (R325: 0x02 to 0x0E and 0x10). -/
def inSaveList (a : Nat) : Bool := within 0x02 0x0E (fnOf a) || fnOf a = 0x10

/-- Functions that I3C may read (Table 1.8, R25). -/
def i3cReadable (a : Nat) : Bool := fnOf a = 0x00 || within 0x0D 0x0F (fnOf a)

end Sys2Proof.Machine
end

