-- ==== Sys2Proof/Machine/Ops.lean ====
section
/-! DEFINITION. The named operations every family uses: registers and their fields, configuration stores, Sillage, the
attention code, free values. -/

namespace Sys2Proof.Machine

/-- The stored value of the register at `a` (one home for each register). -/
def Dev.reg (d : Dev) (a : Nat) : Word := sget (regReset a) d.rf a

def Dev.setReg (d : Dev) (a : Nat) (v : Word) : Dev := { d with rf := sset (regReset a) d.rf a v }

/-- Field `[lo+len-1:lo]` of a stored register. -/
def Dev.fldR (d : Dev) (a lo len : Nat) : Nat := fld (d.reg a) lo len

def Dev.setFld (d : Dev) (a lo len v : Nat) : Dev := d.setReg a (put (d.reg a) lo len v)

/-- A saturating counter in a field rises by `n` (the word "saturating" of the register tables). -/
def Dev.bumpBy (d : Dev) (a lo len n : Nat) : Dev := d.setFld a lo len (satAdd len (d.fldR a lo len) n)

def Dev.bump (d : Dev) (a lo len : Nat) : Dev := d.bumpBy a lo len 1

/-- The bits software writes by a plain RW or W1C write (Types of 00_scope.md). -/
def writeWord (sp : RegSpec) (old v : Word) : Word :=
  ((old &&& ~~~ sp.rw) ||| (v &&& sp.rw)) &&& ~~~ (v &&& sp.w1c)

/-- Configuration store key of a section byte (Table 2.2). -/
def cfgKey (ty off : Nat) : Nat := (ty <<< 24) + off

def cfgByteOf (c : Memory) (ty off : Nat) : Nat := (sget (0 : Byte) c (cfgKey ty off)).toNat

/-- Little-endian field of `n` bytes at offset `off` of a section (R28). -/
def cfgOf (c : Memory) (ty off : Nat) : Nat → Nat
  | 0 => 0
  | n + 1 => cfgByteOf c ty off + 256 * cfgOf c ty (off + 1) n

def Dev.cfgLe (d : Dev) (ty off n : Nat) : Nat := cfgOf d.cfg ty off n

/-- A fresh index for a free value. -/
def Dev.tickFree (d : Dev) : Dev := { d with freeCtr := d.freeCtr + 1 }

/-- Life-cycle field counts as set when at least 5 of its 8 bits are blown (R332). -/
def lcSet (x : BitVec 8) : Bool := 5 ≤ ((List.range 8).filter (fun i => x.getLsbD i)).length

/-- Life-cycle states, coded as SIDE.LC.STATE (Table 13.8). -/
def Fuses.state (f : Fuses) : Nat :=
  if f.unreadable then 4
  else if lcSet f.lcVoid then 4
  else if lcSet f.lcReturned then 3
  else if lcSet f.lcField then 2
  else if lcSet f.lcVendor then 1
  else 0

/-- A key is provisioned when its bytes are not all zero and not all ones (R332). -/
def Fuses.provisioned (f : Fuses) (k : Fin 8) : Bool := f.keys[k] ≠ 0 && f.keys[k] ≠ ~~~ 0

def Fuses.usable (f : Fuses) (k : Fin 8) : Bool := f.provisioned k && !f.revoked.getLsbD k.val

/-- The KWK is programmed and not zeroised (Table 13.12, R342). -/
def Fuses.kwkOk (f : Fuses) : Bool := f.kwk ≠ 0 && f.kwk ≠ ~~~ 0

def Fuses.zdoneSet (f : Fuses) : Bool := lcSet f.zdone

/-- The last non-zero entry of the floor array, or zero (R332). -/
def Fuses.floor (f : Fuses) : BitVec 16 := f.floors.toList.foldl (fun acc x => if x = 0 then acc else x) 0

/-- Floor entries programmed (Table 13.12). -/
def Fuses.floorUsed (f : Fuses) : Nat := (f.floors.toList.filter (fun x => x ≠ 0)).length

/-- RETURNED with ZDONE unset (R342). -/
def Fuses.zeroising (f : Fuses) : Bool := f.state = 3 && !f.zdoneSet

/-- A Sillage record (R296). -/
def sillRec (time : Word) (ty : Nat) (coord : BitVec 16) (srcid : Nat) (data : Word) : BitVec 128 :=
  time ++ BitVec.ofNat 8 ty ++ coord ++ BitVec.ofNat 8 srcid ++ data

/-- Queue a record for the ring (R297): 32 wait, further ones are lost and counted. -/
def Dev.sillPush (d : Dev) (ty : Nat) (coord : BitVec 16) (srcid : Nat) (data : Word) : Dev :=
  if d.sill.queue.length < 32 then
    { d with sill := { d.sill with queue := d.sill.queue ++ [sillRec d.sill.time ty coord srcid data] } }
  else
    { d with sill := { d.sill with lostNow := d.sill.lostNow + 1 } }.bump A.sillLost 0 16

/-- Cause 11 is raised in every cycle while in FATAL or in the no-Accord state (R124). -/
def Dev.attnPending (d : Dev) : Nat :=
  let b := d.fldR A.attn 0 12
  if d.flt.fatal || d.noAccord then b ||| 2 ^ 11 else b

def topBit : Nat → Nat → Nat
  | 0, _ => 0
  | n + 1, x => if x.testBit (n + 1) then n + 1 else topBit n x

/-- The ATTN value: the highest cause pending (R122). -/
def attnCode (pending : Nat) : Nat := topBit 11 pending

def Dev.attnValue (d : Dev) : Nat := attnCode d.attnPending

/-- Write the ATTN pending bits; a Sillage ATTN record follows each change of the ATTN value (Table 11.4). -/
def Dev.setAttn (d : Dev) (bits : Nat) : Dev :=
  let d' := d.setFld A.attn 0 12 bits
  if d'.attnValue = d.attnValue then d'
  else d'.sillPush 3 0 0 (pack [(4, d'.attnPending), (0, d'.attnValue)])

/-- Raise ATTN cause `c` (R122). -/
def Dev.raiseAttn (d : Dev) (c : Nat) : Dev := d.setAttn (d.fldR A.attn 0 12 ||| 2 ^ c)

/-- Throttle level 2 (R362): kernel dispatch, patrol scrub steps and moves pause. It acts only in P0. -/
def Dev.throttled (d : Dev) : Bool := d.fldR A.therm 18 2 = 2 && d.fldR A.pwrStatus 0 4 = 0

/-- Update one port, tile, … of the device. -/
def Dev.modPort (d : Dev) (p : Fin 4) (f : Port → Port) : Dev := { d with ports := d.ports.set p (f d.ports[p]) }
def Dev.modTile (d : Dev) (t : Fin 16) (f : Tile → Tile) : Dev := { d with tiles := d.tiles.set t (f d.tiles[t]) }
def Dev.modPhy (d : Dev) (s : Fin 8) (f : Phy → Phy) : Dev := { d with phys := d.phys.set s (f d.phys[s]) }
def Dev.modCal (d : Dev) (p : Fin 4) (f : Cal → Cal) : Dev := { d with cals := d.cals.set p (f d.cals[p]) }
def Dev.modProt (d : Dev) (s : Fin 8) (f : Prot → Prot) : Dev := { d with prots := d.prots.set s (f d.prots[s]) }
def Dev.modEng (d : Dev) (e : Fin 72) (f : Engine → Engine) : Dev := { d with engs := d.engs.set e (f d.engs[e]) }
def Dev.modLink (d : Dev) (f : Link → Link) : Dev := { d with link := f d.link }
def Dev.modTxn (d : Dev) (f : Txn → Txn) : Dev := { d with txn := f d.txn }
def Dev.modTier (d : Dev) (f : Tier → Tier) : Dev := { d with tier := f d.tier }
def Dev.modSide (d : Dev) (f : Side → Side) : Dev := { d with side := f d.side }
def Dev.modCg (d : Dev) (g : Fin 9) (f : CgGroup → CgGroup) : Dev := { d with cg := d.cg.set g (f d.cg[g]) }

/-! ### Commit groups (R52 to R54) -/

/-- The register at `a` belongs to instance `i` of group `g`. -/
def inGroup (g i a : Nat) : Bool :=
  match regSpec a with
  | some sp => sp.cg ≠ 0 && sp.grp = g && sp.inst = i
  | none => false

def CgGroup.isOpen (x : CgGroup) (i : Nat) : Bool := x.opened.getLsbD i
def CgGroup.isPend (x : CgGroup) (i : Nat) : Bool := x.pend.getLsbD i

/-- Commits of the instance that wait for its boundary: the pending one, and those made while it was following. -/
def CgGroup.waits (x : CgGroup) (i : Nat) : Nat := b2n (x.isPend i) + x.emptyCommit.count i

/-- The group with number `g`. -/
def grpNo (g : Nat) : Fin 9 := Fin.ofNat 9 g

/-- The shadow of an instance is discarded. -/
def Dev.cgDrop (d : Dev) (g i : Nat) : Dev := { d with shadow := d.shadow.filter (fun e => !inGroup g i e.1) }

/-- Apply `f` to the device for each element in order. -/
def Dev.each {α : Type} (f : α → Dev → Dev) : List α → Dev → Dev
  | [], d => d
  | x :: r, d => Dev.each f r (f x d)

/-- At its boundary a pending instance's whole shadow becomes live (R53); a commit of a following instance lands nothing and
counts (R54). -/
def Dev.cgLandSet (d : Dev) (g i : Nat) : Dev :=
  let x := d.cg[grpNo g]
  let d1 := if x.isPend i then
      (Dev.each (fun (e : Nat × Word) y => y.setReg e.1 e.2) (d.shadow.filter (fun e => inGroup g i e.1)) d).cgDrop g i
    else d
  let d2 := d1.modCg (grpNo g) (fun y =>
    { y with pend := putBit y.pend i false, emptyCommit := y.emptyCommit.filter (· ≠ i), hold := putBit y.hold i false })
  let a := A.cgState g
  d2.setFld a 32 8 (d2.fldR a 32 8 + x.waits i)

def allPorts : List (Fin 4) := List.finRange 4
def allTiles : List (Fin 16) := List.finRange 16
def allSubs : List (Fin 8) := List.finRange 8
def allEngs : List (Fin 72) := List.finRange 72
def allNotes : List (Fin 16) := List.finRange 16

/-- The block works: powered, and no thermal trip has shut it down (R363). -/
def Dev.live (d : Dev) : Bool := d.on && d.pins.thermtripN

/-- The outcome of a command that leads to `t`: nothing happens to a block without power or after a thermal trip. -/
def stNext (s t : State) : Host.Outcome State Fault Refusal := .next (if s.dev.live then t else s)

/-- The outcome of a command that acts on the device alone: everything but the device stands. -/
def devNext (s : State) (d : Dev) : Host.Outcome State Fault Refusal := stNext s { s with dev := d }

end Sys2Proof.Machine
end

