-- ==== Sys2Proof/Machine/Operands.lean ====
section
/-! DEFINITION. The operands of the commands: the address map (R125 to R127), locations (R200), regions (R224, R225),
coordinates (R20), masters (R157), and how messages lie in slots (R98 to R101). -/

namespace Sys2Proof.Machine

/-! ### Section types (Table 2.2) -/

namespace Sec
def ident : Nat := 0x01
def clock : Nat := 0x02
def link : Nat := 0x03
def population : Nat := 0x04
def addrmap : Nat := 0x05
def regions : Nat := 0x06
def notes : Nat := 0x07
def sched : Nat := 0x08
def refresh : Nat := 0x09
def protect : Nat := 0x0A
def tiers : Nat := 0x0B
def engines : Nat := 0x0C
def faults : Nat := 0x0D
def power : Nat := 0x0E
def cal : Nat := 0x0F
def delays : Nat := 0x10
def windows : Nat := 0x11
def testPolicy : Nat := 0x12
end Sec

/-! ### The address map -/

/-- Even parity of the low `n` bits. -/
def parity : Nat → Nat → Bool
  | 0, _ => false
  | n + 1, x => xor (x.testBit n) (parity n x)

/-- One output bit: parity of ADDR AND the mask at `off` (R126). -/
def maskBit (c : Memory) (off addr : Nat) : Bool := parity 48 (addr &&& cfgOf c Sec.addrmap off 6)

/-- One bit-select entry (R127); a reserved entry is unpredictable (R45): a free bit of the address. -/
def selectBit (c : Memory) (off addr : Nat) : Bool :=
  let e := cfgByteOf c Sec.addrmap off
  if e = 0 then false else if within 6 47 e then addr.testBit e else Config.freeBool (e * 2 ^ 48 + addr)

/-- `n` bit-select entries from `off`, the first one the lowest bit. -/
def selectField (c : Memory) (off addr : Nat) : Nat → Nat
  | 0 => 0
  | n + 1 => b2n (selectBit c off addr) + 2 * selectField c (off + 1) addr n

/-- A location from its fields (Table 8.2). -/
def mkLoc (port sub rank cid row bg bank col : Nat) : Loc :=
  BitVec.ofNat 37 ((port % 4) <<< 35 ||| (sub % 2) <<< 34 ||| (rank % 2) <<< 33 ||| (cid % 8) <<< 30 |||
    (row % 2 ^ 18) <<< 12 ||| (bg % 8) <<< 9 ||| (bank % 4) <<< 7 ||| (col % 128))

/-- The byte address of a line. -/
def addrOf (l : LineAddr) : Nat := l.toNat <<< 6

/-- The address map (R125 to R127): the location of a media line. -/
def addrMap (c : Memory) (l : LineAddr) : Loc :=
  let a := addrOf l
  mkLoc (b2n (maskBit c 0x00 a) + 2 * b2n (maskBit c 0x08 a)) (b2n (maskBit c 0x10 a)) (b2n (maskBit c 0x18 a))
    (selectField c 0x68 a 3) (selectField c 0x48 a 18)
    (b2n (maskBit c 0x20 a) + 2 * b2n (maskBit c 0x28 a) + 4 * b2n (maskBit c 0x30 a))
    (b2n (maskBit c 0x38 a) + 2 * b2n (maskBit c 0x40 a)) (selectField c 0x60 a 7)

def locPort (l : Loc) : Fin 4 := Fin.ofNat 4 (fld l 35 2)
def locSub (l : Loc) : Fin 8 := Fin.ofNat 8 (fld l 34 3)
def locTile (l : Loc) : Fin 16 := Fin.ofNat 16 (fld l 33 4)
def locRank (l : Loc) : Nat := fld l 33 1
def locCid (l : Loc) : Nat := fld l 30 3
def locRow (l : Loc) : Nat := fld l 12 18
def locBg (l : Loc) : Nat := fld l 9 3
def locBank (l : Loc) : Nat := fld l 7 2
def locCol (l : Loc) : Nat := fld l 0 7

/-- LOC[33:0], the sweep order of a subchannel. -/
def locSweep (l : Loc) : Nat := fld l 0 34

/-- The location at sweep position `p` of subchannel `s`. -/
def sweepLoc (s : Fin 8) (p : Nat) : Loc := BitVec.ofNat 37 (s.val <<< 34 ||| p % 2 ^ 34)

/-- Key of a bank within its tile: layer, bank group, bank. -/
def bankKey (cid bg bank : Nat) : Nat := cid * 32 + bg * 4 + bank

def locBankKey (l : Loc) : Nat := bankKey (locCid l) (locBg l) (locBank l)

/-- Key of a bank within its port. -/
def portBankKey (l : Loc) : Nat := (locTile l).val % 4 * 256 + locBankKey l

def bankIdKey (b : BankId) : Nat := bankKey b.cid.toNat b.bg.toNat b.bank.toNat

def bankIdPortKey (b : BankId) : Nat := b.tile.val % 4 * 256 + bankIdKey b

def tilePort (t : Fin 16) : Fin 4 := Fin.ofNat 4 (t.val / 4)
def tileSub (t : Fin 16) : Fin 8 := Fin.ofNat 8 (t.val / 2)
def subPort (s : Fin 8) : Fin 4 := Fin.ofNat 4 (s.val / 2)
/-- The tiles of a port, of a subchannel; the subchannels of a port (Table 1.3). -/
def portTiles (p : Fin 4) : List (Fin 16) := (List.range 4).map (fun k => Fin.ofNat 16 (4 * p.val + k))
def subTiles (s : Fin 8) : List (Fin 16) := [Fin.ofNat 16 (2 * s.val), Fin.ofNat 16 (2 * s.val + 1)]
def portSubs (p : Fin 4) : List (Fin 8) := [Fin.ofNat 8 (2 * p.val), Fin.ofNat 8 (2 * p.val + 1)]

/-! ### Coordinates (Table 1.5) and masters (R157) -/

def coordMem (s : Fin 8) (rank pos layer : Nat) : BitVec 16 :=
  BitVec.ofNat 16 (1 <<< 13 ||| s.val <<< 10 ||| rank <<< 9 ||| pos <<< 5 ||| layer <<< 1)

def coordLane (d : Dir) (lane : Nat) : BitVec 16 :=
  BitVec.ofNat 16 (2 <<< 13 ||| (match d with | .rx => 0 | .tx => 1) <<< 12 ||| lane <<< 7)

def coordEng (e : Nat) : BitVec 16 := BitVec.ofNat 16 (3 <<< 13 ||| e <<< 6)

def coordCtl (fn inst : Nat) : BitVec 16 := BitVec.ofNat 16 (4 <<< 13 ||| fn <<< 8 ||| inst <<< 1)

/-- COORD of a location, all positions of its tile. -/
def coordLoc (l : Loc) : BitVec 16 := coordMem (locSub l) (locRank l) 15 (locCid l + 1)

/-- COORD of a tile, all positions, no layer. -/
def coordTile (t : Fin 16) : BitVec 16 := coordMem (tileSub t) (t.val % 2) 15 0

def masterHub (src : BitVec 10) : BitVec 11 := src.setWidth 11
def masterEng (e : Fin 72) : BitVec 11 := BitVec.ofNat 11 (1024 + e.val)

/-! ### Regions (R223 to R225, R231, R232) -/

def regionOff (r : Nat) : Nat := 32 * r
def regionBase (c : Memory) (r : Nat) : Nat := cfgOf c Sec.regions (regionOff r) 6
def regionSize (c : Memory) (r : Nat) : Nat := cfgOf c Sec.regions (regionOff r + 0x08) 6
def regionKind (c : Memory) (r : Nat) : Nat := cfgByteOf c Sec.regions (regionOff r + 0x10)
def regionKeyByte (c : Memory) (r : Nat) : Nat := cfgByteOf c Sec.regions (regionOff r + 0x11)
def regionEnc (c : Memory) (r : Nat) : Bool := (regionKeyByte c r).testBit 7
def regionSlot (c : Memory) (r : Nat) : BitVec 5 := BitVec.ofNat 5 (regionKeyByte c r)
def regionEpoch (c : Memory) (r : Nat) : Nat := cfgOf c Sec.regions (regionOff r + 0x14) 4
def regionPm (c : Memory) (r : Nat) : Nat := cfgOf c Sec.regions (regionOff r + 0x18) 4

def regionUsed (c : Memory) (r : Nat) : Bool := regionSize c r ≠ 0 && regionKind c r ≠ 0

/-- A reserved KIND is unpredictable (R45): a free choice between the two kinds. -/
def regionElastic (c : Memory) (r : Nat) : Bool :=
  if regionKind c r = 1 then false else if regionKind c r = 2 then true else Config.freeBool (regionKind c r)

def regionHolds (c : Memory) (addr r : Nat) : Bool :=
  regionUsed c r && regionBase c r ≤ addr && addr < regionBase c r + regionSize c r

/-- The region of an ADDR (R224). Where used descriptors overlap, any of them or none may govern: a free choice. -/
def regionOf (c : Memory) (addr : Nat) : Option Nat :=
  let l := (List.range 64).filter (regionHolds c addr)
  match l with
  | [] => none
  | [r] => some r
  | _ => l[Config.freeNat addr % (l.length + 1)]?

/-- ENC is set and the key slot is empty: counts as no region (R224). -/
def Dev.regionKeyed (d : Dev) (r : Nat) : Bool :=
  !regionEnc d.cfg r || (d.crypt.slots[(regionSlot d.cfg r).toNat]?.join).isSome

/-- The region that governs a request, if any (R224). -/
def Dev.lookupRegion (d : Dev) (l : LineAddr) : Option Nat :=
  match regionOf d.cfg (addrOf l) with
  | some r => if d.regionKeyed r then some r else none
  | none => none

def Dev.rotating (d : Dev) (r : Nat) : Bool := bit (d.reg (A.rot r)) 47
def Dev.rotPtr (d : Dev) (r : Nat) : Nat := d.fldR (A.rot r) 0 42

/-- Epoch of unit `u` (line of a direct region, page of an elastic one) of region `r` (R231, R232). -/
def Dev.epochAt (d : Dev) (r u : Nat) : BitVec 32 :=
  if d.rotating r && u < d.rotPtr r then BitVec.ofNat 32 (d.fldR (A.nextEpoch r) 0 32)
  else BitVec.ofNat 32 (d.fldR (A.epoch r) 0 32)

/-- Line number within a direct region. -/
def regionLine (c : Memory) (r : Nat) (l : LineAddr) : Nat := (addrOf l - regionBase c r) / 64
/-- Page number within an elastic region, and its page map index (R225). -/
def regionPage (c : Memory) (r : Nat) (l : LineAddr) : Nat := (addrOf l - regionBase c r) / 4096
def pageIdx (c : Memory) (r : Nat) (l : LineAddr) : BitVec 32 := BitVec.ofNat 32 (regionPm c r + regionPage c r l)

/-- Key use of media line `m` of region `r`, unit `u` (R226). -/
def Dev.keyUse (d : Dev) (r u : Nat) (m : LineAddr) : KeyUse :=
  { media := m, enc := regionEnc d.cfg r, slot := regionSlot d.cfg r, epoch := d.epochAt r u, region := r, unit := u,
    isLoc := false, pinned := false }

/-- A line stored in plaintext. -/
def KeyUse.plain (m : LineAddr) : KeyUse :=
  { media := m, enc := false, slot := 0, epoch := 0, region := 0, unit := 0, isLoc := false, pinned := false }

/-- A line accessed by LOC: no encryption (R253). -/
def KeyUse.byLoc : KeyUse := { KeyUse.plain 0 with isLoc := true }

/-- The epoch that applies to the line now (R232). -/
def Dev.rekey (d : Dev) (k : KeyUse) : KeyUse := if k.enc && !k.pinned then { k with epoch := d.epochAt k.region k.unit } else k

/-! ### Messages (R98 to R101) -/

def slotField (s : Slot) (hi lo : Nat) : Nat := (s.toNat >>> lo) % 2 ^ (hi + 1 - lo)

/-- Data slot `k` of a line: line byte 16k in bits [127:120] (Table 4.3). -/
def dataSlot (l : Line) (k : Nat) : Slot := BitVec.ofNat 128 (beNat (((lineBytes l).drop (16 * k)).take 16))

def dataSlots (l : Line) : List Slot := (List.range 4).map (dataSlot l)

/-- The 16 bytes of a slot, the byte of [127:120] first (R61). -/
def slotBytes (s : Slot) : List Byte := (leBytes 16 s.toNat).reverse

/-- The line that four data slots carry. -/
def slotsLine (ss : List Slot) : Line := lineOf (ss.flatMap slotBytes)

/-- Register `k` of a burst in the data slots of an MWR or RSP_M (Table 4.3). -/
def slotsReg (ss : List Slot) (k : Nat) : Word :=
  BitVec.ofNat 48 ((ss.getD (k / 2) 0).toNat >>> (48 * (k % 2)))

/-- The data slots of a burst of registers. -/
def regSlots : List Word → List Slot
  | [] => []
  | [a] => [a.setWidth 128]
  | a :: b :: r => (a.setWidth 128 ||| (b.setWidth 128 <<< 48)) :: regSlots r

/-- MTYPE codes of requests (Table 4.2): VC and number of slots; `none` where reserved. -/
def reqShape (s : Slot) : Option (Vc × Nat) :=
  match slotField s 127 124 with
  | 0x1 => some (.q, 1)
  | 0x2 => some (.q, 5)
  | 0x3 => some (.q, 6)
  | 0x4 => some (.q, 2)
  | 0x5 => some (.q, 1)
  | 0x8 => some (.k, 1)
  | 0xC => some (.m, 1)
  | 0xD => some (.m, 1 + (slotField s 31 28 + 1) / 2)
  | _ => none

def slotTag (s : Slot) : BitVec 12 := BitVec.ofNat 12 (slotField s 123 112)

/-- The common fields of a request's first slot (R98). -/
def reqOf (h : Slot) : Req :=
  { tag := slotTag h, src := BitVec.ofNat 10 (slotField h 111 102), note := BitVec.ofNat 4 (slotField h 101 98),
    line := BitVec.ofNat 42 (slotField h 97 56) }

/-- FLUSH, OPK, MRD and MWR have no note, and all but OPK no line address (Table 4.3). -/
def reqPlain (h : Slot) : Req := { reqOf h with note := 0, line := 0 }

/-- WORD of an ATOM. -/
def atomWord (h : Slot) : BitVec 3 := BitVec.ofNat 3 (slotField h 53 51)

/-- The ATOM that the two slots ask for, its OP being `op` (Table 4.3). -/
def atomOp (op : BitVec 2) (h operand : Slot) : Op :=
  .atom op (atomWord h) (if op = 3 then BitVec.ofNat 64 (slotField operand 127 64) else 0) (BitVec.ofNat 64 (slotField operand 63 0))

/-- The WRM that its slots ask for. -/
def wrmOp (mask : Slot) (data : List Slot) : Op := .wrm (BitVec.ofNat 64 (slotField mask 63 0)) (slotsLine (data.take 4))

/-- The OPK that its slot asks for. -/
def opkOp (h : Slot) : Op :=
  .opk (BitVec.ofNat 8 (slotField h 55 48)) (BitVec.ofNat 4 (slotField h 47 44)) (BitVec.ofNat 32 (slotField h 43 12))

/-- WADDR and COUNT of an MRD or MWR. -/
def slotWaddr (h : Slot) : BitVec 24 := BitVec.ofNat 24 (slotField h 55 32)
def slotCount (h : Slot) : BitVec 4 := BitVec.ofNat 4 (slotField h 31 28)

/-- Register k of an MWR burst: bits [47:0] or [95:48] of data slot k / 2. -/
def mwrVal (data : List Slot) (k : Nat) : Word :=
  let s := data.getD (k / 2) 0
  BitVec.ofNat 48 (if k % 2 = 0 then slotField s 47 0 else slotField s 95 48)

def mrdOp (h : Slot) : Op := .mrd (slotWaddr h) (slotCount h)
def mwrOp (h : Slot) (data : List Slot) : Op :=
  .mwr (slotWaddr h) (slotCount h) ((List.range (slotCount h).toNat).map (mwrVal data))

def statusCode : Status → Nat
  | .ok => 0
  | .poison => 1
  | .nospace => 2
  | .opfault => 3
  | .noop => 4
  | .lost => 5

/-- The first slot of a response (R101). -/
def rspHead (mtype : Nat) (tag : BitVec 12) (src : BitVec 10) (st attn rest : Nat) : Slot :=
  BitVec.ofNat 128 (mtype <<< 124 ||| tag.toNat <<< 112 ||| src.toNat <<< 102 ||| st <<< 98 ||| attn <<< 94 ||| rest)

/-- RSP_D (Table 4.4, R102): data slots are zero unless OK. -/
def rspD (tag : BitVec 12) (src : BitVec 10) (st : Status) (corr fwd : Bool) (l : Line) (attn : Nat) : List Slot :=
  rspHead 1 tag src (statusCode st) attn (b2n corr <<< 93 ||| b2n fwd <<< 92) ::
    dataSlots (if st = .ok then l else 0)

def rspC (tag : BitVec 12) (src : BitVec 10) (st : Status) (attn : Nat) : List Slot :=
  [rspHead 2 tag src (statusCode st) attn 0]

def rspA (tag : BitVec 12) (src : BitVec 10) (st : Status) (old : BitVec 64) (attn : Nat) : List Slot :=
  [rspHead 3 tag src (statusCode st) attn old.toNat]

def rspK (tag : BitVec 12) (src : BitVec 10) (st : Status) (result : Word) (attn : Nat) : List Slot :=
  [rspHead 4 tag src (statusCode st) attn result.toNat]

/-- RSP_M: COUNT echoed, W, and for MRD the registers (Table 4.4). -/
def rspM (tag : BitVec 12) (src : BitVec 10) (st : Status) (count : BitVec 4) (w : Bool) (vals : List Word)
    (attn : Nat) : List Slot :=
  rspHead 5 tag src (statusCode st) attn (count.toNat <<< 52 ||| b2n w <<< 51) :: regSlots vals

/-! ### Live register fields that other chapters name -/

/-- Note fields (Tables 5.10 to 5.12). -/
def Dev.notePrio (d : Dev) (n : BitVec 4) : Nat := d.fldR (A.noteR n.toNat) 0 2
def Dev.noteRt (d : Dev) (n : BitVec 4) : Bool := bit (d.reg (A.noteR n.toNat)) 2
def Dev.notePlaced (d : Dev) (n : BitVec 4) : Bool := bit (d.reg (A.noteR n.toNat)) 3
def Dev.noteBudget (d : Dev) (n : BitVec 4) (p : Fin 4) : Nat := d.fldR (A.noteR n.toNat) (4 + 8 * p.val) 8
def Dev.noteTarget (d : Dev) (n : BitVec 4) : Nat := d.fldR (A.noteTgt n.toNat) 0 32
def Dev.noteWindow (d : Dev) (n : BitVec 4) : Nat := d.fldR (A.noteMon n.toNat) 16 16
def Dev.noteThresh (d : Dev) (n : BitVec 4) : Nat := d.fldR (A.noteMon n.toNat) 0 16

/-- RES(p) (R131). -/
def Dev.res (d : Dev) (p : Fin 4) : Nat := min (d.noteBudget 15 p) 32

/-- A field of the SCHED section's record of port `p` (Table 5.6). -/
def Dev.schedCfg (d : Dev) (p : Fin 4) (off n : Nat) : Nat := d.cfgLe Sec.sched (64 * p.val + off) n

/-- A field of the REFRESH section's record of port `p` (Table 6.4). -/
def Dev.refrCfg (d : Dev) (p : Fin 4) (off n : Nat) : Nat := d.cfgLe Sec.refresh (64 * p.val + off) n

/-- A field of the PROTECT section's record of subchannel `s` (Table 8.8). -/
def Dev.protCfg (d : Dev) (s : Fin 8) (off n : Nat) : Nat := d.cfgLe Sec.protect (64 * s.val + off) n

/-- LINK section fields, the default profile's values until an Accord applies (R59, Table 3.8). -/
def Dev.linkCfg (d : Dev) (off n dflt : Nat) : Nat := if d.applied then d.cfgLe Sec.link off n else dflt

/-- Is the bank of location `l` flagged LOST (R170, Table 6.12)? -/
def Dev.bankLost (d : Dev) (l : Loc) : Bool :=
  bit (d.reg (A.lost (locPort l).val ((locTile l).val % 4 * 8 + locCid l))) (4 * locBg l + locBank l)

/-- A subchannel is fenced by itself or with its port (R291). -/
def Dev.subFenced (d : Dev) (s : Fin 8) : Bool :=
  d.flt.subFence.getLsbD s.val || d.flt.portFence.getLsbD (s.val / 2)

end Sys2Proof.Machine
end

