-- ==== Sys2Proof/Machine/Codec.lean ====
section
/-! DEFINITION. The block codec of the capacity tier (R236 to R238) and the page map entry (Table 9.3). -/

namespace Sys2Proof.Machine

/-- The 64 words of a chunk's eight lines. -/
def chunkWords (lines : List Line) : List Nat := lines.flatMap (fun l => (List.range 8).map (fun w => (lineWord l w).toNat))

/-- The eight lines of 64 words. -/
def wordsChunk (ws : List Nat) : List Line :=
  (List.range 8).map (fun i => BitVec.ofNat 512 ((List.range 8).foldl (fun acc j => acc ||| (ws.getD (8 * i + j) 0) <<< (64 * j)) 0))

/-- Signed 16-bit delta from BASE, modulo 2^64, as a 16-bit number; `none` when it does not fit. -/
def codecDelta (base w : Nat) : Option Nat :=
  let d := (w + 2 ^ 64 - base) % 2 ^ 64
  if d < 2 ^ 15 then some d else if 2 ^ 64 - 2 ^ 15 ≤ d then some (d % 2 ^ 16) else none

/-- First tag of 0, 1, 2, 3 that reproduces the word, and its payload (R238). -/
def codecTag (base prev w : Nat) : Nat × List Byte :=
  if w = 0 then (0, [])
  else if w = prev then (1, [])
  else match codecDelta base w with
    | some d => (2, leBytes 2 d)
    | none => (3, leBytes 8 w)

/-- Tags and payloads of the words in order; `prev` starts as BASE. -/
def codecTags (base : Nat) : Nat → List Nat → List (Nat × List Byte)
  | _, [] => []
  | prev, w :: r => codecTag base prev w :: codecTags base w r

/-- Two-bit tags, four to a byte, the first lowest. -/
def tagBytes (ts : List Nat) : List Byte :=
  (List.range 16).map (fun i =>
    BitVec.ofNat 8 ((List.range 4).foldl (fun acc j => acc + ts.getD (4 * i + j) 0 * 4 ^ j) 0))

/-- The codec stream of a chunk (R237, R238). -/
def codecEncode (ws : List Nat) : List Byte :=
  let base := (ws.find? (· ≠ 0)).getD 0
  let ts := codecTags base base ws
  leBytes 8 base ++ tagBytes (ts.map Prod.fst) ++ ts.flatMap Prod.snd

/-- Lines that a stream needs. -/
def codecLines (n : Nat) : Nat := ceilDiv n 64

/-- Words of a stream from its tags and the payload bytes; `none` when the payload runs out. -/
def codecWords (base : Nat) : Nat → List Nat → List Byte → Option (List Nat × List Byte)
  | _, [], bs => some ([], bs)
  | prev, t :: ts, bs =>
    let step : Option (Nat × List Byte) :=
      match t with
      | 0 => some (0, bs)
      | 1 => some (prev, bs)
      | 2 =>
        if bs.length < 2 then none
        else
          let d := leNat (bs.take 2)
          some ((base + (if d < 2 ^ 15 then d else d + 2 ^ 64 - 2 ^ 16)) % 2 ^ 64, bs.drop 2)
      | _ => if bs.length < 8 then none else some (leNat (bs.take 8), bs.drop 8)
    match step with
    | none => none
    | some (w, bs') => (codecWords base w ts bs').map (fun r => (w :: r.1, r.2))

/-- Decode a stream of `lines` (R237). Malformed: the payload runs past the chunk's lines, or the padding to the line
end is not zero (DEDUCED, log 16). -/
def codecDecode (bs : List Byte) : Option (List Nat) :=
  if bs.length < 24 then none
  else
    let base := leNat (bs.take 8)
    let tags := ((bs.drop 8).take 16).flatMap (fun b => (List.range 4).map (fun j => fld b (2 * j) 2))
    match codecWords base base tags (bs.drop 24) with
    | none => none
    | some (ws, rest) =>
      if (rest.take (rest.length % 64)).all (· = 0) then some ws else none

/-! ### Page map entries (Table 9.3) -/

def entState (e : BitVec 128) : Nat := fld e 126 2
def entAccess (e : BitVec 128) : Nat := fld e 108 16
def entAge (e : BitVec 128) : Nat := fld e 100 8
def entPtr (e : BitVec 128) : Nat := fld e 48 42
def entRaw (e : BitVec 128) (k : Nat) : Bool := bit e (40 + k)
def entSlot (e : BitVec 128) (k : Nat) : Nat := fld e (4 * k) 4

/-- An entry from its fields. -/
def mkEnt (state access age ptr raw slot : Nat) : BitVec 128 :=
  BitVec.ofNat 128 (state <<< 126 ||| access <<< 108 ||| age <<< 100 ||| ptr <<< 48 ||| raw <<< 40 ||| slot)

/-- Sum of SLOT[0 .. k-1]. -/
def slotSum (e : BitVec 128) : Nat → Nat
  | 0 => 0
  | k + 1 => slotSum e k + entSlot e k

/-- Granules of the extent (R236). -/
def entGranules (e : BitVec 128) : Nat := ceilDiv (slotSum e 8) 8

/-- First line of chunk `k`. -/
def chunkLine (e : BitVec 128) (k : Nat) : Nat := entPtr e + slotSum e k

end Sys2Proof.Machine
end

