-- ==== Sys2Proof/Machine/Flags.lean ====
section
/-! DEFINITION. The flags of the block: fault severities and the collectors' bits (R278 to R290), the transaction
tracks and loss sets (R114, R115), latency misses (R146, R147). -/

namespace Sys2Proof.Machine

/-! ### Fault sources (Table 11.2) -/

/-- Class of a source; 0 for the reserved ones. -/
def srcClass (s : Nat) : Nat :=
  if s ≤ 71 then 2 else if s ≤ 87 then 1 else if s ≤ 95 then 2 else if s ≤ 111 then 1 else if s ≤ 119 then 2
  else if s ≤ 123 then 4 else if s ≤ 126 then 3 else if s = 127 then 2 else if s = 128 then 6 else if s = 129 then 1
  else if s ≤ 144 then 4 else if s ≤ 152 then 5 else if s ≤ 156 then 1 else if s = 157 then 3 else if s = 158 then 1
  else if s = 159 then 4 else if s ≤ 161 then 2 else 0

/-- Fixed severity of an event, if it has one. -/
def fixedSev (s ev : Nat) : Option Nat :=
  if ev = 255 then some 3
  else if s ≤ 71 then (if ev = 3 then some 2 else if ev = 4 then some 4 else none)
  else if within 88 95 s then (if ev = 2 then some 4 else none)
  else if within 112 115 s then (if ev = 4 then some 4 else none)
  else if within 116 119 s then (if ev = 2 then some 4 else none)
  else if s = 127 then (if ev = 2 then some 4 else none)
  else if s = 160 then some 3
  else none

/-- The WEDGED event of a source that has one (R294). -/
def wedgedEvent (s : Nat) : Option Nat :=
  if within 88 95 s then some 2 else if within 112 115 s then some 4 else if within 116 119 s then some 2
  else if s = 127 then some 2 else none

/-- Fence targets (Table 11.2). -/
inductive FenceTarget where
  | none
  | engine (e : Fin 72)
  | sub (s : Fin 8)
  | port (p : Fin 4)
  | lane
  | linkReset
deriving DecidableEq, Repr

def fenceTarget (s : Nat) : FenceTarget :=
  if s ≤ 71 then .engine (Fin.ofNat 72 s)
  else if s ≤ 111 then .sub (Fin.ofNat 8 (s % 8))
  else if s ≤ 115 then .port (Fin.ofNat 4 (s - 112))
  else if s ≤ 119 then .port (Fin.ofNat 4 (s - 116))
  else if s = 125 || s = 126 then .lane
  else if s = 124 || s = 157 then .linkReset
  else if within 153 156 s then .port (Fin.ofNat 4 (s - 153))
  else .none

def Dev.srcAt (d : Dev) (s : Nat) : Src := sget Src.quiet d.flt.src s
def Dev.setSrc (d : Dev) (s : Nat) (x : Src) : Dev := { d with flt := { d.flt with src := sset Src.quiet d.flt.src s x } }

/-- Live configuration of a source (R283: FAULT[0].SRC_CFG). -/
def Dev.srcBase (d : Dev) (s : Nat) : Nat := d.fldR (A.srcCfg s) 0 3
def Dev.srcSev2 (d : Dev) (s : Nat) : Nat := d.fldR (A.srcCfg s) 3 3
def Dev.srcFull (d : Dev) (s : Nat) : Bool := bit (d.reg (A.srcCfg s)) 6
def Dev.srcCount (d : Dev) (s : Nat) : Nat := d.fldR (A.srcCfg s) 24 8
def Dev.srcWindow (d : Dev) (s : Nat) : Nat := d.fldR (A.srcCfg s) 32 16

/-- The union of the collectors (R282). -/
def Src.pend (x : Src) : Bool := x.pendA || x.pendB
def Src.pres (x : Src) : Bool := x.presA || x.presB
def Src.sev (x : Src) : Nat := max x.sevA.toNat x.sevB.toNat

/-- Some other source of the class is pending at MINOR or above (R284). -/
def Dev.classPending (d : Dev) (s : Nat) : Bool :=
  d.flt.src.any (fun e => e.1 ≠ s && srcClass e.1 = srcClass s && e.2.pend && 2 ≤ e.2.sev)

/-- The class's bit of ESC_MASK. -/
def Dev.escMask (d : Dev) (s : Nat) : Bool := srcClass s ≠ 0 && bit (d.reg A.faultCfg) (8 + (srcClass s - 1))

/-- Severity of an occurrence of event `ev` by R283 and R284: severity, promoted, escalated, and whether it counted
towards WCOUNT. Severity 0: masked. -/
def Dev.gradeSev (d : Dev) (s ev : Nat) : Nat × Bool × Bool × Bool :=
  match fixedSev s ev with
  | some v => (v, false, false, false)
  | none =>
    let base := d.srcBase s
    if base = 0 then (0, false, false, false)
    else
      let counted := d.srcCount s ≠ 0
      let w := satAdd 8 (d.srcAt s).wcount.toNat 1
      let prom := counted && d.srcCount s ≤ w && base < d.srcSev2 s
      let v := if prom then d.srcSev2 s else base
      let esc := d.classPending s && d.escMask s
      (if esc then max v (min (v + 1) 5) else v, prom, esc, counted)

/-- FAULT[0].STATUS.ERR and the ERR_N pin (R290): some unmasked source, or a reporting-path fault, pending or present at
or above ERR_THRESH. -/
def Dev.errActive (d : Dev) : Bool :=
  d.fldR A.faultCfg 0 3 ≠ 0 &&
    d.flt.src.any (fun e => (d.srcBase e.1 ≠ 0 || e.2.pathBad || e.2.pathPend) &&
      (e.2.pend || e.2.pres) && d.fldR A.faultCfg 0 3 ≤ e.2.sev)

/-- Highest current severity among sources with PENDING or PRESENT (Table 11.9), in collector A (R282, log 30). -/
def Dev.maxSev (d : Dev) : Nat :=
  d.flt.src.foldl (fun m e => if e.2.pendA || e.2.presA then max m e.2.sevA.toNat else m) 0

def Dev.nPend (d : Dev) : Nat := (d.flt.src.filter (fun e => e.2.pendA)).length

/-- Table 11.4, type 1: the DATA of a FAULT record. -/
def faultData (s : Nat) (r : Report) (sev : Nat) (esc prom fst : Bool) : Word :=
  pack [(45, sev), (42, srcClass s), (34, r.event.toNat), (23, (r.master.getD 0).toNat), (22, b2n r.master.isSome),
    (21, b2n esc), (20, b2n prom), (19, b2n fst),
    (0, if r.akind = 1 || r.akind = 2 then fld r.addr 6 19 else 0)]

/-- Record one occurrence of grade `g` (R281 to R288) in the collectors that see it: count, capture, Sillage. The second
component is the severity level newly reached, 0 when none (R289). -/
def Dev.recordGraded (d : Dev) (s : Nat) (r : Report) (level inA inB : Bool) (g : Nat × Bool × Bool × Bool) : Dev × Nat :=
  let x := d.srcAt s
  let sev := g.1
  let x1 := { x with presA := x.presA || (level && inA), presB := x.presB || (level && inB),
                     cur := if level then some r else x.cur }
  if sev = 0 || !(inA || inB) then (d.setSrc s x1, 0)
  else
    let capture := inA && !x.pendA && d.srcFull s
    let fst := capture && d.flt.first.isNone
    let rcd : Rec := { addr := r.addr, time := d.sill.time, coord := r.coord, master := r.master, access := r.access,
                       sev := BitVec.ofNat 3 sev, event := r.event, akind := r.akind, esc := g.2.2.1,
                       promoted := g.2.1, first := fst }
    let v := BitVec.ofNat 3 sev
    let x2 := { x1 with
      pendA := x.pendA || inA, pendB := x.pendB || inB,
      sevA := if inA && x.sevA < v then v else x.sevA, sevB := if inB && x.sevB < v then v else x.sevB,
      pathPend := x.pathPend || r.event = 255,
      -- the record store follows collector A (R282)
      count := if inA then BitVec.ofNat 8 (satAdd 8 (if x.pendA then x.count.toNat else 0) 1) else x.count,
      wcount := if g.2.2.2 then BitVec.ofNat 8 (satAdd 8 x.wcount.toNat 1) else x.wcount,
      window := x.window || (g.2.2.2 && d.srcWindow s ≠ 0),
      rcd := if capture then some rcd else x.rcd, stale := x.stale && !capture }
    let d1 := (d.setSrc s x2).sillPush 1 r.coord s (faultData s r sev g.2.2.1 g.2.1 fst)
    let d2 := if fst then { d1 with flt := { d1.flt with first := some (BitVec.ofNat 8 s) } }.setFld A.first 0 8 s else d1
    -- R297: the first FATAL occurrence arms the freeze, 256 records after its own
    let arm := sev = 5 && d.applied && bit (BitVec.ofNat 8 (d.cfgLe Sec.faults 0x02 1)) 0 && !d2.sill.frozen &&
      d2.sill.countdown.isNone
    let d3 := if arm then
      { d2 with sill := { d2.sill with countdown := some (256 + d2.sill.queue.length) } } else d2
    (d3, if x.sev < x2.sev then x2.sev else 0)

/-- Record one occurrence, graded from the state at the start of its cycle (R283, R284). -/
def Dev.recordFault (d : Dev) (s : Nat) (r : Report) (level inA inB : Bool) : Dev × Nat :=
  d.recordGraded s r level inA inB (d.gradeSev s r.event.toNat)

/-! ### Tracks and responses (R114 to R116) -/

/-- Insert into a rising list without repeats. -/
def setInsert (t : BitVec 12) : List (BitVec 12) → List (BitVec 12)
  | [] => [t]
  | x :: r => if t < x then t :: x :: r else if t = x then x :: r else x :: setInsert t r

/-- A tag joins the loss set of its VC (R115). -/
def Dev.addLoss (d : Dev) (vc : Vc) (tag : BitVec 12) : Dev :=
  d.modTxn (fun x => match vc with
    | .q => { x with lossQ := setInsert tag x.lossQ }
    | .k => { x with lossK := setInsert tag x.lossK }
    | .m => { x with lossM := setInsert tag x.lossM })

/-- Replace the first element that satisfies `c`. -/
def modFirst {α : Type} (c : α → Bool) (f : α → α) : List α → List α
  | [] => []
  | x :: r => if c x then f x :: r else x :: modFirst c f r

/-- Remove the first element that satisfies `c`. -/
def dropFirst {α : Type} (c : α → Bool) : List α → List α
  | [] => []
  | x :: r => if c x then r else x :: dropFirst c r

/-- A track of an accepted request, unexecuted. -/
def Track.isNew (vc : Vc) (tag : BitVec 12) (t : Track) : Bool := t.vc = vc && t.tag = tag && !t.executed

/-- The request is executed (R114); one accepted before a link-down joins the loss set (R115). -/
def Dev.markExec (d : Dev) (vc : Vc) (tag : BitVec 12) : Dev :=
  let d1 := if d.txn.track.any (fun t => t.isNew vc tag && t.dead) &&
      ((d.txn.track.find? (Track.isNew vc tag)).any (fun t => t.dead)) then d.addLoss vc tag else d
  d1.modTxn (fun x => { x with track := modFirst (Track.isNew vc tag) (fun t => { t with executed := true }) x.track })

/-- A whole message is accepted (R71, R115): it is tracked until its response is acknowledged. -/
def Dev.openTrack (d : Dev) (vc : Vc) (tag : BitVec 12) : Dev :=
  if d.txn.track.any (fun t => t.vc = vc && t.tag = tag && !t.executed) then d
  else d.modTxn (fun x => { x with track := x.track ++
    [{ vc := vc, tag := tag, executed := false, built := false, dead := decide (d.link.st ≠ .up), seq := none }] })

/-- Queue a message for KTX: VC P for responses of Q and K, VC M for RSP_M (Table 4.1). -/
def Dev.sendMsg (d : Dev) (vc : Vc) (tag : BitVec 12) (slots : List Slot) : Dev :=
  let o : OutMsg := { vc := vc, tag := tag, resync := false, started := false, slots := slots }
  d.modTxn (fun x => if vc = .m then { x with outM := x.outM ++ [o] } else { x with outP := x.outP ++ [o] })

/-- Build the response of a request, with the ATTN value at its building (R101, R123). A response that cannot be sent, of
a request accepted before a link-down, is dropped (R90). `exec`: the request is executed by now (R114). `late`: it had
executed before the link-down. -/
def Dev.respondWith (d : Dev) (exec : Bool) (vc : Vc) (tag : BitVec 12) (late : Bool) (mk : Nat → List Slot) : Dev :=
  let sel : Track → Bool := fun t => t.vc = vc && t.tag = tag && !t.built && ((t.dead && t.executed) == late)
  let any : Track → Bool := fun t => t.vc = vc && t.tag = tag && !t.built
  match (d.txn.track.find? sel).or (d.txn.track.find? any) with
  | some t =>
    let d1 := if t.executed || !exec then d else d.markExec vc tag
    if t.dead then
      d1.modTxn (fun x => { x with track := dropFirst (fun u => u.vc = vc && u.tag = tag && u.dead && !u.built) x.track })
    else
      let isIt : Track → Bool := fun u => u.vc = vc && u.tag = tag && !u.built && !u.dead
      let d2 := d1.modTxn (fun x => { x with track := modFirst isIt (fun u => { u with built := true }) x.track })
      d2.sendMsg vc tag (mk d1.attnValue)
  | none => if d.link.st = .up then d.sendMsg vc tag (mk d.attnValue) else d

/-- The response of an executed request. -/
def Dev.respond (d : Dev) (vc : Vc) (tag : BitVec 12) (late : Bool) (mk : Nat → List Slot) : Dev :=
  d.respondWith true vc tag late mk

/-- The response of a request that is not performed (R103): POISON does not count as executed (R114). -/
def Dev.respondRefused (d : Dev) (vc : Vc) (tag : BitVec 12) (st : Status) (mk : Nat → List Slot) : Dev :=
  d.respondWith (st ≠ .poison) vc tag false mk

/-- The core cycle (CK_S): every port counts the same clock, so the one that is ahead shows it. -/
def Dev.cc (d : Dev) : Nat := d.ports.toList.foldl (fun n p => max n p.cyc) 0

/-! ### Latency misses (R146, R147) -/

/-- A request or access of note `n` completes with latency `lat` (R146). -/
def Dev.noteLatency (d : Dev) (n : BitVec 4) (lat : Nat) : Dev :=
  if d.noteTarget n = 0 || lat ≤ d.noteTarget n then d
  else
    let d1 := d.bump (A.misscnt n.toNat) 0 48
    if d.noteWindow n = 0 then d1
    else
      let q := d1.qos[n.toNat]
      let c := q.1 + 1
      let hit := d.noteThresh n ≠ 0 && d.noteThresh n ≤ c && !q.2
      let d2 := { d1 with qos := d1.qos.set n.toNat (c, q.2 || hit) }
      if hit then (d2.setFld A.qosStat n.toNat 1 1).raiseAttn 2 else d2

end Sys2Proof.Machine
end

