-- ==== Sys2Proof/Machine/LinkOps.lean ====
section
/-! DEFINITION. Shared operations of the Kengil link: lanes and widths (R82 to R88), link-down (R89, R90), link reset
(R91), and the start of a full reset (R307, R308). -/

namespace Sys2Proof.Machine

/-! ### Lanes -/

def Lane.isActive : Lane → Bool
  | .active _ => true
  | _ => false

def Lane.isSpare : Lane → Bool
  | .spare => true
  | _ => false

def Lane.isOut : Lane → Bool
  | .out => true
  | _ => false

/-- The width of a direction: its active lanes. -/
def laneWidth (v : Vector Lane 22) : Nat := (v.toList.filter Lane.isActive).length
def laneSpares (v : Vector Lane 22) : Nat := (v.toList.filter Lane.isSpare).length

def Link.lanes (l : Link) : Dir → Vector Lane 22
  | .rx => l.rxLanes
  | .tx => l.txLanes

def Link.setLanes (l : Link) (d : Dir) (v : Vector Lane 22) : Link :=
  match d with
  | .rx => { l with rxLanes := v }
  | .tx => { l with txLanes := v }

/-- WIDTH as the registers show it: zero while the link is down. -/
def Link.width (l : Link) (d : Dir) : Nat := if l.st = .up then laneWidth (l.lanes d) else 0

def laneAt (v : Vector Lane 22) (i : Nat) : Lane := v.toList.getD i .unused

/-- The lowest-numbered lane that satisfies `c`. -/
def lowestLane (v : Vector Lane 22) (c : Nat → Lane → Bool) : Option Nat :=
  (List.range 22).find? (fun i => c i (laneAt v i))

def setLane (v : Vector Lane 22) (i : Nat) (x : Lane) : Vector Lane 22 := v.setIfInBounds i x

/-- Give logical lanes 0 to w − 1 to the first `w` physical lanes of a ranking, spare to the rest of it (R85, R91). -/
def assignLanes (v : Vector Lane 22) (ranking : List Nat) (w : Nat) : Vector Lane 22 :=
  Vector.ofFn (fun i =>
    match (List.range ranking.length).find? (fun k => ranking.getD k 22 = i.val) with
    | some k => if k < w then .active k else .spare
    | none => v[i])

/-- Active lanes ranked by logical lane, then spares by physical lane. -/
def laneRanking (v : Vector Lane 22) : List Nat :=
  (List.range 22).filterMap (fun k => (List.range 22).find? (fun i => laneAt v i = .active k)) ++
    (List.range 22).filter (fun i => (laneAt v i).isSpare)

/-- SWAP: the failing lane's logical lane moves to the lowest-numbered spare (R85). -/
def swapLane (v : Vector Lane 22) (lane : Nat) : Vector Lane 22 :=
  match laneAt v lane, lowestLane v (fun _ x => x.isSpare) with
  | .active k, some s => setLane (setLane v s (.active k)) lane .out
  | _, _ => v

/-- DROP (R85): a spare goes out; an active lane goes out and the width falls. -/
def dropLane (v : Vector Lane 22) (lane : Nat) : Vector Lane 22 :=
  match laneAt v lane with
  | .spare => setLane v lane .out
  | .active _ =>
    let w := if laneWidth v = 20 then 14 else 10
    let v' := setLane v lane .out
    assignLanes v' (laneRanking v') w
  | _ => v

/-- ADD (R85): an out lane becomes a spare. -/
def addLane (v : Vector Lane 22) (lane : Nat) : Vector Lane 22 :=
  if (laneAt v lane).isOut then setLane v lane .spare else v

/-! ### Records -/

/-- A Sillage LINK record (Table 11.4, type 4). -/
def Dev.sillLink (d : Dev) (ev : Nat) : Dev :=
  d.sillPush 4 0 0 (pack [(14, d.fldR A.resync 8 8), (9, d.link.width .tx), (4, d.link.width .rx), (0, ev)])

/-- A report about the link without an address: access type 11. -/
def linkReport (ev : Nat) (coord : BitVec 16) : Report :=
  { event := BitVec.ofNat 8 ev, addr := 0, akind := 0, coord := coord, master := none, access := 11 }

/-! ### Change requests (R82, R83) -/

/-- The request that the failing lanes call for: spares first, then active lanes, each in ascending order. `none` inside
means that the link must go down (no spare at width 10). -/
def Link.nextRequest (l : Link) : Option (Option Change) :=
  let v := l.rxLanes
  let isFail := fun i => l.failing.contains i
  match lowestLane v (fun i x => isFail i && x.isSpare) with
  | some i => some (some { cmd := 2, lane := i })
  | none =>
    match lowestLane v (fun i x => isFail i && x.isActive) with
    | none => none
    | some i =>
      if (lowestLane v (fun j x => x.isSpare && !isFail j)).isSome then some (some { cmd := 1, lane := i })
      else if laneWidth v = 10 then some none
      else some (some { cmd := 2, lane := i })

/-- Raise the next change request when none is outstanding; the flag says that the link fails instead (R83, R89). -/
def Dev.pickRequest (d : Dev) : Dev × Bool :=
  if d.link.req.isSome || d.link.st ≠ .up then (d, false)
  else match d.link.nextRequest with
    | none =>
      match d.link.reqWait with
      | [] => (d, false)
      | c :: r => (d.modLink (fun l => { l with req := some c, reqWait := r }), false)
    | some none => (d, true)
    | some (some c) => (d.modLink (fun l => { l with req := some c }), false)

/-- A KRX lane is declared failing (R82); only an active or spare lane can be. -/
def Dev.laneFailing (d : Dev) (lane : Nat) : Dev × Bool :=
  let x := laneAt d.link.rxLanes lane
  if (x.isActive || x.isSpare) && !d.link.failing.contains lane then
    (d.modLink (fun l => { l with failing := l.failing ++ [lane] })).pickRequest
  else (d, false)

/-! ### Link-down -/

/-- Tracks and loss sets at a link-down (R115): executed requests join L, built ones end, the others stay as dead. -/
def Dev.lossAtDown (d : Dev) : Dev :=
  let d1 := Dev.each (fun t x => if t.executed then x.addLoss t.vc t.tag else x) d.txn.track d
  d1.modTxn (fun x => { x with
    track := (x.track.filter (fun t => !t.built)).map (fun t => { t with dead := true }) })

/-- The tier write's request has executed (R114): an atomic at its merge, another write at admission. -/
def TierOp.executed (o : TierOp) : Bool :=
  match o.h.op with
  | .rd => false
  | .atom .. => o.phase = .writing || o.phase = .switched
  | _ => o.phase ≠ .waitEntry

/-- Completions owed to requests that have executed are late from now on (R115). -/
def Dev.compsLate (d : Dev) : Dev :=
  { d with
    ports := d.ports.map (fun (p : Port) =>
      { p with wrq := p.wrq.map (fun (w : WrEnt) => { w with comps := w.comps.map (fun c => ({ c.1 with late := true }, c.2)) }) }),
    tier := { d.tier with ops := d.tier.ops.map (fun (o : TierOp) => { o with late := o.late || o.executed }) } }

/-- What the link keeps of itself at link-down (R90): its lanes; the change requests and counters clear. -/
def Link.cleared (l : Link) : Link :=
  { Link.initial with
    rxLanes := l.rxLanes, txLanes := l.txLanes, margin := l.margin, target := l.target, afterApply := l.afterApply,
    rstUp := l.rstUp }

/-- Link-down (R90): `attn` raises ATTN 8, `count` counts it in ERRCNT.DOWNS. A link that is not up only stops its
training. -/
def Dev.linkDownCore (d : Dev) (attn count : Bool) : Dev :=
  if d.link.st ≠ .up then d.modLink Link.cleared
  else
    let d1 := (d.lossAtDown.compsLate).modTxn (fun x => { x with part := [], outP := [], outM := [], afterRsp := [] })
    let d2 := (d1.modLink Link.cleared).setFld A.resync 16 2 0
    let d3 := if count then d2.bump A.errcnt 8 8 else d2
    (if attn then d3.raiseAttn 8 else d3).sillLink 1

/-- The target rate of a link reset (R91). -/
def Dev.targetRate (d : Dev) (asked : Nat) : BitVec 2 :=
  let ctl := d.fldR A.linkCtl 1 2
  let acc := d.linkCfg 0x00 1 0
  if asked ≠ 0 then BitVec.ofNat 2 asked
  else if ctl ≠ 0 then BitVec.ofNat 2 ctl
  else if within 1 3 acc then BitVec.ofNat 2 acc
  else if acc = 0 then 3
  else BitVec.ofNat 2 (1 + Config.freeNat acc % 3)

/-- A control message: CTYPE in [127:120] and fields below it (Table 3.3). -/
def ctlSlot (ctype rest : Nat) : Slot := BitVec.ofNat 128 (ctype <<< 120 ||| rest)

/-- RTT_PROBE messages of a training; their stamps are free values (R81 fixes no stamp). -/
def probeSlots (ctr : Nat) : List Slot :=
  (List.range 8).map (fun i => ctlSlot 2 (((Config.freeWord (ctr + i)).toNat % 2 ^ 16) <<< 104))

/-- Training starts at rate `r`: eight probes are ready (R81). -/
def Dev.trainAt (d : Dev) (r : BitVec 2) : Dev :=
  { d with freeCtr := d.freeCtr + 8 }.modLink (fun l =>
    { l with st := .training, target := r, rate := 0, failing := [], probesLeft := 8, rttMax := 0, retryWait := false,
             ctlq := probeSlots d.freeCtr })

/-- Training starts at the target rate (R91). -/
def Dev.startTraining (d : Dev) (asked : Nat) : Dev := d.trainAt (d.targetRate asked)

/-! ### Full reset: trigger and step 1 (R307, R308, R312) -/

/-- Sillage RESET record (Table 12.11). -/
def Dev.sillReset (d : Dev) (step : Nat) : Dev :=
  d.sillPush 7 0 0 (pack [(0, step), (4, d.fldR A.reset 5 3), (7, d.fldR A.reset 0 1), (8, d.fldR A.reset 1 1),
    (9, d.fldR A.reset 16 16)])

def vecBits {α : Type} {n : Nat} (v : Vector α n) (f : α → Bool) : Nat := bitsOf (v.toList.map f)

/-- Reads that the drain completes: merge reads, atomics, those of admitted tier writes and moves (R309), and those of
pointer steps (Table 12.4 step 1). -/
def Dev.drainsRead (d : Dev) (keep : TierOp → Bool) (op : RdOp) (w : Who) : Bool :=
  match op, w with
  | .rd, .tier i _ => d.tier.ops.any (fun o => o.id = i && keep o)
  | .rd, .pmc i => d.tier.ops.any (fun o => o.idx = i && keep o)
  | .rd, .job .. => true
  | .rd, _ => false
  | _, _ => true

/-- Table 12.4 step 1: the receive buffer is discarded, reads not loaded are dropped, loaded ones lose their data, the
link goes down; tier accesses not admitted, calibration pauses (R194) and test operations end, pointer steps go on; a load
attempt ends (R43). -/
def Dev.freeze (d : Dev) : Dev :=
  let d1 := d.linkDownCore true false
  let keep : TierOp → Bool := fun o => o.move.isSome || (o.phase ≠ .waitEntry && o.h.op ≠ .rd)
  let inner : Held → Bool := fun h => match h.who with
    | .tier i _ => d1.tier.ops.any (fun o => o.id = i && keep o)
    | .pmc i => d1.tier.ops.any (fun o => o.idx = i && keep o)
    | .job .. => true
    | _ => false
  let d2 := d1.modTxn (fun x => { x with rx := [], part := [], held := x.held.filter inner, flushes := [], afterRsp := [] })
  let kept := d2.drainsRead keep
  let d3 := { d2 with
    loader := .idle,
    tier := { d2.tier with ops := d2.tier.ops.filter keep },
    ports := d2.ports.map (fun (p : Port) => { p with rdq := p.rdq.filter (fun r => kept r.op r.acc.who) }),
    cals := d2.cals.map (fun (c : Cal) => { c with pause := false, queued := false, pend := Vector.replicate 2 none }),
    phys := d2.phys.map (fun (p : Phy) => { p with test := none, testSent := false, inflight := p.inflight.map (fun (i : Inflight) =>
      { i with drop := i.drop || !kept i.op i.acc.who }) }) }
  (d3.modLink (fun l => { l with st := .down, rstUp := true })).sillReset 1

/-- A trigger of a full reset (R307): absorbed in steps 1 to 4, restarting in steps 5 and 6, and from P2 and P3 first
waking to step 4 (R312). -/
def Dev.fullReset (d : Dev) (cause : Nat) : Dev :=
  if within 1 4 d.rst.step then d
  else
    let again := decide (5 ≤ d.rst.step)
    let old := d.reg A.reset
    let st := d.fldR A.pwrStatus 0 4
    let r := { d.rst with
      waitRise := false,
      wasReady := if d.rst.step = 5 || d.noAccord then d.rst.wasReady
        else BitVec.ofNat 16 (bitsOf (allTiles.map (fun t => bit (d.reg (A.dlyState t.val)) 0))),
      drainBad := again && (d.rst.drainBad || !bit old 0),
      retainBad := again && (d.rst.retainBad || !bit old 1), discarded := if again then d.rst.discarded else 0 }
    let d1 := (({ d with rst := r }.setFld A.reset 32 16 (satAdd 16 (fld old 32 16) 1)).setFld A.reset 5 3 cause)
    if st = 2 || st = 3 then
      -- wake steps 1 to 3 first, then step 4 with both flags set (R312)
      let d2 := ((d1.setFld A.reset 0 2 3).setFld A.reset 16 16 0).setFld A.pwrStatus 4 4 3
      { d2 with rst := { d2.rst with step := 2 }, pwr := { d2.pwr with toReset := true, wakeStep := if st = 2 then 2 else 1 } }
    else
      let d2 := if st = 1 then d1.setFld A.pwrStatus 0 4 0 else d1
      let d3 := ((d2.setFld A.pwrStatus 4 4 0).setFld A.reset 0 2 0).setFld A.reset 16 16 (min r.discarded 65535)
      { d3 with rst := { d3.rst with step := 2 }, pwr := { d3.pwr with poll := 0, wakeStep := 0, latched := 0 } }.freeze

/-- A link-down that is not part of a full reset, and what its dropped completions start: a full reset asked for by an
MWR starts as soon as its completion is dropped (R27); otherwise the link trains again. -/
def Dev.linkDown (d : Dev) (attn count : Bool) (asked : Nat) : Dev :=
  let reset := d.txn.afterRsp.any (fun a => a.2 = .fullReset)
  let d1 := d.linkDownCore attn count
  if reset then d1.fullReset 3 else d1.startTraining asked

end Sys2Proof.Machine
end

