-- ==== Sys2Proof/Machine/EngineOps.lean ====
section
/-! DEFINITION. Shared operations of the memory engines: configuration records (R250 to R252), registers (R255),
events (R262), starting, fencing and takeover (R265, R271 to R273). -/

namespace Sys2Proof.Machine

/-! ### ENGINES and WINDOWS sections -/

def Dev.engCfg (d : Dev) (off n : Nat) : Nat := d.cfgLe Sec.engines off n

/-- Image directory entry fields (Table 10.2). -/
def Dev.imgOff (d : Dev) (i : Nat) : Nat := d.engCfg (16 * i) 4
def Dev.imgILen (d : Dev) (i : Nat) : Nat := d.engCfg (16 * i + 4) 4
def Dev.imgDLen (d : Dev) (i : Nat) : Nat := d.engCfg (16 * i + 8) 4

/-- Role record fields (Table 10.3) of record `n`. -/
def Dev.roleCfg (d : Dev) (n off len : Nat) : Nat := d.engCfg (0x100 + 16 * n + off) len

/-- ROLE of record `n`: a reserved one is unpredictable (R6; DESIGN CHOICE, log 87). -/
def Dev.roleOf (d : Dev) (n : Nat) : Nat := codeOf [0, 1, 2, 3, 4, 5, 6] (d.roleCfg n 0 1)

/-- Kernel entry fields (Table 10.5). -/
def Dev.kernCfg (d : Dev) (k off len : Nat) : Nat := d.engCfg (0x580 + 32 * k + off) len
def Dev.kernFlag (d : Dev) (k i : Nat) : Bool := bit (BitVec.ofNat 8 (d.kernCfg k 0 1)) i

/-- Window record fields (Table 10.6). -/
def Dev.winCfg (d : Dev) (w off len : Nat) : Nat := d.cfgLe Sec.windows (32 * w + off) len
/-- KIND: a reserved one is unpredictable within R3's bounds, which the window's other checks keep (DESIGN CHOICE, log 87). -/
def Dev.winKind (d : Dev) (w : Nat) : Nat := codeOf [0, 1, 2, 3] (d.winCfg w 0 1)
def Dev.winFlag (d : Dev) (w i : Nat) : Bool := bit (BitVec.ofNat 8 (d.winCfg w 1 1)) i
def Dev.winBase (d : Dev) (w : Nat) : Nat := d.winCfg w 0x08 6
def Dev.winLimit (d : Dev) (w : Nat) : Nat := d.winCfg w 0x10 6

/-- Words of protected data of the image that engine `e` holds. -/
def Dev.protWords (d : Dev) (e : Fin 72) : Nat := d.imgDLen d.engs[e].image.toNat / 6

def isRole (r : Nat) : Bool := within 1 5 r
/-- A role engine (ROLE 1 to 4); a kernel-pool engine (ROLE 5). -/
def Engine.isRoleEngine (e : Engine) : Bool := within 1 4 e.role.toNat
def Engine.isKernel (e : Engine) : Bool := e.role = 5
/-- In service with a role (R272). -/
def Engine.inService (e : Engine) : Bool := isRole e.role.toNat && e.run ≠ .fenced && e.run ≠ .off

/-! ### Registers and memories (R249, R255) -/

def Engine.w (e : Engine) (i : Fin 16) : Word := if i = 0 then 0 else e.regs[i]

/-- Write a register; w0 discards. -/
def Engine.setW (e : Engine) (i : Fin 16) (v : Word) : Engine := if i = 0 then e else { e with regs := e.regs.set i v }

/-- The register after `i` (the upper half of a pair). -/
def succReg (i : Fin 16) : Fin 16 := i + 1

/-- The 64-bit value of the pair at even register `i`. -/
def Engine.pair (e : Engine) (i : Fin 16) : BitVec 64 :=
  (e.w i).setWidth 64 ||| ((e.w (succReg i)).setWidth 64 <<< 48)

/-- Write a pair; bits [47:16] of the upper register are zero. -/
def Engine.setPair (e : Engine) (i : Fin 16) (v : BitVec 64) : Engine :=
  (e.setW i (v.setWidth 48)).setW (succReg i) ((v >>> 48).setWidth 48)

def Engine.data (e : Engine) (a : Nat) : Word := sget (0 : Word) e.dmem a
def Engine.setData (e : Engine) (a : Nat) (v : Word) : Engine := { e with dmem := sset (0 : Word) e.dmem a v }
def Engine.slot (e : Engine) (i : Nat) : Line := sget (0 : Line) e.slots i
def Engine.setSlot (e : Engine) (i : Nat) (v : Line) : Engine := { e with slots := sset (0 : Line) e.slots i v }
def Engine.slotStat (e : Engine) (i : Nat) : BitVec 4 := sget (0 : BitVec 4) e.stat i
def Engine.setStat (e : Engine) (i : Nat) (v : BitVec 4) : Engine := { e with stat := sset (0 : BitVec 4) e.stat i v }
def Engine.isBusy (e : Engine) (i : Nat) : Bool := e.busy.getLsbD i
def Engine.setBusy (e : Engine) (i : Nat) (b : Bool) : Engine := { e with busy := putBit e.busy i b }

/-- PC advances by one and wraps from 4095 to 0 (R255). -/
def Engine.next (e : Engine) : Engine := { e with pc := e.pc + 1 }

/-- Engines run in P0 until they have agreed to a power entry, and on a wake from the end of its step 6 (R319, R323). -/
def Dev.engPower (d : Dev) : Bool :=
  match d.fldR A.pwrStatus 4 4 with
  | 0 => d.fldR A.pwrStatus 0 4 = 0
  | 1 => d.pwr.poll = 0
  | 2 => true
  | _ => 7 ≤ d.pwr.wakeStep

/-- The engine executes instructions now. -/
def Dev.engRuns (d : Dev) (e : Fin 72) : Bool := d.engs[e].run = .running && !d.flt.fatal && d.engPower

/-- The engine issues line, pointer and register accesses now: not in steps 1 to 4 of a full reset (Table 12.4). -/
def Dev.engIssues (d : Dev) (e : Fin 72) : Bool := d.engRuns e && !(within 1 4 d.rst.step)

/-- The instruction that the engine's PC points at, `none` for a word that no instruction has (R257). -/
def Dev.fetched (d : Dev) (e : Fin 72) : Option Instr := decodeEngine e (sget (0 : Word) d.engs[e].imem d.engs[e].pc.toNat)

/-! ### Events (R262) -/

/-- A waiting WAITE completes when a pending event is in its mask. -/
def Engine.wakeEvent (e : Engine) : Engine :=
  match e.wait with
  | .event mask rd =>
    let hit := e.events &&& mask
    if hit = 0 then e
    else ({ e with events := e.events &&& ~~~ hit, wait := .none, run := .running }.setW rd (hit.setWidth 48)).next
  | _ => e

/-- An event sets its bit (Table 10.9). -/
def Engine.setEvent (e : Engine) (b : Nat) : Engine := { e with events := putBit e.events b true }.wakeEvent

/-- Set event `b` on every engine in service that satisfies `c` (R262: each engine has its bits). -/
def Dev.eventWhere (d : Dev) (b : Nat) (c : Fin 72 → Engine → Bool) : Dev :=
  { d with engs := Vector.ofFn (fun i =>
      if d.engs[i].run ≠ .off && d.engs[i].run ≠ .fenced && c i d.engs[i] then d.engs[i].setEvent b else d.engs[i]) }

/-- Engine `e`'s SCOPE has subchannel `s` (Table 10.3): roles 1, 2 and 4 use it. -/
def Dev.inScope (d : Dev) (e : Fin 72) (s : Fin 8) : Bool :=
  (d.engs[e].role = 1 || d.engs[e].role = 2 || d.engs[e].role = 4) &&
    bit (BitVec.ofNat 8 (d.roleCfg d.engs[e].fromE.toNat 0x0A 1)) s.val

/-! ### Starting (R265) -/

/-- Reasons in w1. -/
def Engine.startAt (e : Engine) (entry reason w2 : Nat) : Engine :=
  { e with
    run := .running, pc := BitVec.ofNat 12 entry, wait := .none, window := none,
    regs := ((Vector.replicate 16 (0 : Word)).set 1 (BitVec.ofNat 48 reason)).set 2 (BitVec.ofNat 48 w2) }

/-- Start a role engine at ENTRY. -/
def Dev.startRole (d : Dev) (e : Fin 72) (reason w2 : Nat) : Dev :=
  d.modEng e (fun x => x.startAt (d.roleCfg x.fromE.toNat 2 2) reason w2)

/-- Keep only the protected words below `n`; every slot reads zero. -/
def Engine.wipeData (e : Engine) (n : Nat) : Engine :=
  { e with dmem := e.dmem.filter (fun c => c.1 < n), slots := [] }

/-! ### Reports -/

def engReport (e : Fin 72) (ev : Nat) : Report :=
  { event := BitVec.ofNat 8 ev, addr := 0, akind := 0, coord := coordEng e.val, master := some (masterEng e),
    access := 0 }

/-! ### Results of atomics (R260) and of pointer steps (R261) -/

/-- An access that returns POISON sets PF of the invocation (R267). -/
def Engine.notePf (x : Engine) (st : Status) : Engine :=
  if st = .poison then { x with inv := x.inv.map (fun (i : Inv) => { i with pf := true }) } else x

/-- The result of an LATOM: OLD in the pair, STATUS in [47:44] of its upper register; zero unless OK. -/
def Engine.latomResult (x : Engine) (rd : Fin 16) (st : Status) (old : BitVec 64) : Engine :=
  let v := if st = .ok then old else 0
  let y := x.setPair rd v
  (y.setW (succReg rd) (put (y.w (succReg rd)) 44 4 (statusCode st))).notePf st

/-- A waiting instruction ends: the engine goes on with the next one. -/
def Engine.resume (x : Engine) : Engine := { x with run := .running, wait := .none }.next

/-- The LATOM or LPOIS that the engine waits on completes (R260, Table 10.8); one of an earlier invocation, or of a fenced
engine, has no effect. -/
def Engine.atomDone (x : Engine) (gen : Nat) (st : Status) (old : BitVec 64) : Engine :=
  if x.gen ≠ gen || x.run ≠ .waiting then x
  else match x.wait with
    | .atom rd => (x.latomResult rd st old).resume
    | .pois rd => ((x.setW rd (BitVec.ofNat 48 (statusCode st))).notePf st).resume
    | _ => x

/-- The LSTEP that the engine waits on ends with an outcome in rd (R261). -/
def Engine.stepDone (x : Engine) (gen outcome : Nat) : Engine :=
  if x.gen ≠ gen || x.run ≠ .waiting then x
  else match x.wait with
    | .step rd => (x.setW rd (BitVec.ofNat 48 outcome)).resume
    | _ => x

/-! ### Ending kernels -/

/-- The invocation on engine `e` ends with a status and result (R267, R268); the engine becomes idle. -/
def Dev.endKernel (d : Dev) (e : Fin 72) (st : Status) (result : Word) : Dev :=
  match d.engs[e].inv with
  | none => d
  | some i =>
    (d.modEng e (fun x => { x with run := .idle, wait := .none, inv := none, tmr := false })).respond .k i.tag false
      (rspK i.tag i.src st result)

/-! ### Fence and takeover (R271 to R273) -/

/-- The spare that takes over: lowest in the cluster, else lowest anywhere. -/
def Dev.pickSpare (d : Dev) (e : Fin 72) : Option (Fin 72) :=
  let free := fun (i : Fin 72) => d.engs[i].unusedSpare && d.engs[i].run ≠ .fenced
  match allEngs.find? (fun i => free i && i.val / 9 = e.val / 9) with
  | some i => some i
  | none => allEngs.find? free

/-- Where a clean image comes from: the lowest engine in service with the same image, else the fenced engine itself
when its memories read without uncorrectable errors. -/
def Dev.imageSource (d : Dev) (e : Fin 72) : Option (Fin 72) :=
  match allEngs.find? (fun i => i ≠ e && d.engs[i].inService && d.engs[i].image = d.engs[e].image) with
  | some i => some i
  | none => if d.engs[e].fenceCause = 2 then none else some e

/-- The OPK that ran on a fenced engine (R273): an idempotent one re-runs on the spare. -/
def Dev.rerun (d : Dev) (inv : Option Inv) (moved : Option (Fin 72)) : Dev :=
  match inv with
  | none => d
  | some i =>
    match moved with
    | some sp => if d.kernFlag i.kidx.toNat 1 then { d with kq := { i with pf := false, onE := some sp } :: d.kq }
      else d.respond .k i.tag false (rspK i.tag i.src .opfault 0)
    | none => d.respond .k i.tag false (rspK i.tag i.src .opfault 0)

/-- The role of fenced engine `e` moves to a spare, or is lost (R272). `rep` reports a fault. -/
def Dev.takeover (rep : Dev → Nat → Report → Dev) (d : Dev) (e : Fin 72) : Dev :=
  let x := d.engs[e]
  let inv := x.inv
  let d0 := (((d.modEng e (fun y => { y with inv := none, role := 0 })).bump A.takeover 40 8).setFld A.takeover 33 7 e.val)
  let lost := fun (r : Nat) =>
    let dl := (((d0.setFld A.takeover 26 7 0).setFld A.takeover 24 2 r).setFld A.caps 20 7 (d.fldR A.caps 20 7 - 1))
    (rep dl e.val (engReport e 4)).rerun inv none
  match d.pickSpare e with
  | none => lost 2
  | some sp =>
    match d.imageSource e with
    | none => lost 3
    | some src =>
      let n := d.protWords src
      let d1 := d0.modEng sp (fun y => { y with
        role := x.role, image := x.image, fromE := x.fromE, unusedSpare := false, imem := d.engs[src].imem,
        dmem := d.engs[src].dmem.filter (fun c => c.1 < n), slots := [], stat := [], ended := [], busy := 0, run := .idle,
        events := 0, wait := .none, inv := none, window := none, gen := y.gen + 1 })
      let d2 := if within 1 4 x.role.toNat then d1.startRole sp 2 e.val else d1
      let d3 := ((d2.setFld A.takeover 26 7 sp.val).setFld A.takeover 24 2 1).setFld A.caps 27 4 (d.fldR A.caps 27 4 - 1)
      d3.rerun inv (some sp)

/-- Sillage FENCE record (Table 11.4, type 5). -/
def Dev.sillFence (d : Dev) (what : Nat) (coord : BitVec 16) (src : Nat) : Dev :=
  d.sillPush 5 coord src (BitVec.ofNat 48 what)

/-- Fence an engine (R271): `cause` is FENCE_CAUSE. -/
def Dev.fenceEngine (rep : Dev → Nat → Report → Dev) (d : Dev) (e : Fin 72) (cause : Nat) : Dev :=
  if d.engs[e].run = .fenced then d
  else
    let had := isRole d.engs[e].role.toNat
    let d1 := d.modEng e (fun x => { x with
      run := .fenced, fenceCause := BitVec.ofNat 4 cause, wait := .none, tmr := false, ended := [] })
    let d2 := rep (d1.sillFence 1 (coordEng e.val) e.val) e.val (engReport e 2)
    if had then d2.takeover rep e else d2

end Sys2Proof.Machine
end

