-- ==== Sys2Proof/Machine/Faults.lean ====
section
/-! DEFINITION. What a fault brings about: answers with a status (R103), fences (R291), FATAL (R292), reactions by
severity (R289). -/

namespace Sys2Proof.Machine

/-! ### Answers -/

/-- A request of the hub, not an access of the block's own. -/
def Held.isHub (h : Held) : Bool :=
  match h.who with
  | .hub .. => true
  | _ => false

/-- The message that answers a request of kind `op` with a status and nothing performed (Table 4.4). -/
def answerSlots (op : Op) (tag : BitVec 12) (src : BitVec 10) (st : Status) : Nat → List Slot :=
  match op with
  | .rd => rspD tag src st false false 0
  | .wr _ => rspC tag src st
  | .wrm _ _ => rspC tag src st
  | .flush => rspC tag src st
  | .atom .. => rspA tag src st 0
  | .opk .. => rspK tag src st 0
  | .mrd _ c => rspM tag src st c false []
  | .mwr _ c _ => rspM tag src st c true []
  | .pois => rspC tag src st

/-- The access of slot `k` has ended with a STATUS (R259, R267): the slot learns of it at LINE_ACCESS_DONE. Results for a
fenced engine are discarded (R271), and those of an earlier invocation. -/
def Engine.accessEnds (x : Engine) (k gen : Nat) (st : BitVec 4) (data : Option Line) : Engine :=
  if x.gen ≠ gen then x
  else if x.run = .fenced then x.setBusy k false
  else { x with ended := x.ended ++ [(k, st, data)] }

/-- The access of slot `k` completes: the slot holds its line and STATUS and is free; a POISON sets PF of the invocation,
and an instruction that waited for the slot goes on (R259, R267). -/
def Engine.accessDone (x : Engine) (k : Nat) (st : BitVec 4) (data : Option Line) : Engine :=
  let y := (x.setBusy k false).setStat k st
  let y1 := match data with
    | some l => y.setSlot k l
    | none => y
  let y2 := if st = 1 then { y1 with inv := y1.inv.map (fun (i : Inv) => { i with pf := true }) } else y1
  match y2.wait with
  | .slot s rd => if s.val = k then ({ y2 with wait := .none, run := .running }.setW rd (st.setWidth 48)).next else y2
  | .allSlots rd =>
    if y2.busy = 0 then
      let firstBad := ((List.range 32).map (fun i => y2.slotStat i)).find? (fun v => v ≠ 0)
      ({ y2 with wait := .none, run := .running }.setW rd ((firstBad.getD 0).setWidth 48)).next
    else y2
  | .start => if k = 0 then { y2 with wait := .none, run := .running } else y2
  | _ => y2

/-- A kernel whose SEND waited ends once every slot is free (R267). -/
def Dev.kernelSent (d : Dev) (e : Fin 72) : Dev :=
  match d.engs[e].wait with
  | .send v => if d.engs[e].busy = 0 then d.endKernel e (if d.engs[e].inv.any (fun i => i.pf) then .poison else .ok) v else d
  | _ => d

/-- The access of slot `k` of engine `e` ends (R259). -/
def Dev.engDone (d : Dev) (e : Fin 72) (k : Fin 32) (gen : Nat) (st : Status) (data : Option Line) : Dev :=
  d.modEng e (fun x => x.accessEnds k.val gen (BitVec.ofNat 4 (statusCode st)) data)

def Dev.atomDone (d : Dev) (e : Fin 72) (gen : Nat) (st : Status) (old : BitVec 64) : Dev :=
  d.modEng e (fun x => x.atomDone gen st old)

/-! ### FLUSH (R109) -/

/-- The write of request `rid` has reached the pins, or is left unissued (`bad`): no FLUSH waits for it any more. -/
def Dev.writeEnd (d : Dev) (rid : Nat) (bad : Bool) : Dev :=
  d.modTxn (fun x => { x with
    writes := x.writes.filter (· ≠ rid),
    flushes := x.flushes.map (fun (f : FlushWait) =>
      if f.cover.contains rid then { f with cover := f.cover.filter (· ≠ rid), poison := f.poison || bad } else f) })

/-- A pending FLUSH covers the entry. -/
def Dev.covers (d : Dev) (w : WrEnt) : Bool := d.txn.flushes.any (fun f => w.reqs.any (fun r => f.cover.contains r.1))

def Dev.setDrain (d : Dev) (p : Fin 4) (c : Nat) (b : Bool) : Dev :=
  d.modPort p (fun x => { x with drain := putBit x.drain c b })

/-- The FLUSH cause ends once the port holds no covered entry (Table 5.3). -/
def Dev.drainFlushEnd (d : Dev) (p : Fin 4) : Dev :=
  if (d.ports[p]).wrq.any (fun w => d.covers w) then d else d.setDrain p 4 false

/-! ### Answers to accesses -/

/-- A request or access that is not performed ends with a status (R103): the hub is answered, an engine's slot or
instruction completes. A Q request's latency is measured at its note, but a FLUSH is not timed (R146); a FLUSH is executed
by its answer (Table 4.8). -/
def Dev.answerHeld (d : Dev) (h : Held) (st : Status) : Dev :=
  match h.who with
  | .hub tag src =>
    let d1 := if h.op = .flush then d.respond h.vc tag false (answerSlots h.op tag src st)
      else d.respondRefused h.vc tag st (answerSlots h.op tag src st)
    let d2 := d1.writeEnd h.rid (st = .poison)
    if h.vc = .q && h.op ≠ .flush then d2.noteLatency h.r.note (d.cc + 1 - h.c0) else d2
  | .slot e k g => (d.engDone e k g st (match h.op with | .rd => some 0 | _ => none)).noteLatency h.r.note (d.cc - h.c0)
  | .latom e g => (d.atomDone e g st 0).noteLatency h.r.note (d.cc - h.c0)
  | _ => d

/-- A line that the tier access `id` reads is there, or cannot be read (`none`): the access goes on from it
(`Dev.tierStep`). -/
def Dev.tierGot (d : Dev) (id i : Nat) (data : Option Line) (corr fwd : Bool) : Dev :=
  d.modTier (fun t => { t with ops := t.ops.map (fun (o : TierOp) =>
    if o.id = id then { o with got := kvSet o.got i data, gotCorr := o.gotCorr || corr, gotFwd := o.gotFwd || fwd } else o) })

/-- A line of the tier access `id` has been loaded into the serialiser, or is left unissued (R244). -/
def Dev.tierLoaded (d : Dev) (id : Nat) : Dev :=
  d.modTier (fun t => { t with ops := t.ops.map (fun (o : TierOp) => if o.id = id then { o with wleft := o.wleft - 1 } else o) })

/-- The engine of a job learns the outcome. -/
def Dev.jobTells (d : Dev) (j : Job) (outcome : Nat) : Dev :=
  match j.e with
  | some (e, g) => d.modEng e (fun x => x.stepDone g outcome)
  | none => d

/-- Release the line lock that an atomic or a step held. -/
def Port.unlock (p : Port) (l : Loc) : Port := { p with locks := dropFirst (· = l) p.locks }

/-- A step that a fence stops (R291): its locks go, and its LSTEP ends IDLE. -/
def Dev.jobDrop (d : Dev) (id : Nat) : Dev :=
  match d.jobs.find? (fun j => j.id = id) with
  | none => d
  | some j =>
    let d1 := Dev.each (fun (x : Loc × KeyUse) y => y.modPort (locPort x.1) (fun p => p.unlock x.1)) j.lines
      { d with jobs := d.jobs.filter (fun k => k.id ≠ id) }
    d1.jobTells j 0

/-- A completion of a write entry is due (R108): the response, the engine's slot or instruction, or the step that the line
belongs to. -/
def Dev.complete (d : Dev) (c : Acc × Option (BitVec 64)) (st : Status) : Dev :=
  let a := c.1
  match a.who with
  | .hub tag src =>
    (d.respond .q tag a.late (match c.2 with
      | some old => rspA tag src st (if st = .ok then old else 0)
      | none => rspC tag src st)).noteLatency a.note (d.cc + 1 - a.c0)
  | .slot e k g => (d.engDone e k g st none).noteLatency a.note (d.cc - a.c0)
  | .latom e g => (d.atomDone e g st (c.2.getD 0)).noteLatency a.note (d.cc - a.c0)
  | .tier id _ => d.tierLoaded id
  | .job id _ => d.jobDrop id
  | .fill s => d.modProt s (fun x => { x with fillLeft := x.fillLeft - 1 })
  | .init => d.modTier (fun t => { t with initLeft := t.initLeft - 1 })
  | _ => d

/-- A read ends with a status and no data (R103): the hub is answered, an engine gets zero in its slot, a tier access's line
is unreadable; a merge read stays with its entry. -/
def Dev.abortRead (d : Dev) (op : RdOp) (a : Acc) (st : Status) : Dev :=
  match op, a.who with
  | .merge _, _ => d
  | .rd, .hub tag src =>
    (d.respondRefused .q tag st (rspD tag src st false false 0)).noteLatency a.note (d.cc + 1 - a.c0)
  | .atom .., .hub tag src =>
    ((d.respondRefused .q tag st (rspA tag src st 0)).writeEnd a.rid true).noteLatency a.note (d.cc + 1 - a.c0)
  | _, .slot e k g => (d.engDone e k g st (some 0)).noteLatency a.note (d.cc - a.c0)
  | _, .latom e g => (d.atomDone e g st 0).noteLatency a.note (d.cc - a.c0)
  | _, .tier id i => d.tierGot id i none false false
  | _, .pmc idx => d.modTier (fun t => { t with loaded := kvSet t.loaded idx.toNat none })
  | _, .job id _ => d.jobDrop id
  | _, _ => d

/-! ### Removing a subchannel's work (R291) -/

/-- A locked atomic's lock goes with it. -/
def RdEnt.isAtom (r : RdEnt) : Bool := match r.op with | .atom .. => true | _ => false

def Dev.dropRdEnt (d : Dev) (p : Fin 4) (r : RdEnt) : Dev :=
  let d1 := d.modPort p (fun x => let y := { x with rdq := x.rdq.filter (fun e => e.q ≠ r.q) }
                                  if r.isAtom then y.unlock r.loc else y)
  d1.abortRead r.op r.acc .poison

/-- A read in flight is dropped: its atomic's lock goes, and it ends POISON. -/
def Dev.dropFly (d : Dev) (s : Fin 8) (i : Inflight) : Dev :=
  let d1 := match i.op with
    | .atom .. => d.modPort (subPort s) (fun q => q.unlock i.loc)
    | _ => d
  d1.abortRead i.op i.acc .poison

/-- Fence subchannel `s` (R291): its queued reads end POISON, its write entries stay unissued and their completions are
POISON, reads in flight are dropped, operations on it stop and its tiles enter self-refresh. -/
def Dev.fenceSubCore (d : Dev) (s : Fin 8) : Dev :=
  let p := subPort s
  let d0 := { d with flt := { d.flt with subFence := putBit d.flt.subFence s.val true } }
  -- merge reads stay with their entries; every other read of the subchannel ends
  let isMerge : RdEnt → Bool := fun r => match r.op with | .merge _ => true | _ => false
  let d1 := Dev.each (fun r x => x.dropRdEnt p r)
    ((d0.ports[p]).rdq.filter (fun r => r.s = s && !isMerge r && !r.specWait)) d0
  let d2 := Dev.each (fun (w : WrEnt) x =>
    Dev.each (fun (n : Nat × BitVec 4) y => y.writeEnd n.1 true) w.reqs (Dev.each (fun c y => y.complete c .poison) w.comps x))
    ((d1.ports[p]).wrq.filter (fun w => w.s = s)) d1
  let d3 := (d2.modPort p (fun x => { x with wrq := x.wrq.map (fun (w : WrEnt) =>
    if w.s = s then { w with comps := [], hubs := [] } else w) })).drainFlushEnd p
  let d4 := Dev.each (fun (i : Inflight) x => x.dropFly s i) ((d3.phys[s]).inflight.filter (fun i => !i.drop)) d3
  let d5 := d4.modPhy s (fun x => { x with inflight := x.inflight.map (fun i => { i with drop := true }), test := none, testSent := false })
  -- a row move stops where it is, a PPR ends (log 52)
  let d6 := (d5.setFld (A.testStat s.val) 47 1 0).modProt s (fun x => { x with rowOp := x.rowOp.filter (fun o => o.kind = 1 || o.kind = 2) })
  Dev.each (fun t x => x.modTile t (fun y => if y.powered then { y with inSr := true, refUnit := false } else y))
    (subTiles s) (d6.setFld (A.ppr s.val) 18 1 0)

/-! ### FATAL (R292, R269) -/

/-- Every engine halts; running and queued OPKs complete POISON. -/
def Dev.fatalEngines (d : Dev) : Dev :=
  let d1 := Dev.each (fun e x => match x.engs[e].inv with
    | some i => (x.modEng e (fun y => { y with inv := none })).respondRefused .k i.tag .poison (rspK i.tag i.src .poison 0)
    | none => x) allEngs d
  let d2 := Dev.each (fun (i : Inv) x => x.respondRefused .k i.tag .poison (rspK i.tag i.src .poison 0)) d1.kq { d1 with kq := [] }
  { d2 with engs := d2.engs.map (fun (x : Engine) =>
      if x.run = .running || x.run = .waiting || x.run = .idle then { x with run := .halted, wait := .none } else x) }

/-- A message leaves the receive buffer. -/
def Dev.rxDrop (d : Dev) (h : Held) : Dev :=
  if !h.msg then d
  else d.modTxn (fun x => { x with rx := dropFirst (fun m => m.vc = h.vc && m.tag = h.r.tag) x.rx })

/-- At entry to FATAL every accepted Q request that has not executed is answered POISON at once; locks go. -/
def Dev.fatalQ (d : Dev) : Dev :=
  -- requests accepted and waiting for entries
  let isQ : Held → Bool := fun h => h.accepted && h.vc ≠ .m && h.decided.isNone && h.isHub
  let d1 := Dev.each (fun h x => (x.rxDrop h).answerHeld h .poison) (d.txn.held.filter isQ)
    (d.modTxn (fun x => { x with held := x.held.filter (fun h => !isQ h) }))
  -- queued hub reads, and atomics
  let ends : RdOp → Acc → Bool := fun op a => match op, a.who with
    | .rd, .hub .. => true
    | .atom .., _ => true
    | _, _ => false
  let d2 := Dev.each (fun p x =>
    Dev.each (fun r y => y.dropRdEnt p r) ((x.ports[p]).rdq.filter (fun r => ends r.op r.acc && !r.specWait)) x) allPorts d1
  -- those whose column command is loaded
  let d3 := Dev.each (fun s x =>
    let x1 := Dev.each (fun (i : Inflight) y => y.dropFly s i)
      ((x.phys[s]).inflight.filter (fun i => ends i.op i.acc && !i.drop)) x
    x1.modPhy s (fun f => { f with inflight := f.inflight.map (fun (i : Inflight) =>
      if ends i.op i.acc then { i with drop := true } else i) })) allSubs d2
  -- tier accesses that have not executed: reads, atomics, and writes not yet admitted (R114, R241)
  let unexec : TierOp → Bool := fun o => o.h.isHub && o.move.isNone && !o.executed
  let d4 := Dev.each (fun (o : TierOp) x => (x.rxDrop o.h).answerHeld o.h .poison) (d3.tier.ops.filter unexec)
    (d3.modTier (fun x => { x with ops := x.ops.filter (fun o => !unexec o),
                                   claims := x.claims - (x.ops.filter (fun o => unexec o && o.claim)).length }))
  -- FLUSHes, and the drains that waited for what they covered
  let d5 := Dev.each (fun (f : FlushWait) x => x.respond .q f.tag false (rspC f.tag f.src .poison)) d4.txn.flushes
    (d4.modTxn (fun x => { x with flushes := [] }))
  Dev.each (fun p x => x.drainFlushEnd p) allPorts d5

/-- Enter the FATAL state (R292). -/
def Dev.enterFatal (d : Dev) : Dev :=
  if d.flt.fatal then d
  else ({ d with flt := { d.flt with fatal := true } }.fatalEngines).fatalQ

/-! ### Reactions (R289, Table 11.3) -/

/-- The direction and lane of a link lane COORD. -/
def coordIsTx (c : BitVec 16) : Bool := bit c 12
def coordLaneNo (c : BitVec 16) : Nat := fld c 7 5

/-- The source's FENCED flag (Table 11.10). -/
def Dev.setFenced (d : Dev) (s : Nat) : Dev := d.setSrc s { d.srcAt s with fenced := true }

/-- Apply the fence of source `s` (R291). -/
def Dev.fence (rep : Dev → Nat → Report → Dev) (d : Dev) (s : Nat) (r : Report) : Dev :=
  match fenceTarget s with
  | .none => d
  -- an uncorrectable ECC error (event 5) is a cause of its own (R271)
  | .engine e => (d.setFenced s).fenceEngine rep e (if r.event = 5 then 2 else d.engs[e].fenceCause.toNat)
  | .sub t => ((d.setFenced s).sillFence 2 (coordCtl 0x09 t.val) s).fenceSubCore t
  | .port p =>
    let d1 := (d.setFenced s).sillFence 3 (coordCtl 0x04 p.val) s
    let d2 := { d1 with flt := { d1.flt with portFence := putBit d1.flt.portFence p.val true } }
    Dev.each (fun t x => x.fenceSubCore t) (portSubs p) d2
  | .lane =>
    let d1 := (d.setFenced s).sillFence 4 r.coord s
    if coordIsTx r.coord then d1
    else
      let q := d1.laneFailing (coordLaneNo r.coord)
      if q.2 then rep (q.1.linkDown true true 0) 124 (linkReport 1 0) else q.1
  | .linkReset => (d.setFenced s).linkDown true true 0

/-- The reaction of the level a source's current severity reached. -/
def Dev.react (rep : Dev → Nat → Report → Dev) (d : Dev) (s : Nat) (r : Report) (level : Nat) : Dev :=
  match level with
  | 2 => d.raiseAttn 4
  | 3 => d.raiseAttn 9
  | 4 => (d.raiseAttn 10).fence rep s r
  | 5 => (d.raiseAttn 11).enterFatal
  | _ => d

/-- Report with `n` levels of faults that a fence brings about in its turn. -/
def Dev.faultN : Nat → Dev → Nat → Report → Dev
  | 0, d, s, r => (d.recordFault s r false true true).1
  | n + 1, d, s, r =>
    let q := d.recordFault s r false true true
    q.1.react (Dev.faultN n) s r q.2

/-- A pulse of source `s`, seen by both collectors. A fence of an engine reports itself and may lose a role, whose fence
has no further effect; eight levels cover every chain. -/
def Dev.fault (d : Dev) (s : Nat) (r : Report) : Dev := Dev.faultN 8 d s r

/-- An occurrence as given from outside (R280, R282). -/
def Dev.faultFrom (d : Dev) (s : Nat) (r : Report) (level inA inB : Bool) : Dev :=
  let q := d.recordFault s r level inA inB
  q.1.react Dev.fault s r q.2

/-! ### Common faults -/

/-- A link failure: DOWN is reported and the link goes down (R89). -/
def Dev.linkFail (d : Dev) : Dev := (d.fault 124 (linkReport 1 0)).linkDown true true 0

/-- A KRX lane is declared failing; without a spare at width 10 the link fails (R82, R83). -/
def Dev.laneFail (d : Dev) (lane : Nat) : Dev :=
  let q := d.laneFailing lane
  if q.2 then q.1.linkFail else q.1

/-- Fence an engine for a cause (R271). -/
def Dev.engineFenced (d : Dev) (e : Fin 72) (cause : Nat) : Dev := d.fenceEngine Dev.fault e cause

/-- An engine trap (R264): recorded against its source; a kernel ends OPFAULT, a role engine halts. -/
def Dev.trap (d : Dev) (e : Fin 72) (cause : Nat) : Dev :=
  let d1 := (d.modEng e (fun x => { x with trap := BitVec.ofNat 4 cause })).bump (A.engCount e.val) 12 12
  let d2 := if d1.engs[e].isKernel then d1.endKernel e .opfault 0
    else d1.modEng e (fun x => { x with run := .halted, wait := .none })
  d2.fault e.val (engReport e 1)

end Sys2Proof.Machine
end

