-- ==== Sys2Proof/Machine/LineCode.lean ====
section
/-! DEFINITION. The line code (R196 to R206): symbols, check symbols, the fold of a location, decoding, poison. -/

namespace Sys2Proof.Machine

/-! ### GF(2^16) with 0x1_100B (R198) -/

def gfX (a : Nat) : Nat := let b := a <<< 1; if b.testBit 16 then b ^^^ 0x1100B else b

/-- Multiply by the low `n` bits of `b`. -/
def gfMulAux : Nat → Nat → Nat → Nat
  | 0, _, _ => 0
  | n + 1, a, b => (if b % 2 = 1 then a else 0) ^^^ gfMulAux n (gfX a) (b / 2)

def gfMul (a b : Nat) : Nat := gfMulAux 16 a b

/-- α^k. -/
def gfAlpha : Nat → Nat
  | 0 => 1
  | k + 1 => gfX (gfAlpha k)

/-- `a^(2^n - 1)` style chain: the product of a^(2^i) for i from 1 to n, which is the inverse for n = 15. -/
def gfInvAux : Nat → Nat → Nat
  | 0, _ => 1
  | n + 1, a => let b := gfMul a a; gfMul b (gfInvAux n b)

def gfInv (a : Nat) : Nat := gfInvAux 15 a

/-! ### Codewords -/

/-- The degree of logical position `j` (0 to 11): data symbol j has 4 + j, check symbol k = j − 8 has k (R198). -/
def posDegree (j : Nat) : Nat := if j < 8 then 4 + j else j - 8

/-- The degree of fold symbol `m` in codeword `c`. -/
def foldDegree (c m : Nat) : Nat := 12 + 3 * c + m

/-- The fold symbols of a location (R200). -/
def foldSymbols (l : Loc) : List Nat := [fld l 0 16, fld l 16 16, fld l 32 5]

/-- Coefficients of g(x) below x^4, lowest first: (x+1)(x+α)(x+α²)(x+α³) (R199). -/
def genStep (r : Nat) (p : List Nat) : List Nat :=
  List.zipWith (fun a b => gfMul a r ^^^ b) (p ++ [0]) (0 :: p)

def genPoly : List Nat := genStep 8 (genStep 4 (genStep 2 (genStep 1 [1])))

/-- One step of the division by g: `rem` is r0 to r3. -/
def remStep (rem : List Nat) (c : Nat) : List Nat :=
  let fb := c ^^^ rem.getD 3 0
  (List.range 4).map (fun i => (if i = 0 then 0 else rem.getD (i - 1) 0) ^^^ gfMul fb (genPoly.getD i 0))

/-- The coefficient of x^(d) of M(x): data and fold symbols of codeword `c`. -/
def msgCoef (c : Nat) (data fold : List Nat) (d : Nat) : Nat :=
  if d < 12 then data.getD (d - 4) 0
  else if within (foldDegree c 0) (foldDegree c 2) d then fold.getD (d - foldDegree c 0) 0 else 0

/-- Check symbols 0 to 3 of codeword `c` (R199). -/
def checkSymbols (c : Nat) (data fold : List Nat) : List Nat :=
  ((List.range 20).map (fun i => msgCoef c data fold (23 - i))).foldl remStep [0, 0, 0, 0]

/-- The poison constant (R203). -/
def poisonConst : List Nat := [0x9C41, 0x2B7E, 0xE3D5, 0x466A]

/-- Syndrome `i` of (degree, symbol) pairs. -/
def syndrome (i : Nat) (w : List (Nat × Nat)) : Nat :=
  w.foldl (fun acc x => acc ^^^ gfMul x.2 (gfAlpha (i * x.1))) 0

def syndromes (w : List (Nat × Nat)) : List Nat := (List.range 4).map (fun i => syndrome i w)

/-- SP: the syndromes of the poison constant (R201). -/
def poisonSyndromes : List Nat := syndromes ((List.range 4).zip poisonConst)

/-- Data symbols of codeword `c` of a line: line bytes 16c + 2j and 16c + 2j + 1 (Table 8.1). -/
def dataSymbols (l : Line) (c : Nat) : List Nat := (List.range 8).map (fun j => fld l (128 * c + 16 * j) 16)

/-- The twelve stored symbols of codeword `c`, by logical position; `inj` XORs check symbols (R203, R221). -/
def encodeCw (l : Line) (loc : Loc) (inj : Nat → List Nat) (c : Nat) : List Nat :=
  let data := dataSymbols l c
  data ++ List.zipWith (· ^^^ ·) (checkSymbols c data (foldSymbols loc)) (inj c)

/-- Where logical position `k` lies: the identity map, or the spare map for `L` (R205). -/
def physOf (spare : Option Nat) (k : Nat) : Nat := if spare = some k then 12 else k

/-- The burst of a line: 13 words, bits [16c+15:16c] of word p are the symbol of codeword c at position pp; idle and
steered-out positions are zero (R196, R205). -/
def encodeLine (l : Line) (loc : Loc) (spare : Option Nat) (inj : Nat → List Nat) : List (BitVec 64) :=
  let cws := (List.range 4).map (encodeCw l loc inj)
  (List.range 13).map (fun p =>
    match (List.range 12).find? (fun k => physOf spare k = p) with
    | some k => BitVec.ofNat 64 ((List.range 4).foldl (fun acc c => acc ||| ((cws.getD c []).getD k 0) <<< (16 * c)) 0)
    | none => 0)

/-- The poison constant in every codeword. -/
def poisonInj (_ : Nat) : List Nat := poisonConst
/-- Nothing added. -/
def noInj (_ : Nat) : List Nat := [0, 0, 0, 0]

/-! ### Decoding (R201) -/

/-- Outcomes of a codeword and of a line, best first. -/
inductive Outc where
  | clean
  | corrected
  | poisoned
  | uncorr
  | misdirected
deriving DecidableEq, Repr

def outcRank : Outc → Nat
  | .clean => 0
  | .corrected => 1
  | .poisoned => 2
  | .uncorr => 3
  | .misdirected => 4

/-- The product of (x + X) over the locators, as coefficients, lowest first. -/
def locPoly (xs : List Nat) : List Nat := xs.foldl (fun p x => genStep x p) [1]

/-- The value of a polynomial. -/
def polyEval (p : List Nat) (x : Nat) : Nat := p.foldr (fun a acc => a ^^^ gfMul x acc) 0

/-- Magnitudes at the given degrees that explain the syndromes; `none` when there are none. -/
def solveAt (syn : List Nat) (degs : List Nat) : Option (List Nat) :=
  let mags := degs.map (fun d =>
    let p := locPoly ((degs.filter (· ≠ d)).map gfAlpha)
    gfMul ((List.zipWith gfMul p syn).foldl (· ^^^ ·) 0) (gfInv (polyEval p (gfAlpha d))))
  if syndromes (degs.zip mags) = syn then some mags else none

/-- Sets of at most `n` of the given degrees, smallest sets first. -/
def degSets : Nat → List Nat → List (List Nat)
  | 0, _ => [[]]
  | n + 1, ds => [] :: ds.flatMap (fun d => (degSets n (ds.filter (fun e => d < e))).map (fun r => d :: r))

/-- Step 3 of R201: the erased degrees and a smallest set of further error degrees, with magnitudes. -/
def searchErrors (syn : List Nat) (erased cand : List Nat) (t : Nat) : Option (List (Nat × Nat) × List Nat) :=
  let sets := (List.range (t + 1)).flatMap (fun n => (degSets t cand).filter (fun s => s.length = n))
  sets.findSome? (fun f => (solveAt syn (erased ++ f)).map (fun m => ((erased ++ f).zip m, f)))

/-- Further errors per codeword with `e` erased positions (Table 8.3). -/
def errorLimit (e : Nat) : Nat := if e = 0 then 2 else 1

structure CwOut where
  outc : Outc
  /-- corrections as (degree, magnitude) -/
  fix : List (Nat × Nat)
  /-- degrees of the corrected symbols that R207 counts -/
  counted : List Nat
  /-- it needed step 3 or 4 of R201 -/
  slow : Bool
deriving DecidableEq, Repr

/-- Decode one codeword: received symbols by logical position, its location's fold, erased logical positions. -/
def decodeCw (c : Nat) (sym fold : List Nat) (erased : List Nat) : CwOut :=
  let stored := (List.range 12).map (fun j => (posDegree j, sym.getD j 0))
  let folds := (List.range 3).map (fun m => (foldDegree c m, fold.getD m 0))
  let syn := syndromes (stored ++ folds)
  let era := erased.map posDegree
  let cand := (stored.map Prod.fst).filter (fun d => !era.contains d)
  let t := errorLimit era.length
  if syn = [0, 0, 0, 0] then { outc := .clean, fix := [], counted := [], slow := false }
  else if syn = poisonSyndromes then { outc := .poisoned, fix := [], counted := [], slow := false }
  else
    match searchErrors syn era (cand ++ folds.map Prod.fst) t with
    | some (fix, f) =>
      if f.any (fun d => 12 ≤ d) then { outc := .misdirected, fix := [], counted := [], slow := true }
      else { outc := .corrected, fix := fix, counted := f, slow := true }
    | none =>
      match searchErrors (List.zipWith (· ^^^ ·) syn poisonSyndromes) era cand t with
      | some (fix, f) => { outc := .poisoned, fix := fix, counted := f, slow := true }
      | none => { outc := .uncorr, fix := [], counted := [], slow := true }

structure LineOut where
  outc : Outc
  data : Line
  /-- counted corrected symbols, by physical position, one entry each -/
  counted : List Nat
  /-- corrected symbols by logical position (self-test) -/
  logical : List Nat
  /-- some codeword needed step 3 or 4 (R202) -/
  slow : Bool
deriving DecidableEq, Repr

/-- The logical position of a stored degree. -/
def degreePos (d : Nat) : Nat := if d < 4 then d + 8 else d - 4

/-- Decode a burst (R201, R202): the worst outcome among the codewords, and the data after correction. `flip` XORs the
check symbols of codeword c (R221). -/
def decodeLine (burst : List (BitVec 64)) (loc : Loc) (spare : Option Nat) (erased : List Nat)
    (flip : Nat → List Nat) : LineOut :=
  let raw := fun c => (List.range 12).map (fun k =>
    fld (burst.getD (physOf spare k) 0) (16 * c) 16 ^^^ (if k < 8 then 0 else (flip c).getD (k - 8) 0))
  let outs := (List.range 4).map (fun c => decodeCw c (raw c) (foldSymbols loc) erased)
  let worst := outs.foldl (fun o x => if outcRank o < outcRank x.outc then x.outc else o) Outc.clean
  let dataOf := fun c => (List.range 8).map (fun j =>
    ((outs.getD c { outc := .clean, fix := [], counted := [], slow := false }).fix.foldl
      (fun s x => if x.1 = posDegree j then s ^^^ x.2 else s) ((raw c).getD j 0)))
  let line := (List.range 4).foldl (fun acc c =>
    (List.range 8).foldl (fun a j => a ||| ((dataOf c).getD j 0) <<< (128 * c + 16 * j)) acc) 0
  let logical := outs.flatMap (fun o => o.counted.map degreePos)
  { outc := worst, data := BitVec.ofNat 512 line, counted := logical.map (physOf spare), logical := logical,
    slow := outs.any (fun o => o.slow) }

/-! ### Steering state of a subchannel (R205, R206) -/

/-- The map in force for location `l`: `some L` is the spare map for L. -/
def Prot.mapFor (p : Prot) (l : Loc) : Option Nat :=
  if p.spareUsed && (!p.rebuild || locSweep l < p.p.toNat) then some p.spareFor.toNat else none

/-- The erased logical positions under a map: the two lowest-numbered dead positions that carry one (R205). -/
def Prot.erased (p : Prot) (spare : Option Nat) : List Nat :=
  (((List.range 13).filter (fun k => p.dead.getLsbD k)).filterMap
    (fun k => (List.range 12).find? (fun j => physOf spare j = k))).take 2

/-- Mode code of Table 8.3 under a map. -/
def Prot.mode (p : Prot) (spare : Option Nat) : Nat :=
  match (p.erased spare).length with
  | 0 => if spare.isSome then 1 else 0
  | 1 => 2
  | _ => 3

end Sys2Proof.Machine
end

