-- ==== Sys2Proof/Machine/JournalOps.lean ====
section
/-! DEFINITION. Shared operations of the spare journal (R217 to R219) and of row commands (R212, Table 8.4). -/

namespace Sys2Proof.Machine

/-- "SPJL" and "DONE". -/
def journalMagic : List Byte := [0x53, 0x50, 0x4A, 0x4C]
def journalDone : List Byte := [0x44, 0x4F, 0x4E, 0x45]

/-- The entry of a subchannel in a record (Table 8.6): MOVING and MPTR are zero. -/
def Dev.journalEntry (d : Dev) (s : Fin 8) : List Byte :=
  let p := d.prots[s]
  leBytes 2 p.dead.toNat ++ leBytes 1 (128 * b2n p.spareUsed + p.spareFor.toNat) ++ leBytes 5 0 ++
    leBytes 8 p.reinstate.toNat ++
    (List.range 128).flatMap (fun j => leBytes 8 ((d.reg (A.remap s.val j)) &&& ~~~ (ones 46 46 ||| ones 13 0)).toNat)

def Dev.journalSeq (d : Dev) : Nat := d.fldR A.journal 16 32

/-- Bytes 0x0000 to 0x20BF of the next record. -/
def Dev.journalBody (d : Dev) : List Byte :=
  journalMagic ++ leBytes 2 1 ++ leBytes 2 0 ++ leBytes 4 ((d.journalSeq + 1) % 2 ^ 32) ++ leBytes 52 0 ++
    allSubs.flatMap d.journalEntry

/-- The 16 B trailer of a body. -/
def journalTrailer (body : List Byte) : List Byte :=
  (body.drop 8).take 4 ++ leBytes 4 (crc32c body) ++ journalDone ++ leBytes 4 0

/-- Start a spare-journal record (R217); while one is under way or PWRFAIL_N is low the change waits for the next. -/
def Dev.journalStart (d : Dev) : Dev :=
  if d.journal.busy || d.journal.eraseDue || !d.pins.pwrfailN then { d with journal := { d.journal with dirty := true } }
  else { d with journal := { d.journal with busy := true, dirty := false, image := d.journalBody } }.setFld A.journal 14 1 1

/-- Flash byte of a journal slot. -/
def journalSlot (k : Nat) : Nat := 0x800000 + 0x4000 * k

/-- The slot that the next record goes into (R218). -/
def Dev.journalNext (d : Dev) : Nat := if bit (d.reg A.journal) 13 && !bit (d.reg A.journal) 15 then 1 else 0

/-- A slot is valid when DONE, SEQ2 and CRC agree (R218). -/
def journalValid (m : Memory) (k : Nat) : Bool :=
  let b := memReadList m (journalSlot k) 0x20CC
  let body := b.take 0x20C0
  let t := b.drop 0x20C0
  t.take 4 = (body.drop 8).take 4 && leNat ((t.drop 4).take 4) = crc32c body && (t.drop 8).take 4 = journalDone

/-- SEQ of a slot. -/
def journalSlotSeq (m : Memory) (k : Nat) : Nat := leNat (memReadList m (journalSlot k + 8) 4)

/-- The valid slot with the later SEQ (R218). -/
def journalPick (m : Memory) : Option Nat :=
  match journalValid m 0, journalValid m 1 with
  | true, true =>
    if (journalSlotSeq m 1 + 2 ^ 32 - journalSlotSeq m 0) % 2 ^ 32 < 2 ^ 31 && journalSlotSeq m 1 ≠ journalSlotSeq m 0
    then some 1 else some 0
  | true, false => some 0
  | false, true => some 1
  | false, false => none

/-- One subchannel takes a record's entry, with no rebuild (Table 8.4). -/
def Dev.journalTake (d : Dev) (m : Memory) (k : Nat) (s : Fin 8) : Dev :=
  let o := journalSlot k + 0x40 + 1040 * s.val
  let sp := leNat (memReadList m (o + 2) 1)
  let d1 := d.modProt s (fun x =>
    { x with dead := BitVec.ofNat 13 (leNat (memReadList m o 2)), spareUsed := sp.testBit 7, spareFor := BitVec.ofNat 4 sp,
             reinstate := BitVec.ofNat 64 (leNat (memReadList m (o + 8) 8)), rebuild := false, frozen := false, p := 0 })
  Dev.each (fun j x => x.setReg (A.remap s.val j)
    (BitVec.ofNat 48 (leNat (memReadList m (o + 16 + 8 * j) 6)) &&& ~~~ (ones 46 46 ||| ones 13 0))) (List.range 128) d1

/-- What the journal gives at power-on (R218). -/
def Dev.journalLoad (d : Dev) (m : Memory) : Dev :=
  match journalPick m with
  | none => d
  | some k =>
    Dev.each (fun s x => x.journalTake m k s) allSubs
      (d.setReg A.journal (pack [(16, journalSlotSeq m k), (15, k), (13, 1)]))

/-! ### Row commands -/

/-- A Sillage SPARING record (Table 11.4, type 10; log 82 for its COORD). -/
def Dev.sillSparing (d : Dev) (coord : BitVec 16) (ev : Nat) : Dev := d.sillPush 10 coord 0 (BitVec.ofNat 48 ev)

/-- The unit of a subchannel's line code as a COORD. -/
def protUnit (s : Fin 8) : BitVec 16 := coordCtl 0x09 s.val

/-- A row command that waited for a rebuild starts (Table 8.4); a MOVE or RETURN marks its entry (R212). -/
def Dev.rowOpStart (d : Dev) (s : Fin 8) : Dev :=
  match (d.prots[s]).rowOp with
  | none => d
  | some o =>
    let d1 := d.modProt s (fun x => { x with rowOp := some { o with waiting := false } })
    let a := A.remap s.val (fld o.v 39 7)
    match o.kind with
    | 1 => d1.setReg a (pack [(46, 1), (43, fld o.v 36 3), (40, fld o.v 33 3), (38, fld o.v 31 2), (20, fld o.v 13 18),
        (14, fld o.v 7 6)])
    | 2 => (d1.setFld a 7 7 0).setFld a 46 1 1
    | _ => d1

end Sys2Proof.Machine
end

