-- ==== Sys2Proof/Machine/PowerOps.lean ====
section
/-! DEFINITION. Shared operations of power entries and rollbacks (R318 to R321). -/

namespace Sys2Proof.Machine

def Dev.pwrState (d : Dev) : Nat := d.fldR A.pwrStatus 0 4
def Dev.pwrPhase (d : Dev) : Nat := d.fldR A.pwrStatus 4 4
def Dev.pwrTarget (d : Dev) : Nat := d.fldR A.pwrStatus 8 4

/-- The power state lets requests and accesses into the queues (R315, R319 to R323). -/
def Dev.powerOpen (d : Dev) : Bool := d.pwrState = 0 && (d.pwrPhase = 0 || (d.pwrPhase = 1 && d.pwr.poll ≤ 1))

/-- Sillage POWER record (Table 12.11). -/
def Dev.sillPower (d : Dev) (ev st refuser wake : Nat) : Dev :=
  d.sillPush 6 0 0 (pack [(0, ev), (4, st), (8, refuser), (11, wake)])

/-- Every port runs, none of them on its way out of self-refresh. -/
def Dev.portsRun (d : Dev) : Bool := allPorts.all (fun p => (d.ports[p]).sr = .run)

/-- The rollback of an entry: schedulers leave self-refresh (R163), or their entry ends at once; the phase is steady when
they run again (R320). -/
def Dev.resumePorts (d : Dev) : Dev :=
  { d with ports := d.ports.map (fun (p : Port) =>
      if p.srPower then
        { p with srPower := false, sr := if p.sr = .drain then .run else p.sr, srArrived := p.sr ≠ .drain }
      else p) }

/-- Block `b` (1 engines to 5 link) refuses the entry (R319, R320). -/
def Dev.refuseEntry (d : Dev) (b : Nat) : Dev :=
  if d.pwrPhase ≠ 1 then d
  else
    let d1 := (((d.resumePorts.bump A.refusals (8 * (b - 1)) 8).setFld A.pwrStatus 16 3 b).setFld A.pwrStatus 12 4 2)
    let d2 := d1.setFld A.pwrStatus 4 4 (if d1.portsRun then 0 else 2)
    { d2 with pwr := { d2.pwr with poll := 0, latched := 0, markDone := [] } }.sillPower 3 (d.pwrTarget) b 0

/-- A rollback is over once every port runs again. -/
def Dev.rollbackDone (d : Dev) : Dev :=
  if d.pwrPhase = 2 && d.portsRun then d.setFld A.pwrStatus 4 4 0 else d

/-- A request or engine access arrives at port `p` (R162, R163): before the first SRE it aborts the entry, and an aborted
power-state entry is refused by the schedulers; later it has the exit follow. -/
def Dev.arrive (d : Dev) (p : Fin 4) : Dev :=
  match (d.ports[p]).sr with
  | .drain =>
    let power := (d.ports[p]).srPower
    let d1 := (d.modPort p (fun x => { x with sr := .run })).bump (A.sr p.val) 16 16
    let d2 := { d1 with tiles := Vector.ofFn (fun (t : Fin 16) =>
      let x := d1.tiles[t]
      if tilePort t = p then { x with geyser := x.geyser && x.refUnit, geyserEnd := x.geyser && x.refUnit } else x) }
    if power then d2.refuseEntry 3 else d2.modPort p (fun x => { x with srPower := false })
  | .run => d
  | _ => if (d.ports[p]).srPower then d else d.modPort p (fun x => { x with srArrived := true })

end Sys2Proof.Machine
end

