-- ==== Sys2Proof/Machine/Queues.lean ====
section
/-! DEFINITION. The port queues (R105 to R109, R129 to R133): hazards, merging, forwarding, drain causes, and what a
completed read does to the queues. -/

namespace Sys2Proof.Machine

def Dev.popCfg (d : Dev) (t : Fin 16) (off n : Nat) : Nat := d.cfgLe Sec.population (0x20 + 64 * t.val + off) n

/-- PRESENT; a reserved value is unpredictable (R45): a free choice. -/
def presentOf (c : Memory) (t : Fin 16) : Bool :=
  let v := cfgOf c Sec.population (0x20 + 64 * t.val) 1
  if v = 0 then false else if v = 1 then true else Config.freeBool (v * 16 + t.val)

def Dev.present (d : Dev) (t : Fin 16) : Bool := presentOf d.cfg t
def Dev.feature (d : Dev) (t : Fin 16) (i : Nat) : Bool := bit (BitVec.ofNat 16 (d.popCfg t 4 2)) i

/-- The rows of a die (Table 7.3), none where no tile is present. A reserved DENSITY code is unpredictable (R6; DESIGN CHOICE,
log 87). -/
def Dev.rowCount (d : Dev) (t : Fin 16) : Nat :=
  if !d.present t then 0
  else match codeOf [1, 2, 3, 4] (d.popCfg t 1 1) with
  | 1 => 65536
  | 2 => 98304
  | 3 => 131072
  | _ => 262144

/-- The layers of a tile (Table 7.3), none where no tile is present. A reserved height is unpredictable (R6; DESIGN CHOICE,
log 87). -/
def Dev.stack (d : Dev) (t : Fin 16) : Nat := if d.present t then codeOf [1, 2, 4, 8] (d.popCfg t 2 1) else 0

/-! ### Rows (R212) -/

/-- The entry of the tile's remap table that names the row of `l`. -/
def Dev.remapFor (d : Dev) (l : Loc) : Option Word :=
  let s := locSub l
  ((List.range 64).map (fun j => d.reg (A.remap s.val (64 * locRank l + j)))).find? (fun v =>
    (bit v 47 || bit v 46) && fld v 43 3 = locCid l && fld v 40 3 = locBg l && fld v 38 2 = locBank l &&
      fld v 20 18 = locRow l)

/-- 1 when the port reserves marker rows (R165). -/
def Dev.markerRows (d : Dev) (p : Fin 4) : Nat := d.fldR A.ret (16 + p.val) 1

/-- The row that holds location `l`: its own, or the reserved row of its remap entry, column by column while the entry
moves (R212). -/
def Dev.physRow (d : Dev) (l : Loc) : BitVec 18 :=
  match d.remapFor l with
  | none => BitVec.ofNat 18 (locRow l)
  | some v =>
    let moved := decide (locCol l < fld v 7 7)
    let reserved := if bit v 46 then (if bit v 47 then !moved else moved) else true
    if reserved then BitVec.ofNat 18 (d.rowCount (locTile l) - d.markerRows (locPort l) - 1 - fld v 14 6)
    else BitVec.ofNat 18 (locRow l)

/-- The location whose row holds `l` (DEDUCED: the maps of R206 go by it, since a rebuild moves a retired row's lines in
their reserved row; log 28). -/
def Dev.physLoc (d : Dev) (l : Loc) : Loc :=
  (l &&& ~~~ BitVec.ofNat 37 ((2 ^ 18 - 1) <<< 12)) ||| ((d.physRow l).setWidth 37 <<< 12)

/-! ### Entries -/

def fullMask : BitVec 64 := ~~~ 0

def WrEnt.full (w : WrEnt) : Bool := w.mask = fullMask

/-- The entry that holds a line. -/
def Port.wrAt (p : Port) (l : Loc) : Option WrEnt := p.wrq.find? (fun w => w.loc = l)

def Port.locked (p : Port) (l : Loc) : Bool := p.locks.contains l

/-- The row that a write entry goes to: a row move writes to the other row (R212). -/
def Dev.entRow (d : Dev) (w : WrEnt) : BitVec 18 :=
  match w.carry with
  | some (.row r) => r
  | _ => d.physRow w.loc

/-- Takes a read entry (Table 5.2), given the entry that the line has: a WRM that merges, and an ATOM on a full entry, take
none. -/
def Op.needsRd (op : Op) (at? : Option WrEnt) : Bool :=
  match op with
  | .rd => true
  | .wrm m _ => m ≠ fullMask && at?.isNone
  | .atom .. => !(at?.any WrEnt.full)
  | _ => false

/-- Takes a write entry unless it merges (Table 5.2). -/
def Op.needsWr (op : Op) (at? : Option WrEnt) : Bool :=
  match op with
  | .wr _ => at?.isNone
  | .wrm _ _ => at?.isNone
  | .pois => at?.isNone
  | .atom .. => at?.isNone
  | _ => false

/-- The location of a held request or access, where it is known: its own, or that of its line in a direct region. A FLUSH
has none (Table 4.3). -/
def Dev.heldLoc (d : Dev) (h : Held) : Option Loc :=
  if h.op = .flush then none else match h.fixed with
  | some (l, _) => some l
  | none => match regionOf d.cfg (addrOf h.r.line) with
    | some k => if regionElastic d.cfg k then none else some (addrMap d.cfg h.r.line)
    | none => none

/-- Request or engine access, as R143 counts them; the block's own reads and writes of tables and fills are neither. -/
def Who.counted : Who → Bool
  | .pmc _ => false
  | .init => false
  | .fill _ => false
  | .none => false
  | _ => true

/-! ### Use of the entries (R129, R131, R143) -/

/-- Reads loaded whose data is due keep their entry until capture. -/
def Dev.flying (d : Dev) (p : Fin 4) : List Inflight :=
  (portSubs p).flatMap (fun s => (d.phys[s]).inflight.filter (fun i => !i.drop))

/-- Requests that wait behind a locked line of port `p` (R105), taken from the receive buffer with their entries. -/
def Dev.takenAt (d : Dev) (p : Fin 4) : List (Held × Loc) :=
  (d.txn.held.filter (fun h => h.taken)).filterMap (fun h => match d.heldLoc h with
    | some l => if locPort l = p then some (h, l) else none
    | none => none)

/-- Notes of the read entries in use. -/
def Dev.rdUse (d : Dev) (p : Fin 4) : List (BitVec 4) :=
  (d.ports[p]).rdq.map (fun r => r.acc.note) ++ (d.flying p).map (fun i => i.acc.note) ++
    ((d.takenAt p).filter (fun h => h.1.op.needsRd ((d.ports[p]).wrAt h.2))).map (fun h => h.1.r.note)

/-- Atomics that read their line own the write entry of their result, unless it will merge. -/
def Dev.atomNotes (d : Dev) (p : Fin 4) : List (BitVec 4) :=
  let own : RdOp → Loc → Bool := fun op l => match op with
    | .atom .. => ((d.ports[p]).wrAt l).isNone
    | _ => false
  ((d.ports[p]).rdq.filter (fun r => own r.op r.loc)).map (fun r => r.acc.note) ++
    ((d.flying p).filter (fun i => own i.op i.loc)).map (fun i => i.acc.note)

/-- Notes of the write entries in use. -/
def Dev.wrUse (d : Dev) (p : Fin 4) : List (BitVec 4) :=
  (d.ports[p]).wrq.map (fun w => w.note) ++ d.atomNotes p ++
    ((d.takenAt p).filter (fun h => h.1.op.needsWr ((d.ports[p]).wrAt h.2))).map (fun h => h.1.r.note)

/-- Is an entry of `total` free for note `n` (R131): note 15 has its reserve first, the rest is shared. -/
def entryFree (total res : Nat) (use : List (BitVec 4)) (n : BitVec 4) : Bool :=
  let fix := (use.filter (fun x => x = 15)).length
  let other := use.length - fix
  let shared := other + (fix - res)
  if n = 15 then fix < res || shared < total - res else shared < total - res

def Dev.rdFree (d : Dev) (p : Fin 4) (n : BitVec 4) : Bool := entryFree 512 (d.res p) (d.rdUse p) n
def Dev.wrFree (d : Dev) (p : Fin 4) (n : BitVec 4) : Bool := entryFree 256 (d.res p) (d.wrUse p) n

/-- Different numbers of a list. -/
def countDistinct : List Nat → Nat
  | [] => 0
  | x :: r => (if r.contains x then 0 else 1) + countDistinct r

/-- A note's outstanding count at a port (R143): its requests and engine accesses, each once. -/
def Dev.noteCount (d : Dev) (p : Fin 4) (n : BitVec 4) : Nat :=
  let mine : Acc → Bool := fun a => a.note = n && a.who.counted
  countDistinct
    (((d.ports[p]).rdq.filter (fun r => mine r.acc)).map (fun r => r.acc.rid) ++
      ((d.flying p).filter (fun i => mine i.acc)).map (fun i => i.acc.rid) ++
      (d.ports[p]).wrq.flatMap (fun w => (w.reqs.filter (fun r => r.2 = n)).map (fun r => r.1)) ++
      ((d.takenAt p).filter (fun h => h.1.r.note = n)).map (fun h => h.1.rid))

/-- Over budget (R143): a budget of zero always is (R8), once an Accord sets budgets (log 88). -/
def Dev.overBudget (d : Dev) (p : Fin 4) (n : BitVec 4) : Bool :=
  d.noteBudget n p < d.noteCount p n || (d.noteBudget n p = 0 && d.applied)

/-! ### Write drain (R132) -/

/-- Occupancy (R132). -/
def Dev.occupancy (d : Dev) (p : Fin 4) : Nat := (d.wrUse p).length

def Dev.wmHigh (d : Dev) (p : Fin 4) : Nat := d.fldR (A.wmark p.val) 16 9
def Dev.wmLow (d : Dev) (p : Fin 4) : Nat := d.fldR (A.wmark p.val) 0 9

/-- Start the drain causes whose condition holds (Table 5.3). -/
def Dev.drainStart (d : Dev) (p : Fin 4) : Dev :=
  let occ := d.occupancy p
  let hi := d.wmHigh p
  let d1 := if hi ≠ 0 && hi ≤ occ && !(d.ports[p]).drain.getLsbD 1 then
    (d.setDrain p 1 true).modPort p (fun x => { x with batch := x.wrq.map (fun w => w.q) }) else d
  let others := ((d.wrUse p).filter (fun n => n ≠ 15)).length
  let d2 := if hi = 0 && (256 - d.res p ≤ others || 256 ≤ occ) then d1.setDrain p 2 true else d1
  let d3 := if (d.ports[p]).wrq.any (fun w => w.aged) then d2.setDrain p 3 true else d2
  if (d.ports[p]).wrq.any (fun w => d.covers w) then d3.setDrain p 4 true else d3

/-- End the drain causes whose end has come, after a write issued; a full batch starts again (R132). -/
def Dev.drainEnd (d : Dev) (p : Fin 4) : Dev :=
  let occ := d.occupancy p
  let lo := d.wmLow p
  let x := d.ports[p]
  let end1 := if lo = d.wmHigh p then !(x.wrq.any (fun w => x.batch.contains w.q)) else occ ≤ lo
  let d1 := if end1 then d.setDrain p 1 false else d
  let d2 := if occ ≤ lo then d1.setDrain p 2 false else d1
  let d3 := if x.wrq.any (fun w => w.aged) then d2 else d2.setDrain p 3 false
  (d3.drainFlushEnd p).drainStart p

/-! ### Atomic arithmetic (R100) -/

/-- The old word, and the new line when the operation stores. OP: 1 ADD, 2 SWAP, 3 CAS; a reserved OP is unpredictable:
it may store a free word or nothing (R2, log 10). -/
def atomApply (op : BitVec 2) (w : BitVec 3) (compare value : BitVec 64) (l : Line) : BitVec 64 × Option Line :=
  let old := lineWord l w.toNat
  let n := old.toNat + value.toNat
  let new : Option (BitVec 64) :=
    match op with
    | 1 => some (old + value)
    | 2 => some value
    | 3 => if old = compare then some value else none
    | _ => if Config.freeBool n then some ((Config.freeLine n).setWidth 64) else none
  (old, new.map (fun v => putLineWord l w.toNat v))

/-! ### Accesses of the block's own -/

/-- A held access takes its place in arrival order. -/
def insertHeld (h : Held) : List Held → List Held
  | [] => [h]
  | x :: r => if h.rid < x.rid then h :: x :: r else x :: insertHeld h r

def Dev.hold (d : Dev) (h : Held) : Dev := d.modTxn (fun x => { x with held := insertHeld h x.held })

/-- An access to a known location, not a message: accepted as it stands. -/
def mkAccess (who : Who) (note : BitVec 4) (master : BitVec 11) (rid c0 : Nat) (line : LineAddr) (op : Op) (loc : Loc)
    (key : KeyUse) : Held :=
  { vc := .q, r := { tag := 0, src := 0, note := note, line := line }, op := op, who := who, master := master, rid := rid,
    c0 := c0, decided := none, accepted := true, taken := false, msg := false, fixed := some (loc, key), page := none }

/-- A fresh access number. -/
def Dev.tickRid (d : Dev) : Dev := d.modTxn (fun x => { x with nextRid := x.nextRid + 1 })

/-- A new access of the block itself to `loc` waits for its port; it wakes a port in self-refresh (R163). -/
def Dev.access (d : Dev) (who : Who) (note : BitVec 4) (master : BitVec 11) (line : LineAddr) (op : Op) (loc : Loc)
    (key : KeyUse) : Dev :=
  (d.tickRid.arrive (locPort loc)).hold (mkAccess who note master d.txn.nextRid d.cc line op loc key)

/-! ### The page map cache (R235) -/

def Dev.pmtBase (d : Dev) : Nat := d.cfgLe Sec.tiers 0x10 6
def Dev.pmtEntries (d : Dev) : Nat := d.cfgLe Sec.tiers 0x18 4

/-- The media line and byte of page map entry `idx` (R234). -/
def Dev.pmtLine (d : Dev) (idx : BitVec 32) : LineAddr := BitVec.ofNat 42 ((d.pmtBase + 16 * idx.toNat) / 64)
def Dev.pmtByte (d : Dev) (idx : BitVec 32) : Nat := (d.pmtBase + 16 * idx.toNat) % 64

/-- The first page map index of a media line that lies in the page map table. -/
def Dev.pmtFirst (d : Dev) (m : LineAddr) : Option Nat :=
  let b := d.pmtBase / 64
  if b ≤ m.toNat && m.toNat < b + ceilDiv d.pmtEntries 4 then some (4 * (m.toNat - b)) else none

/-- A dirty entry is written back to the page map table, at note 15. -/
def Dev.pmcWriteBack (d : Dev) (idx : BitVec 32) (e : BitVec 128) : Dev :=
  let m := d.pmtLine idx
  let o := d.pmtByte idx
  d.access .none 15 0 m (.wrm (BitVec.ofNat 64 (0xFFFF <<< o)) (e.setWidth 512 <<< (8 * o))) (addrMap d.cfg m) (KeyUse.plain m)

/-- Pages that an access, a move or a step is working on: their entries stay in the cache while others can go. -/
def Dev.pageBusy (d : Dev) (idx : Nat) : Bool :=
  d.tier.ops.any (fun o => o.idx.toNat = idx) || d.jobs.any (fun j => j.page.any (fun i => i.toNat = idx)) ||
    d.txn.held.any (fun h => h.page.any (fun i => i.toNat = idx))

/-- Put an entry into the cache; in a full set the victim is a free choice among the pages not in use, written back when
dirty. -/
def Dev.pmcPut (d : Dev) (idx : BitVec 32) (x : PmcEnt) : Dev :=
  match kvGet d.tier.pmc idx.toNat with
  | some _ => d.modTier (fun t => { t with pmc := kvSet t.pmc idx.toNat x })
  | none =>
    let ways := d.tier.pmc.filter (fun e => e.1 % 8192 = idx.toNat % 8192)
    if ways.length < 8 then d.modTier (fun t => { t with pmc := kvSet t.pmc idx.toNat x })
    else
      let idle := ways.filter (fun e => !d.pageBusy e.1)
      let pool := if idle = [] then ways else idle
      match pool[(Config.pmcVictim d.freeCtr).val % pool.length]? with
      | none => d.modTier (fun t => { t with pmc := kvSet t.pmc idx.toNat x })
      | some v =>
        let d1 := d.tickFree.modTier (fun t => { t with pmc := kvSet (kvDel t.pmc v.1) idx.toNat x })
        if v.2.dirty then d1.pmcWriteBack (BitVec.ofNat 32 v.1) v.2.e else d1

/-- Change an entry through the cache (R234). -/
def Dev.pmcWrite (d : Dev) (idx : BitVec 32) (e : BitVec 128) : Dev := d.pmcPut idx { e := e, dirty := true }

def Dev.pmcGet (d : Dev) (idx : BitVec 32) : Option (BitVec 128) := (kvGet d.tier.pmc idx.toNat).map (fun x => x.e)

/-- Every dirty entry is written back and clean (R235). -/
def Dev.pmcFlush (d : Dev) : Dev :=
  let dirty := d.tier.pmc.filter (fun e => e.2.dirty)
  (Dev.each (fun (e : Nat × PmcEnt) x => x.pmcWriteBack (BitVec.ofNat 32 e.1) e.2.e) dirty d).modTier
    (fun t => { t with pmc := t.pmc.map (fun e => (e.1, { e.2 with dirty := false })) })

/-- The table line of page `idx` has been read: its entry fills the cache (R235); a line that cannot be read leaves the
entry a free value (log 10). -/
def Dev.pmcFill (d : Dev) (idx : BitVec 32) (table : Option Line) : Dev :=
  match d.pmcGet idx, table with
  | some _, _ => d
  | none, some l => d.pmcPut idx { e := l.extractLsb' (8 * d.pmtByte idx) 128, dirty := false }
  | none, none => d.tickFree.pmcPut idx { e := (Config.freeLine d.freeCtr).setWidth 128, dirty := false }

/-- What the cache holds of a line of the page map table, by byte mask (R253). -/
def Dev.pmtOverlay (d : Dev) (m : LineAddr) : Option (BitVec 64 × Line) :=
  (d.pmtFirst m).map (fun n => (List.range 4).foldl (fun (acc : BitVec 64 × Line) i =>
    match d.pmcGet (BitVec.ofNat 32 (n + i)) with
    | some e => (acc.1 ||| BitVec.ofNat 64 (0xFFFF <<< (16 * i)), acc.2 ||| (e.setWidth 512 <<< (128 * i)))
    | none => acc) (0, 0))

/-- What the pool's accounting holds of a line of the bitmap: one byte for each block (R239). -/
def Dev.bitmapOverlay (d : Dev) (m : LineAddr) : Option (BitVec 64 × Line) :=
  let b := d.cfgLe Sec.tiers 0x20 6 / 64
  let n := d.cfgLe Sec.tiers 0x08 8
  if b ≤ m.toNat && m.toNat < b + ceilDiv n 64 then
    let first := 64 * (m.toNat - b)
    some ((List.range 64).foldl (fun (acc : BitVec 64 × Line) i =>
      let v : Nat := match kvGet d.tier.pool (first + i) with
        | some .frame => 255
        | some (.tier used) => used.toNat
        | none => 0
      if first + i < n then (putBit acc.1 i true, acc.2 ||| BitVec.ofNat 512 (v <<< (8 * i))) else acc) (0, 0))
  else none

/-- What an access by media address sees over the line's stored bytes. -/
def Dev.overlay (d : Dev) (m : LineAddr) : Option (BitVec 64 × Line) := (d.pmtOverlay m).or (d.bitmapOverlay m)

def overLine (ov : Option (BitVec 64 × Line)) (l : Line) : Line :=
  match ov with
  | some (mask, v) => mergeLine mask v l
  | none => l

/-- A write of a page map table line goes through the cache (R234, R253): the entries that it holds take the new bytes;
with a poisoned line they leave it. -/
def Dev.pmtWrote (d : Dev) (m : LineAddr) (l : Option Line) : Dev :=
  match d.pmtFirst m with
  | none => d
  | some n =>
    let put := fun (c : List (Nat × PmcEnt)) (i : Nat) =>
      match kvGet c (n + i), l with
      | some _, some v => kvSet c (n + i) { e := v.extractLsb' (128 * i) 128, dirty := true }
      | some _, none => kvDel c (n + i)
      | none, _ => c
    d.modTier (fun t => { t with pmc := (List.range 4).foldl put t.pmc })

/-! ### Entering the queues -/

/-- The access as the queues know it. The latency of an access that is no request of the hub starts here (R146). -/
def Dev.accOf (d : Dev) (h : Held) : Acc :=
  { who := h.who, note := h.r.note, master := h.master, rid := h.rid, c0 := if h.isHub then h.c0 else d.cc,
    placed := d.notePlaced h.r.note, late := false }

/-- Its end is told when the entry's WR is loaded, whatever the note says: the lines of tier accesses, steps and fills. -/
def Who.told : Who → Bool
  | .tier .. => true
  | .job .. => true
  | .fill _ => true
  | .init => true
  | _ => false

/-- Put bytes of a line into the write queue of port `p`: merge into the line's entry, or open one (R105). A full mask
clears the poison mark unless the bytes are poison themselves. -/
def Port.putWrite (x : Port) (loc : Loc) (key : KeyUse) (mask : BitVec 64) (data : Line) (poison : Bool) (acc : Acc)
    (comps : List (Acc × Option (BitVec 64))) (carry : Option Carry) : Port :=
  let hubs := (match acc.who with | .hub .. => [acc.rid] | _ => [] : List Nat)
  let reqs := if acc.who.counted then [(acc.rid, acc.note)] else []
  match x.wrAt loc with
  | some _ =>
    { x with wrq := x.wrq.map (fun (w : WrEnt) =>
        if w.loc = loc then
          { w with
            key := if key.pinned then key else w.key,
            mask := w.mask ||| mask, data := mergeLine mask data w.data,
            poison := if mask = fullMask then poison else w.poison || poison,
            merging := w.merging && mask ≠ fullMask, comps := w.comps ++ comps, hubs := w.hubs ++ hubs,
            reqs := w.reqs ++ reqs, carry := carry.or w.carry }
        else w) }
  | none =>
    { x with
      nextQ := x.nextQ + 1,
      wrq := x.wrq ++ [{ q := x.nextQ, s := locSub loc, loc := loc, key := key, mask := mask, data := data,
                         poison := poison, merging := mask ≠ fullMask, note := acc.note, master := acc.master, t0 := x.cyc,
                         promo := 0, aged := false, comps := comps, hubs := hubs, reqs := reqs, carry := carry,
                         discards := 0, penHeld := false }] }

/-- A read entry. -/
def Port.putRead (x : Port) (loc : Loc) (key : KeyUse) (op : RdOp) (acc : Acc) (ov : Option (BitVec 64 × Line))
    (spec : Bool) : Port :=
  { x with
    nextQ := x.nextQ + 1,
    rdq := x.rdq ++ [{ q := x.nextQ, s := locSub loc, loc := loc, key := key, op := op, acc := acc, ov := ov,
                       t0 := x.cyc, promo := 0, specWait := spec, picked := false, discards := 0, penHeld := false }] }

/-- What a write entry that a step wrote carries (R210, R212). -/
def Dev.carryOf (d : Dev) (acc : Acc) (loc : Loc) : Option Carry :=
  match acc.who with
  | .job id _ =>
    match (d.jobs.find? (fun j => j.id = id)).map Job.kind with
    | some (.rebuild _) => some .rebuild
    | some (.row s) =>
      match (d.prots[s]).rowOp with
      | some o => some (.row (if o.kind = 1 then
          BitVec.ofNat 18 (d.rowCount (locTile loc) - d.markerRows (locPort loc) - 1 - fld o.v 7 6) else BitVec.ofNat 18 (locRow loc)))
      | none => none
    | _ => none
  | _ => none

/-- A write enters the queue (R106, R108): a posted one is complete now. An LPOIS lasts until it is queued (Table 10.8). -/
def Dev.enterWrite (d : Dev) (p : Fin 4) (loc : Loc) (key : KeyUse) (mask : BitVec 64) (data : Line)
    (poison : Bool) (acc : Acc) : Dev :=
  let queued := match acc.who with | .latom .. => true | _ => false
  let later := acc.who.told || (acc.placed && !queued)
  let had := (d.ports[p]).wrAt loc
  let d1 := d.modPort p (fun x => x.putWrite loc key mask data poison acc (if later then [(acc, none)] else []) (d.carryOf acc loc))
  -- a partial WRM that opened an entry reads the line (R106)
  let d2 := match had with
    | none =>
      if mask = fullMask then d1
      else d1.modPort p (fun x => x.putRead loc key (.merge (x.nextQ - 1)) acc none false)
    | some _ => d1
  let d3 := match acc.who with
    | .hub tag _ => d2.markExec .q tag
    | _ => d2
  (if later then d3 else d3.complete (acc, none) .ok).drainStart p

/-! ### Results of reads -/

/-- What a read delivers: `none` for a poisoned or uncorrectable line. -/
structure ReadRes where
  data : Option Line
  corr : Bool
  fwd : Bool
  /-- the line was uncorrectable, not only poisoned -/
  bad : Bool
  /-- core cycles from capture to the building of the response (R113) -/
  extra : Nat
deriving DecidableEq, Repr

/-- The status of a read result. -/
def ReadRes.status (r : ReadRes) : Status := if r.data.isSome then .ok else .poison

/-- What a read takes from a write entry (R105). -/
def WrEnt.forward (w : WrEnt) : ReadRes :=
  { data := if w.poison then none else some w.data, corr := false, fwd := true, bad := false, extra := 0 }

/-- Outcomes of R261. -/
def outcClean : Nat := 1
def outcCorrected : Nat := 2
def outcPoisoned : Nat := 3
def outcSkipped : Nat := 4
def outcEnd : Nat := 5

def ReadRes.outcome (r : ReadRes) : Nat := if r.bad then outcPoisoned else if r.corr then outcCorrected else outcClean

/-- A line of step `id` has been read (R210, R215, R231): it is written again, but a scrub rewrites only a line that was
corrected or is uncorrectable. A line taken from a pending entry is plaintext: it goes back under that entry's key. -/
def Dev.jobGot (d : Dev) (id i : Nat) (r : ReadRes) (fwdKey : Option KeyUse) : Dev :=
  match d.jobs.find? (fun j => j.id = id) with
  | none => d
  | some j =>
    match j.lines[i]? with
    | none => d
    | some (loc, k0) =>
      let key := if k0.pinned then k0 else fwdKey.getD k0
      let keep := match j.kind with | .scrub _ => r.fwd || !(r.corr || r.bad) | _ => false
      let d1 := { d with jobs := d.jobs.map (fun (x : Job) =>
        if x.id = id then
          { x with worst := max x.worst r.outcome, left := if keep then x.left - 1 else x.left,
                   lines := x.lines.set i (loc, key) }
        else x) }
      if keep then d1
      else d1.tickRid.hold (mkAccess (.job id i) j.note j.master d1.txn.nextRid d1.cc key.media
        (match r.data with | some l => .wr l | none => .pois) loc key)

/-- A plain read completes (R101, R105, R235, R243, R259): the line as it is seen through `ov`. `fwdKey`: it came from a
write entry under this key. -/
def Dev.deliverRead (d : Dev) (acc : Acc) (ov : Option (BitVec 64 × Line)) (r0 : ReadRes) (fwdKey : Option KeyUse) : Dev :=
  let r := { r0 with data := r0.data.map (overLine ov) }
  let now := d.cc + r.extra
  match acc.who with
  | .hub tag src =>
    (d.respond .q tag false (rspD tag src r.status (r.corr && r.data.isSome) r.fwd (r.data.getD 0))).noteLatency acc.note
      (now + 1 - acc.c0)
  | .slot e k g => (d.engDone e k g r.status (some (r.data.getD 0))).noteLatency acc.note (now - acc.c0)
  | .tier id i => d.tierGot id i r.data r.corr r.fwd
  | .pmc idx => d.modTier (fun t => { t with loaded := kvSet t.loaded idx.toNat r.data })
  | .job id i => d.jobGot id i r fwdKey
  | _ => d

/-- The atomic's answer: the hub's, or the engine's. -/
def Dev.atomAnswer (d : Dev) (acc : Acc) (st : Status) (old : BitVec 64) : Dev := d.complete (acc, some old) st

/-- The operation of an atomic on the line it finds (R107): a poisoned line is written back as poison and answered
POISON with OLD zero; a CAS that fails writes nothing. -/
def Dev.atomOn (d : Dev) (p : Fin 4) (loc : Loc) (key : KeyUse) (acc : Acc) (op : BitVec 2) (w : BitVec 3)
    (compare value : BitVec 64) (ov : Option (BitVec 64 × Line)) (line : Option Line) : Dev :=
  let exec : Dev → Dev := fun x => match acc.who with
    | .hub tag _ => x.markExec .q tag
    | _ => x
  let wrote : Dev → Option Line → Dev := fun x l => if ov.isSome then x.pmtWrote key.media l else x
  match line with
  | none =>
    let d1 := exec (d.modPort p (fun x => x.putWrite loc key fullMask 0 true acc [] none))
    ((wrote d1 none).atomAnswer acc .poison 0).drainStart p
  | some l =>
    let res := atomApply op w compare value (overLine ov l)
    match res.2 with
    | none => (d.atomAnswer acc .ok res.1).writeEnd acc.rid false
    | some l' =>
      let d1 := exec (d.modPort p (fun x => x.putWrite loc key fullMask l' false acc
        (if acc.placed then [(acc, some res.1)] else []) none))
      let d2 := wrote d1 (some l')
      (if acc.placed then d2 else d2.atomAnswer acc .ok res.1).drainStart p

/-- Remove read entry `q`. -/
def Port.dropRead (x : Port) (q : Nat) : Port := { x with rdq := x.rdq.filter (fun r => r.q ≠ q) }

/-- A read entry's line is there: it is delivered, or operated on. -/
def Dev.serveRead (d : Dev) (p : Fin 4) (loc : Loc) (key : KeyUse) (op : RdOp) (acc : Acc) (ov : Option (BitVec 64 × Line))
    (r : ReadRes) (fwdKey : Option KeyUse) : Dev :=
  match op with
  | .rd => d.deliverRead acc ov r fwdKey
  | .atom o w cmp v => (d.modPort p (fun x => x.unlock loc)).atomOn p loc key acc o w cmp v ov r.data
  | .merge _ => d

/-- Serve the read entries that wait for the line's entry, now that it is full, in queue order (R105, R107). -/
def Dev.forwardReady (d : Dev) (p : Fin 4) (loc : Loc) : Dev :=
  match (d.ports[p]).wrAt loc with
  | none => d
  | some e =>
    if !e.full then d
    else
      Dev.each (fun (r : RdEnt) x =>
        match (x.ports[p]).wrAt loc, r.op with
        | none, _ => x
        | _, .merge _ => x
        | some w, _ => (x.modPort p (fun y => y.dropRead r.q)).serveRead p loc w.key r.op r.acc r.ov w.forward (some w.key))
        ((d.ports[p]).rdq.filter (fun r => r.loc = loc && e.q < r.q && !r.specWait)) d

/-- The merge read of write entry `q` returns (R106). -/
def Dev.mergeDone (d : Dev) (p : Fin 4) (q : Nat) (line : Option Line) : Dev :=
  match (d.ports[p]).wrq.find? (fun w => w.q = q) with
  | none => d
  | some w =>
    if !w.merging then d
    else
      let d1 := d.modPort p (fun x => { x with wrq := x.wrq.map (fun (e : WrEnt) =>
        if e.q = q then
          { e with
            mask := fullMask, merging := false, poison := e.poison || line.isNone,
            data := match line with | some l => mergeLine e.mask e.data l | none => e.data }
        else e) })
      d1.forwardReady p w.loc

end Sys2Proof.Machine
end

