-- ==== Sys2Proof/Machine/Jobs.lean ====
section
/-! DEFINITION. Steps that lock, read and write lines: rebuild (R208 to R211), patrol scrub (R215), rotation (R231), row
moves column by column (R212); the fill (R216) and the writing of the page map table (R240). -/

namespace Sys2Proof.Machine

/-! ### Pointers over a subchannel -/

/-- The first location at or after sweep position `p` that the DRAM fitted has; `n` bounds the jumps over absent tiles,
layers and rows. -/
def Dev.skipTo (d : Dev) (s : Fin 8) : Nat → Nat → Option Nat
  | 0, _ => none
  | n + 1, p =>
    let l := sweepLoc s p
    let t := locTile l
    if 2 ^ 34 ≤ p then none
    else if !d.present t || d.stack t ≤ locCid l then d.skipTo s n ((p / 2 ^ 30 + 1) * 2 ^ 30)
    else if d.rowCount t ≤ locRow l then d.skipTo s n ((p / 2 ^ 30 + 1) * 2 ^ 30)
    else some p

def Dev.sweepFrom (d : Dev) (s : Fin 8) (p : Nat) : Option Nat := d.skipTo s 40 p

/-- The valid entries of the tile of `l` in its bank. -/
def Dev.bankEntries (d : Dev) (l : Loc) : List Word :=
  ((List.range 64).map (fun j => d.reg (A.remap (locSub l).val (64 * locRank l + j)))).filter (fun v =>
    bit v 47 && fld v 43 3 = locCid l && fld v 40 3 = locBg l && fld v 38 2 = locBank l)

/-- The spare index of a reserved row (R212); `none` for any other row. -/
def Dev.spareIndex (d : Dev) (l : Loc) : Option Nat :=
  let top := d.rowCount (locTile l) - d.markerRows (locPort l)
  let rows := d.protCfg (locSub l) 0x0C 1
  if locRow l < top && top - rows ≤ locRow l then some (top - 1 - locRow l) else none

def Dev.isMarkerRow (d : Dev) (l : Loc) : Bool :=
  d.markerRows (locPort l) = 1 && locRow l + 1 = d.rowCount (locTile l)

/-- Rows a sweep skips: retired ones and reserved ones without a valid entry. -/
def Dev.sweepSkips (d : Dev) (l : Loc) : Bool :=
  (d.bankEntries l).any (fun v => fld v 20 18 = locRow l) ||
    (match d.spareIndex l with
      | some k => !(d.bankEntries l).any (fun v => fld v 14 6 = k)
      | none => false)

/-- The line that a location holds: in a reserved row, the line of the row that its entry retires (log 28). -/
def Dev.lineAt (d : Dev) (l : Loc) : Loc :=
  match d.spareIndex l with
  | some k => match (d.bankEntries l).find? (fun v => fld v 14 6 = k) with
    | some v => mkLoc (locPort l).val (fld l 34 1) (locRank l) (locCid l) (fld v 20 18) (locBg l) (locBank l) (locCol l)
    | none => l
  | none => l

/-! ### Steps -/

/-- A line is locked by an atomic or by a step. -/
def Dev.lineLocked (d : Dev) (l : Loc) : Bool := (d.ports[locPort l]).locked l

/-- A step takes its locks and reads its lines (R210): by its own access to each of them. `lines` are the locations with
the keys that their writes use. -/
def Dev.jobStart (d : Dev) (kind : JobKind) (e : Option (Fin 72 × Nat)) (note : BitVec 4) (master : BitVec 11)
    (page : Option (BitVec 32)) (lines : List (Loc × KeyUse)) : Dev :=
  let id := d.nextJob
  let j : Job := { id := id, kind := kind, e := e, note := note, master := master, page := page, lines := lines,
                   left := lines.length, worst := outcClean }
  let d1 := { d with jobs := d.jobs ++ [j], nextJob := id + 1 }
  let d2 := Dev.each (fun (x : Loc × KeyUse) y => y.modPort (locPort x.1) (fun p => { p with locks := p.locks ++ [x.1] })) lines d1
  Dev.each (fun (x : (Loc × KeyUse) × Nat) y =>
    y.access (.job id x.2) note master x.1.2.media .rd x.1.1 { x.1.2 with pinned := false }) lines.zipIdx d2

/-- The step is over: its locks go. -/
def Dev.jobFree (d : Dev) (j : Job) : Dev :=
  Dev.each (fun (x : Loc × KeyUse) y => y.modPort (locPort x.1) (fun p => p.unlock x.1)) j.lines
    { d with jobs := d.jobs.filter (fun k => k.id ≠ j.id) }

/-! ### Row moves (R212) -/

/-- Column `c` of the row that a command names. -/
def rowOpLoc (s : Fin 8) (v : Word) (c : Nat) : Loc :=
  mkLoc (subPort s).val (s.val % 2) (fld v 39 7 / 64) (fld v 36 3) (fld v 13 18) (fld v 33 3) (fld v 31 2) c

/-- The remap entry that a row command uses. -/
def rowOpEntry (s : Fin 8) (v : Word) : Nat := A.remap s.val (fld v 39 7)

/-- The row that a RETURN moves back is the one its entry names; a MOVE names it itself. -/
def Dev.rowOpLine (d : Dev) (s : Fin 8) (o : RowOp) (c : Nat) : Loc :=
  let e := d.reg (rowOpEntry s o.v)
  if o.kind = 1 then rowOpLoc s o.v c
  else mkLoc (subPort s).val (s.val % 2) (fld o.v 39 7 / 64) (fld e 43 3) (fld e 20 18) (fld e 40 3) (fld e 38 2) c

def Dev.rowJob (d : Dev) (s : Fin 8) : Option Job := d.jobs.find? (fun j => j.kind = .row s)

/-- The column at MPTR is copied next, under its line lock; the copy runs at note 15 (log 23). -/
def Dev.rowGo (d : Dev) (s : Fin 8) : Dev :=
  match (d.prots[s]).rowOp with
  | none => d
  | some o =>
    if o.waiting || !(o.kind = 1 || o.kind = 2) || (d.rowJob s).isSome || d.rst.step ≠ 0 ||
        d.subFenced s || !d.powerOpen then d
    else
      let l := d.rowOpLine s o (d.fldR (rowOpEntry s o.v) 7 7)
      if d.lineLocked l then d else d.jobStart (.row s) none 15 0 none [(l, KeyUse.byLoc)]

/-- A row command that waited for a rebuild starts (Table 8.4). -/
def Dev.rowBegin (d : Dev) (s : Fin 8) : Dev := (d.rowOpStart s).rowGo s

/-! ### Ends of steps -/

/-- The rebuild is complete. -/
def Dev.rebuildEnd (d : Dev) (s : Fin 8) : Dev :=
  ((((d.modProt s (fun x => { x with rebuild := false })).sillSparing (protUnit s) 3).raiseAttn 5).journalStart).rowBegin s

/-- P passes location `p` (R210): the flag says that the rebuild is complete. -/
def Dev.rebuildAdvance (d : Dev) (s : Fin 8) (p : Nat) : Dev × Bool :=
  match d.sweepFrom s (p + 1) with
  | some n => (d.modProt s (fun y => { y with p := BitVec.ofNat 34 n }), false)
  | none => ((d.modProt s (fun y => { y with p := BitVec.ofNat 34 (p + 1) })).rebuildEnd s, true)

/-- The scrub pointer passes location `p` (R215): the flag says that a pass is complete. -/
def Dev.scrubAdvance (d : Dev) (s : Fin 8) (p : Nat) : Dev × Bool :=
  match d.sweepFrom s (p + 1) with
  | some n => (d.setFld (A.scrub s.val) 0 34 n, false)
  | none => ((d.setFld (A.scrub s.val) 0 34 0).bump (A.scrub s.val) 34 14, true)

/-- The region's end: the current epoch becomes NEW (R231). -/
def Dev.rotateEnd (d : Dev) (r : Nat) : Dev :=
  (((d.setReg (A.epoch r) (d.reg (A.nextEpoch r))).setReg (A.nextEpoch r) 0).setReg (A.rot r) 0).raiseAttn 1

/-- Lines, or pages, of a region. -/
def Dev.rotateUnits (d : Dev) (r : Nat) : Nat := regionSize d.cfg r / (if regionElastic d.cfg r then 4096 else 64)

/-- The rotation pointer advances (R231). -/
def Dev.rotateAdvance (d : Dev) (r : Nat) : Dev × Bool :=
  let p := d.rotPtr r
  let d1 := d.setFld (A.rot r) 0 42 (p + 1)
  if d.rotateUnits r ≤ p + 1 then (d1.rotateEnd r, true) else (d1, false)

/-- The outcome in rd: END when the step completed its walk. -/
def Dev.jobOver (d : Dev × Bool) (j : Job) : Dev := d.1.jobTells j (if d.2 then outcEnd else j.worst)

/-- The last line of a step is loaded, or needs no write: the pointer advances in that cycle and the locks go. Column 127 of
a row move stays locked until REMAP_DONE. A rebuild that froze meanwhile leaves P (Table 8.4). -/
def Dev.jobEnd (d : Dev) (j : Job) : Dev :=
  match j.kind with
  | .rebuild s =>
    if (d.prots[s]).frozen || !(d.prots[s]).rebuild then (d.jobFree j).jobTells j 0
    else Dev.jobOver ((d.jobFree j).rebuildAdvance s ((d.sweepFrom s (d.prots[s]).p.toNat).getD 0)) j
  | .scrub s => Dev.jobOver ((d.jobFree j).scrubAdvance s ((d.sweepFrom s (d.fldR (A.scrub s.val) 0 34)).getD 0)) j
  | .rotate r => Dev.jobOver ((d.jobFree j).rotateAdvance r.toNat) j
  | .row s =>
    match (d.prots[s]).rowOp with
    | none => d.jobFree j
    | some o =>
      let a := rowOpEntry s o.v
      if d.fldR a 7 7 = 127 then d else ((d.jobFree j).setFld a 7 7 (d.fldR a 7 7 + 1)).rowGo s

/-- Steps all of whose lines are done end. -/
def Dev.jobsEnd (d : Dev) : Dev :=
  Dev.each (fun (j : Job) x => if j.left = 0 then x.jobEnd j else x) d.jobs d

/-- The copy of a row has reached its end: REMAP_DONE may come. -/
def Dev.rowCopied (d : Dev) (s : Fin 8) (o : RowOp) : Bool :=
  d.fldR (rowOpEntry s o.v) 7 7 = 127 && (d.rowJob s).any (fun j => j.left = 0)

/-- A line of step `id` has been loaded into the serialiser. -/
def Dev.jobLoaded (d : Dev) (id : Nat) : Dev :=
  { d with jobs := d.jobs.map (fun (x : Job) => if x.id = id then { x with left := x.left - 1 } else x) }.jobsEnd

/-! ### A WR command's end -/

/-- A WR command's bytes reach the pins (R108): its completions, with POISON when written as poison. -/
def Dev.placeWrite (d : Dev) (w : WrEnt) : Dev :=
  let st : Status := if w.poison then .poison else .ok
  let tell := fun (c : Acc × Option (BitVec 64)) (x : Dev) =>
    match c.1.who with
    | .job id _ => x.jobLoaded id
    | _ => x.complete c st
  Dev.each (fun n x => x.writeEnd n false) w.hubs (Dev.each tell w.comps d)

/-! ### Fill (R216) and the empty page map (R240) -/

/-- The access of a fill or of the page map's writing. -/
def tableAcc (who : Who) (rid c0 : Nat) : Acc :=
  { who := who, note := 15, master := 0, rid := rid, c0 := c0, placed := false, late := false }

/-- The fill of subchannel `s` puts its next location into the write queue as poison, when an entry is free (R216). -/
def Dev.fillStep (d : Dev) (s : Fin 8) : Dev :=
  let pr := d.prots[s]
  let p := subPort s
  if !pr.filling || 2 ^ 34 ≤ pr.fillP || !d.wrFree p 15 || d.rst.step ≠ 0 || !d.powerOpen then d
  else match d.sweepFrom s pr.fillP with
    | none => d.modProt s (fun x => { x with fillP := 2 ^ 34 })
    | some n =>
      let l := d.lineAt (sweepLoc s n)
      (d.tickRid.modProt s (fun x => { x with fillP := n + 1, fillLeft := x.fillLeft + 1 })).enterWrite p l KeyUse.byLoc fullMask 0
        true (tableAcc (.fill s) d.txn.nextRid d.cc)

/-- Lines of the page map table, and of the bitmap after it. -/
def Dev.initLines (d : Dev) : Nat := ceilDiv d.pmtEntries 4 + ceilDiv (d.cfgLe Sec.tiers 0x08 8) 64

def Dev.initLine (d : Dev) (i : Nat) : LineAddr :=
  let n := ceilDiv d.pmtEntries 4
  BitVec.ofNat 42 (if i < n then d.pmtBase / 64 + i else d.cfgLe Sec.tiers 0x20 6 / 64 + (i - n))

/-- With INIT, after the fill, the next line of the page map table or the bitmap is written empty (R240). -/
def Dev.initStep (d : Dev) : Dev :=
  if !d.tier.initWait || d.prots.any (fun x => x.filling || x.fillDue) || d.initLines ≤ d.tier.initP || d.rst.step ≠ 0 ||
      !d.powerOpen || d.txn.held.any (fun h => h.who = .init) then d
  else
    let m := d.initLine d.tier.initP
    (d.modTier (fun t => { t with initP := t.initP + 1, initLeft := t.initLeft + 1 })).access .init 15 0 m (.wr 0) (addrMap d.cfg m)
      (KeyUse.plain m)

end Sys2Proof.Machine
end

