-- ==== Sys2Proof/Machine/TierOps.lean ====
section
/-! DEFINITION. Shared operations of the capacity tier (R234 to R247): the page map cache, the pool, and the steps of a
tier access. -/

namespace Sys2Proof.Machine

/-! ### The TIERS section (Table 9.7) and live values -/

def Dev.poolBase (d : Dev) : Nat := d.cfgLe Sec.tiers 0x00 6
def Dev.poolBlocks (d : Dev) : Nat := d.cfgLe Sec.tiers 0x08 8
def Dev.bitmapBase (d : Dev) : Nat := d.cfgLe Sec.tiers 0x20 6
def Dev.tierInit (d : Dev) : Bool := bit (BitVec.ofNat 8 (d.cfgLe Sec.tiers 0x3A 1)) 0
def Dev.warnBlocks (d : Dev) : Nat := d.fldR A.warn 0 32
def Dev.lowBlocks (d : Dev) : Nat := d.fldR A.low 0 32

/-- RESV (R241). -/
def tierResv : Nat := 128

/-- ATTN 3 and the POOL event after a claim or an allocation (R242, Table 10.9). -/
def Dev.poolWarn (d : Dev) : Dev :=
  let room := d.tier.free - d.tier.claims
  let d1 := if room ≤ tierResv + d.warnBlocks then d.raiseAttn 3 else d
  if d.lowBlocks ≠ 0 && room ≤ d.lowBlocks then d1.eventWhere 5 (fun _ _ => true) else d1

/-! ### The pool (R239) -/

/-- The lowest run of `g` free granules of a tier block. -/
def findRun (used : BitVec 8) (g : Nat) : Option Nat :=
  (List.range (9 - g)).find? (fun i => (List.range g).all (fun j => !used.getLsbD (i + j)))

def runBits (i g : Nat) : BitVec 8 := BitVec.ofNat 8 ((2 ^ g - 1) <<< i)

/-- The lowest block number that the rising list does not hold. -/
def lowestFree : Nat → List (Nat × Blk) → Nat
  | n, [] => n
  | n, (k, _) :: r => if k = n then lowestFree (n + 1) r else n

/-- An open block with a run of `g` granules, other than `skip`. -/
def Tier.openRun (t : Tier) (g : Nat) (skip : Option Nat) : Option (Nat × Nat) :=
  t.pool.findSome? (fun e =>
    match e.2 with
    | .tier used => if used ≠ 0xFF && skip ≠ some e.1 then (findRun used g).map (fun i => (e.1, i)) else none
    | .frame => none)

def freeGranules (used : BitVec 8) : Nat := ((List.range 8).filter (fun i => !used.getLsbD i)).length

/-- Mark granules of a tier block used. -/
def Tier.useRun (t : Tier) (b i g : Nat) : Tier :=
  match kvGet t.pool b with
  | some (.tier used) => { t with pool := kvSet t.pool b (.tier (used ||| runBits i g)), frag := t.frag - g }
  | _ => t

/-- Take a free block as a tier block with granules `i` to `i + g − 1` used, or as a frame. -/
def Tier.takeBlock (t : Tier) (b : Nat) (k : Blk) : Tier :=
  { t with
    pool := kvSet t.pool b k, free := t.free - 1,
    frag := match k with | .tier used => t.frag + freeGranules used | .frame => t.frag }

/-- Place an extent of `g` granules (R239): block and first granule. -/
def Tier.allocate (t : Tier) (g : Nat) : Tier × (Nat × Nat) :=
  match t.openRun g none with
  | some (b, i) => (t.useRun b i g, (b, i))
  | none => let b := lowestFree 0 t.pool; (t.takeBlock b (.tier (runBits 0 g)), (b, 0))

/-- Free granules `i` to `i + g − 1` of a tier block; a block all free returns to free. -/
def Tier.freeRun (t : Tier) (b i g : Nat) : Tier :=
  match kvGet t.pool b with
  | some (.tier used) =>
    let used' := used &&& ~~~ runBits i g
    if used' = 0 then { t with pool := kvDel t.pool b, free := t.free + 1, frag := t.frag - freeGranules used }
    else { t with pool := kvSet t.pool b (.tier used'), frag := t.frag + (freeGranules used' - freeGranules used) }
  | _ => t

/-- The block and granule of a media line in the pool. -/
def Dev.poolPlace (d : Dev) (line : Nat) : Nat × Nat :=
  let o := line - d.poolBase / 64
  (o / 64, o % 64 / 8)

/-- The media line of a granule. -/
def Dev.poolLine (d : Dev) (b g : Nat) : Nat := d.poolBase / 64 + 64 * b + 8 * g

/-- Free the extent of an entry, or its frame. -/
def Dev.freeExtent (d : Dev) (e : BitVec 128) : Dev :=
  let p := d.poolPlace (entPtr e)
  if entState e = 2 then
    (if entGranules e = 0 then d else d.modTier (fun t => t.freeRun p.1 p.2 (entGranules e)))
  else if entState e = 1 then d.modTier (fun t => { t with pool := kvDel t.pool p.1, free := t.free + 1 })
  else d

/-! ### The entry (Table 9.3) -/

/-- An access to the page: ACCESS rises, AGE is zeroed (Table 9.3). -/
def entTouch (e : BitVec 128) : BitVec 128 :=
  BitVec.ofNat 128 ((entState e) <<< 126 ||| (satAdd 16 (entAccess e) 1) <<< 108 ||| e.toNat % 2 ^ 100)

/-! ### Tier accesses (R241 to R245) -/

/-- Page-relative line, chunk and line within the chunk of an ADDR line. -/
def pageLine (l : LineAddr) : Nat := l.toNat % 64
def lineChunk (l : LineAddr) : Nat := pageLine l / 8
def chunkPos (l : LineAddr) : Nat := pageLine l % 8

/-- Compression unit of a page (DESIGN CHOICE, log 17: the spec does not say which unit a page uses). -/
def tierUnit (idx : BitVec 32) : Nat := idx.toNat % 8

def Op.isWrite : Op → Bool
  | .wr _ => true
  | .wrm _ _ => true
  | .atom .. => true
  | .pois => true
  | _ => false

/-- Is this operation one that holds the page lock when it is first: a write or a move (R247)? -/
def TierOp.locks (o : TierOp) : Bool := o.h.op.isWrite || o.move.isSome

/-- Tier writes that a unit carries (Table 9.16): from admission until their lines are loaded. -/
def Dev.unitLoad (d : Dev) (u : Nat) : Nat :=
  (d.tier.ops.filter (fun o => o.unit = u && o.h.op.isWrite && o.move.isNone && (o.phase = .reading || o.phase = .writing))).length

/-- The operation is stopped by an earlier one on its page: a lock holder, or, for a read, a holder of its chunk or a move;
by a step that holds the page; a move also by an access on its way to the page's frame (R247). -/
def Dev.tierBlocked (d : Dev) (before : List TierOp) (o : TierOp) : Bool :=
  before.any (fun b => b.idx = o.idx && b.locks && b.phase ≠ .switched &&
    (o.locks || b.move.isSome || lineChunk b.h.r.line = lineChunk o.h.r.line)) ||
    d.jobs.any (fun j => j.page = some o.idx) || (o.move.isSome && d.txn.held.any (fun h => h.page = some o.idx))

/-- The region whose page this is. -/
def Dev.opRegion (d : Dev) (o : TierOp) : Nat := (regionOf d.cfg (addrOf o.h.r.line)).getD 0

/-- Key use of media line `m` for a page of region `r` (R231: elastic regions count pages). -/
def Dev.pageKey (d : Dev) (r : Nat) (l : LineAddr) (m : LineAddr) : KeyUse :=
  d.keyUse r (regionPage d.cfg r l) m

/-- The tier access as the queues know a request. -/
def TierOp.acc (o : TierOp) : Acc :=
  { who := if o.move.isSome then .none else o.h.who, note := o.h.r.note, master := o.h.master, rid := o.h.rid, c0 := o.h.c0,
    placed := o.placed, late := o.late }

/-- The access of media line `m` that the tier makes as its line `i`, in its request's place in arrival order. -/
def Dev.tierLine (d : Dev) (o : TierOp) (m i : Nat) (op : Op) : Dev :=
  let ml : LineAddr := BitVec.ofNat 42 m
  let loc := addrMap d.cfg ml
  (d.arrive (locPort loc)).hold (mkAccess (.tier o.id i) o.h.r.note o.h.master o.h.rid d.cc ml op loc
    (d.pageKey (d.opRegion o) o.h.r.line ml))

def Dev.tierRead (d : Dev) (o : TierOp) (m i : Nat) : Dev := d.tierLine o m i .rd

/-- Write of media line `m`; `none` writes poison (R203). -/
def Dev.tierWrite (d : Dev) (o : TierOp) (m i : Nat) (l : Option Line) : Dev :=
  d.tierLine o m i (match l with | some v => .wr v | none => .pois)

/-- Replace the tier operation with the number of `o`. -/
def Dev.setTierOp (d : Dev) (o : TierOp) (o' : Option TierOp) : Dev :=
  d.modTier (fun t => { t with ops := match o' with
    | some x => t.ops.map (fun y => if y.id = o.id then x else y)
    | none => t.ops.filter (fun y => y.id ≠ o.id) })

/-- A tier read ends (R243, R113). -/
def Dev.tierAnswer (d : Dev) (o : TierOp) (res : ReadRes) : Dev := (d.setTierOp o none).deliverRead o.acc none res none

/-- A tier write ends with a status: the hub's response or the engine's slot. -/
def Dev.tierComplete (d : Dev) (o : TierOp) (st : Status) (old : Option (BitVec 64)) : Dev := d.complete (o.acc, old) st

/-- Reads the line, so that a LOST bank matters (Table 4.5); a WRM with MASK all ones is a WR (R106). -/
def Op.needsOld : Op → Bool
  | .rd => true
  | .wrm m _ => m ≠ fullMask
  | .atom .. => true
  | _ => false

/-- The media lines that an access to line `l` of a page reads, by the page's entry: its frame line, its chunk's lines, or
its own line of a raw chunk (R236, R243). -/
def entLines (e : BitVec 128) (l : LineAddr) (op : Op) : List Nat :=
  let k := lineChunk l
  if entState e = 1 then [entPtr e + pageLine l]
  else if entState e ≠ 2 then []
  else if op = .rd && entRaw e k && entSlot e k ≠ 0 then [chunkLine e k + chunkPos l]
  else (List.range (entSlot e k)).map (fun i => chunkLine e k + i)

/-- One of the lines lies in a LOST bank, and the operation needs what they held (R170, Table 4.5). -/
def Dev.entLost (d : Dev) (e : BitVec 128) (l : LineAddr) (op : Op) : Bool :=
  op.needsOld && (entLines e l op).any (fun m => d.bankLost (addrMap d.cfg (BitVec.ofNat 42 m)))

/-- One of them lies in a fenced subchannel (R291). -/
def Dev.entFenced (d : Dev) (e : BitVec 128) (l : LineAddr) (op : Op) : Bool :=
  (entLines e l op).any (fun m => d.subFenced (locSub (addrMap d.cfg (BitVec.ofNat 42 m))))

/-- The request is answered with a status and not performed. -/
def Dev.tierRefuse (d : Dev) (o : TierOp) (st : Status) : Dev := ((d.setTierOp o none).rxDrop o.h).answerHeld o.h st

/-- A hot page's access goes to its frame's line, and waits for its port as a request of a direct region does (R241). -/
def Dev.hotAccess (d : Dev) (o : TierOp) (e : BitVec 128) : Dev :=
  let m : LineAddr := BitVec.ofNat 42 (entPtr e + pageLine o.h.r.line)
  let loc := addrMap d.cfg m
  ((d.setTierOp o none).arrive (locPort loc)).hold
    { o.h with fixed := some (loc, d.pageKey (d.opRegion o) o.h.r.line m), page := some o.idx }

/-- Admit a tier write (R241): a claim, or NOSPACE, with no pool at all too (Table 9.7). A posted WR or WRM is complete at
admission (R244). At F − C = 0 every tier write is refused, as R241, R242 and Table 9.7 say; R243 would spare those that
need no space (log 89). -/
def Dev.tierAdmit (d : Dev) (o : TierOp) (e : BitVec 128) : Dev :=
  if d.poolBlocks = 0 || d.tier.free < d.tier.claims + 1 then (d.bump A.space 24 24).tierRefuse o .nospace
  else if 16 ≤ d.unitLoad o.unit then d
  else
    let d1 := (d.modTier (fun t => { t with claims := t.claims + 1 })).poolWarn
    let d2 := if d1.tier.free - d1.tier.claims < tierResv then d1.bump A.space 0 24 else d1
    let isAtom := match o.h.op with | .atom .. => true | _ => false
    let isPois := match o.h.op, o.h.who with | .pois, .latom .. => true | _, _ => false
    let k := lineChunk o.h.r.line
    let n := if entState e = 2 then entSlot e k else 0
    let o1 := { o with phase := .reading, claim := true, oldEntry := e, want := n, h := { o.h with msg := false },
                       placed := d.notePlaced o.h.r.note }
    let d3 := (d2.rxDrop o.h).setTierOp o (some o1)
    let d4 := match isAtom, o.h.who with
      | false, .hub tag _ => d3.markExec .q tag
      | _, _ => d3
    let d5 := if !isAtom && (!o1.placed || isPois) then d4.tierComplete o1 .ok none else d4
    Dev.each (fun i x => x.tierRead o1 (chunkLine e k + i) i) (List.range n) d5

/-- A read of a page that is not hot (R243): zeros, or the lines of its chunk, or its own line of a raw chunk. -/
def Dev.tierReadStart (d : Dev) (o : TierOp) (e : BitVec 128) : Dev :=
  let ls := entLines e o.h.r.line .rd
  if ls = [] then
    (d.rxDrop o.h).tierAnswer o { data := some 0, corr := false, fwd := false, bad := false, extra := 0 }
  else
    let o1 := { o with phase := .reading, oldEntry := e, got := [], want := ls.length }
    Dev.each (fun (x : Nat × Nat) y => y.tierRead o1 x.1 x.2) ls.zipIdx (d.setTierOp o (some o1))

/-- A read of the page map table for page `idx` is under way. -/
def Dev.pmcPending (d : Dev) (idx : BitVec 32) : Bool :=
  d.txn.held.any (fun h => h.who = .pmc idx) || d.ports.any (fun (p : Port) => p.rdq.any (fun r => r.acc.who = .pmc idx)) ||
    d.phys.any (fun (f : Phy) => f.inflight.any (fun i => !i.drop && i.acc.who = .pmc idx)) ||
    (kvGet d.tier.loaded idx.toNat).isSome

/-- A miss reads the entry's line of the page map table, at note 15 (R235); not before the table is written (R240). -/
def Dev.pmcMiss (d : Dev) (idx : BitVec 32) (master : BitVec 11) : Dev :=
  let m := d.pmtLine idx
  if d.tier.initWait || d.pmcPending idx then d
  else d.access (.pmc idx) 15 master m .rd (addrMap d.cfg m) (KeyUse.plain m)

/-! ### Merge and write of a tier write (R244, R245) -/

/-- The chunk's eight lines from the lines read; `none` lines are poison. The flag says that the stream was malformed. -/
def chunkLines (e : BitVec 128) (k : Nat) (old : List (Option Line)) : List (Option Line) × Bool :=
  if entState e ≠ 2 || entSlot e k = 0 then (List.replicate 8 (some 0), false)
  else if entRaw e k then ((List.range 8).map (fun i => old.getD i none), false)
  else
    let got := (List.range (entSlot e k)).map (fun i => old.getD i none)
    if got.any (fun x => x.isNone) then (List.replicate 8 none, false)
    else
      match codecDecode (got.flatMap (fun x => lineBytes (x.getD 0))) with
      | some ws => ((wordsChunk ws).map some, false)
      | none => (List.replicate 8 none, true)

/-- Merge of the request's bytes into its line: the new line (`none` poison), the OLD word of an atomic, its status, and
whether anything is written. -/
def mergeOp (op : Op) (line : Option Line) : Option Line × Option (BitVec 64) × Status × Bool :=
  match op with
  | .wr l => (some l, none, .ok, true)
  | .pois => (none, none, .ok, true)
  | .wrm mask l =>
    if mask = fullMask then (some l, none, .ok, true)
    else match line with
      | some o => (some (mergeLine mask l o), none, .ok, true)
      | none => (none, none, .poison, true)
  | .atom aop w c v =>
    match line with
    | none => (none, some 0, .poison, true)
    | some o =>
      let r := atomApply aop w c v o
      (match r.2 with | some n => some n | none => some o, some r.1, .ok, r.2.isSome)
  | _ => (line, none, .ok, false)

/-- A line list as it is stored: raw, or a padded stream of `n` lines. -/
def streamLines (bs : List Byte) (n : Nat) : List (Option Line) :=
  (List.range n).map (fun i => some (lineOf ((bs.drop (64 * i)).take 64)))

/-- How the new chunk is stored: raw flag, lines needed, and its lines given the lines allocated (R238, R245). -/
def storeChunk (lines : List (Option Line)) : Bool × Nat × (Nat → List (Option Line)) :=
  if lines.any (fun x => x.isNone) then (true, 8, fun _ => lines)
  else
    let bs := codecEncode (chunkWords (lines.map (fun x => x.getD 0)))
    if 448 < bs.length then (true, 8, fun _ => lines) else (false, codecLines bs.length, fun n => streamLines bs n)

/-- SLOT with chunk `k` set to `n`; RAW with its bit set to `b`. -/
def entWithChunk (e : BitVec 128) (k n : Nat) (b : Bool) : Nat × Nat :=
  (((fld e 40 8) &&& (255 - 2 ^ k)) ||| (b2n b <<< k),
   (List.range 8).foldl (fun acc i => acc ||| (if i = k then n else entSlot e i) <<< (4 * i)) 0)

/-- The read of the other chunks' lines that an extent relocation copies has this index and above. -/
def copyBase : Nat := 1000

/-- A malformed stream as source 96 + s reports it (R245). -/
def tierReport (o : TierOp) (access : BitVec 4) : Report :=
  { event := 1, addr := BitVec.ofNat 48 (addrOf o.h.r.line), akind := 1, coord := coordCtl 0x0B o.unit,
    master := some o.h.master, access := access }

/-- The entry with the ACCESS and AGE that the cache holds now (Table 9.3): accesses and the migration engine's scans go on
while an access of the page is under way. -/
def Dev.entNow (d : Dev) (idx : BitVec 32) (e : BitVec 128) : BitVec 128 :=
  let c := (d.pmcGet idx).getD e
  mkEnt (entState e) (entAccess c) (entAge c) (entPtr e) (fld e 40 8) (fld e 0 32)

/-- Reads of the page that began under its old entry (R244). -/
def Dev.pageReaders (d : Dev) (idx : BitVec 32) : List Nat :=
  (d.tier.ops.filter (fun o => o.idx = idx && o.phase = .reading && o.move.isNone && o.h.op = .rd)).map (fun o => o.id)

/-- Every line that the operation reads is there. -/
def TierOp.gotAll (o : TierOp) : Bool := o.want ≤ o.got.length

/-- The lines read, by place. -/
def TierOp.lines (o : TierOp) (n : Nat) : List (Option Line) := (List.range n).map (fun i => (kvGet o.got i).join)

/-- Steps 4 to 7 of R244 for the tier write `o` of its page, whose chunk has been read. -/
def Dev.tierMerge (d : Dev) (o : TierOp) : Dev :=
  let e := o.oldEntry
  let k := lineChunk o.h.r.line
  let j := chunkPos o.h.r.line
  let c := chunkLines e k (o.lines o.want)
  let s := o.unit
  -- a read of the page that waits now goes by the new entry, not by the staging
  let d0 := d.modTier (fun t => { t with ops := t.ops.map (fun (x : TierOp) =>
    if x.idx = o.idx && x.phase = .waitEntry then { x with early := true } else x) })
  let d1 := if c.2 then d0.fault (96 + s) (tierReport o 2) else d0
  let m := mergeOp o.h.op (c.1.getD j none)
  let unclaim : Dev → Dev := fun x => x.modTier (fun t => { t with claims := t.claims - 1 })
  let isAtom := match o.h.op with | .atom .. => true | _ => false
  let d2 := match isAtom, o.h.who with
    | true, .hub tag _ => d1.markExec .q tag
    | _, _ => d1
  if !m.2.2.2 then
    -- a CAS that fails writes nothing (R243)
    (((unclaim d2).setTierOp o none).tierComplete o m.2.2.1 m.2.1).writeEnd o.h.rid false
  else
    let lines := c.1.set j m.1
    let st := storeChunk lines
    let zero := !st.1 && (chunkWords (lines.map (fun x => x.getD 0))).all (· = 0)
    let fits := if entState e = 2 then (st.2.1 ≤ entSlot e k || (zero && entSlot e k = 0)) else false
    let d3 := if st.1 then d2.bump (A.tierCount s) 12 12 else d2.bump (A.tierCount s) 24 24
    -- a posted atomic, and an atomic answered POISON, are answered now
    let answerNow := isAtom && (m.2.2.1 ≠ .ok || !o.placed)
    let d4 := if answerNow then d3.tierComplete o m.2.2.1 m.2.1 else d3
    let o1 := { o with phase := .writing, staged := lines, claim := false, st := m.2.2.1, oldW := m.2.1.getD 0, got := [], want := 0 }
    if fits then
      let n := entSlot e k
      let rs := entWithChunk e k n st.1
      let ne := mkEnt 2 (entAccess e) (entAge e) (entPtr e) rs.1 rs.2
      let o2 := { o1 with newEntry := ne, wleft := n }
      Dev.each (fun i x => x.tierWrite o2 (chunkLine e k + i) i ((st.2.2 n).getD i none)) (List.range n)
        ((unclaim d4).setTierOp o (some o2))
    else
      let n := if zero then 0 else st.2.1
      let base := if entState e = 2 then e else mkEnt 2 0 0 0 0 0
      let rs := entWithChunk base k n st.1
      let g := entGranules (mkEnt 2 0 0 0 rs.1 rs.2)
      let al := if g = 0 then (d4.tier, (0, 0)) else d4.tier.allocate g
      let ptr := if g = 0 then 0 else d4.poolLine al.2.1 al.2.2
      let ne := mkEnt 2 (entAccess e) (entAge e) ptr rs.1 rs.2
      let d5 := unclaim (d4.modTier (fun _ => al.1))
      -- ATTN 3 and POOL follow an allocation (R242), not a write that needs no space
      let d6 := if g = 0 then d5 else d5.poolWarn
      let d7 := if entState e = 2 then d6.bump (A.tierCount s) 0 12 else d6
      let others := if entState e = 2 then slotSum e 8 - entSlot e k else 0
      let o2 := { o1 with newEntry := ne, wleft := n + others, copies := others }
      let d8 := Dev.each (fun i x => x.tierWrite o2 (chunkLine ne k + i) i ((st.2.2 n).getD i none)) (List.range n)
        (d7.setTierOp o (some o2))
      -- the other chunks' lines are read to be copied, decrypted and re-encrypted (R244)
      if entState e = 2 then
        Dev.each (fun c x => if c = k then x else
          Dev.each (fun i y => y.tierRead o2 (chunkLine e c + i) (copyBase + slotSum e c + i)) (List.range (entSlot e c)) x)
          (List.range 8) d8
      else d8

/-- The chunk that line `n` of an extent belongs to. -/
def extentChunk (e : BitVec 128) (n : Nat) : Nat :=
  ((List.range 8).filter (fun c => slotSum e c ≤ n && n < slotSum e (c + 1))).headD 0

/-- Lines read for a copy go into the new extent (R244). -/
def Dev.tierCopies (d : Dev) (o : TierOp) : Dev :=
  let ready := o.got.filter (fun x => copyBase ≤ x.1)
  let o1 := { o with got := o.got.filter (fun x => x.1 < copyBase), copies := o.copies - ready.length }
  Dev.each (fun (x : Nat × Option Line) y =>
    let n := x.1 - copyBase
    let c := extentChunk o.oldEntry n
    y.tierWrite o1 (chunkLine o.newEntry c + (n - slotSum o.oldEntry c)) x.1 x.2) ready (d.setTierOp o (some o1))

/-- Every line of a tier read is there: the read is answered (R243, R245), with CORR when a line needed correction (R202). -/
def Dev.tierReadDone (d : Dev) (o : TierOp) : Dev :=
  let k := lineChunk o.h.r.line
  let e := o.oldEntry
  let extra := 96 + if o.gotCorr then 7 else 0
  if entRaw e k then
    d.tierAnswer o { data := (kvGet o.got 0).join, corr := o.gotCorr, fwd := o.gotFwd, bad := false, extra := extra }
  else
    let c := chunkLines e k (o.lines o.want)
    (if c.2 then d.fault (96 + o.unit) (tierReport o 1) else d).tierAnswer o
      { data := c.1.getD (chunkPos o.h.r.line) none, corr := o.gotCorr, fwd := o.gotFwd, bad := false, extra := extra }

/-! ### Moves (R246) -/

/-- Chunk `k` of a page's lines; a line that could not be read is `none` and moves as poison (R245). -/
def pageChunk (lines : List (Option Line)) (k : Nat) : List (Option Line) := (List.range 8).map (fun i => lines.getD (8 * k + i) none)

/-- Is the chunk all zero? -/
def chunkZero (lines : List (Option Line)) : Bool := lines.all (fun x => x = some 0)

/-- The entry of a page compressed anew at `ptr` (R238). -/
def packPage (e : BitVec 128) (lines : List (Option Line)) (ptr : Nat) : BitVec 128 :=
  let cs := (List.range 8).map (pageChunk lines)
  let raw := bitsOf (cs.map (fun c => (storeChunk c).1))
  let slot := ((List.range 8).zip cs).foldl (fun acc c =>
    acc ||| (if chunkZero c.2 then 0 else (storeChunk c.2).2.1) <<< (4 * c.1)) 0
  mkEnt 2 (entAccess e) (entAge e) (if slot = 0 then 0 else ptr) raw slot

/-- The lines of chunk `k` as the entry stores them. -/
def storedChunk (e : BitVec 128) (lines : List (Option Line)) (k : Nat) : List (Option Line) :=
  let c := pageChunk lines k
  if entRaw e k || c.any (fun x => x.isNone) then c else (storeChunk c).2.2 (entSlot e k)

/-- Write chunk `k` of a page into its extent. -/
def Dev.writeChunk (d : Dev) (o : TierOp) (e : BitVec 128) (lines : List (Option Line)) (k : Nat) : Dev :=
  let ls := storedChunk e lines k
  Dev.each (fun i x => x.tierWrite o (chunkLine e k + i) (8 * k + i) (ls.getD i none)) (List.range (entSlot e k)) d

/-- A move ends: BUSY clears and RESULT is set. -/
def Dev.moveResult (d : Dev) (m : Fin 4) (result : Nat) : Dev :=
  ((d.setFld (A.moveCmd m.val) 43 1 0).setFld (A.moveCmd m.val) 44 2 result).modTier (fun t => { t with moves := t.moves.set m none })

/-- A move that has the page lock is rejected, or reads the page's lines (R246); `newEntry` holds where the page goes. -/
def Dev.moveStart (d : Dev) (o : TierOp) (m : Fin 4) (e : BitVec 128) : Dev :=
  let reject := (d.setTierOp o none).moveResult m 2
  let read : Dev → BitVec 128 → List Nat → Dev := fun x ne ls =>
    let o1 := { o with phase := .reading, oldEntry := e, newEntry := ne, want := ls.length, got := [] }
    Dev.each (fun (l : Nat × Nat) y => y.tierRead o1 l.1 l.2) ls.zipIdx (x.setTierOp o (some o1))
  let extent := (List.range (slotSum e 8)).map (fun i => entPtr e + i)
  match d.tier.moves[m] with
  | none => d.setTierOp o none
  | some mv =>
    match mv.op with
    | 1 =>
      if entState e = 2 && tierResv + d.warnBlocks + 1 < d.tier.free - d.tier.claims then
        let b := lowestFree 0 d.tier.pool
        read (d.modTier (fun t => t.takeBlock b .frame)).poolWarn (mkEnt 1 (entAccess e) (entAge e) (d.poolLine b 0) 0 0) extent
      else reject
    | 2 => if entState e = 1 then read d e ((List.range 64).map (fun i => entPtr e + i)) else reject
    | 3 =>
      if entState e = 2 then
        match d.tier.openRun (entGranules e) (some (d.poolPlace (entPtr e)).1) with
        | some (b, i) =>
          read (d.modTier (fun t => t.useRun b i (entGranules e))).poolWarn
            (mkEnt 2 (entAccess e) (entAge e) (d.poolLine b i) (fld e 40 8) (fld e 0 32)) extent
        | none => reject
      else reject
    | _ => reject

/-- The page's lines are read: they are written where the page goes. A promotion decompresses them, a demotion compresses
them, a repack copies them (R246). -/
def Dev.moveWrites (d : Dev) (o : TierOp) (m : Fin 4) : Dev :=
  let e := o.oldEntry
  match d.tier.moves[m] with
  | none => d
  | some mv =>
    match mv.op with
    | 1 =>
      let got := o.lines o.want
      let cs := (List.range 8).map (fun k => chunkLines e k ((List.range (entSlot e k)).map (fun i => got.getD (slotSum e k + i) none)))
      let d1 := Dev.each (fun (c : List (Option Line) × Bool) x => if c.2 then x.fault (96 + o.unit) (tierReport o 1) else x) cs d
      let lines := cs.flatMap (fun c => c.1)
      let o1 := { o with phase := .writing, wleft := 64 }
      Dev.each (fun i x => x.tierWrite o1 (entPtr o.newEntry + i) i (lines.getD i none)) (List.range 64) (d1.setTierOp o (some o1))
    | 2 =>
      let lines := o.lines 64
      let ne := packPage e lines (entPtr e)
      let raws := ((List.range 8).filter (fun k => (storeChunk (pageChunk lines k)).1)).length
      let o1 := { o with phase := .writing, newEntry := ne, wleft := slotSum ne 8 }
      Dev.each (fun k x => x.writeChunk o1 ne lines k) (List.range 8)
        (((d.setTierOp o (some o1)).bumpBy (A.tierCount o.unit) 24 24 (8 - raws)).bumpBy (A.tierCount o.unit) 12 12 raws)
    | _ =>
      let got := o.lines o.want
      let o1 := { o with phase := .writing, wleft := o.want }
      Dev.each (fun i x => x.tierWrite o1 (entPtr o.newEntry + i) i (got.getD i none)) (List.range o.want) (d.setTierOp o (some o1))

/-! ### Steps of a tier access -/

/-- A read of the chunk that an earlier write holds in its unit's staging (Table 9.5). -/
def stagedFor (before : List TierOp) (o : TierOp) : Option TierOp :=
  before.find? (fun b => b.idx = o.idx && b.phase = .writing && b.move.isNone && b.h.op.isWrite && !o.early &&
    lineChunk b.h.r.line = lineChunk o.h.r.line && o.h.op = .rd && o.move.isNone)

/-- The operation's accesses still wait for their ports. -/
def Dev.tierHeld (d : Dev) (id : Nat) : Bool := d.txn.held.any (fun h => match h.who with | .tier i _ => i = id | _ => false)

/-- An operation whose entry is known starts (R241, R243, R246). -/
def Dev.tierBegin (d : Dev) (o : TierOp) (e : BitVec 128) : Dev :=
  match o.move with
  | some m => if d.throttled then d else d.moveStart o m e
  | none =>
    if d.entLost e o.h.r.line o.h.op then d.tierRefuse o .lost
    else if d.entFenced e o.h.r.line o.h.op then d.tierRefuse o .poison
    else if entState e = 1 then (d.hotAccess o e).pmcWrite o.idx (entTouch e)
    else if o.h.op.isWrite then d.tierAdmit o e
    else (d.pmcWrite o.idx (entTouch e)).tierReadStart o e

/-- One operation goes as far as it can: its entry is looked up (R235), then the page's state decides; what it has read goes
on. `before` are the earlier operations of the list. -/
def Dev.tierStep (d : Dev) (before : List TierOp) (o : TierOp) : Dev :=
  match o.phase with
  | .waitEntry =>
    (match stagedFor before o with
    | some b =>
      -- answered from the staging with FWD = 1; it is an access to the page all the same
      let d1 := match d.pmcGet o.idx with | some e => d.pmcWrite o.idx (entTouch e) | none => d
      (d1.rxDrop o.h).tierAnswer o
        { data := b.staged.getD (chunkPos o.h.r.line) none, corr := false, fwd := true, bad := false, extra := 0 }
    | none =>
      if d.tierBlocked before o || d.tier.initWait || !d.powerOpen then d
      else match d.pmcGet o.idx with
        | none => d.pmcMiss o.idx o.h.master
        | some e => d.tierBegin o e)
  | .reading =>
    (match o.move with
    | some m => if o.gotAll && !d.throttled then d.moveWrites o m else d
    | none =>
      if o.h.op.isWrite then d
      else
        -- its message leaves the receive buffer once its reads are in the queues (R130)
        let d1 := if o.h.msg && !d.tierHeld o.id then
          (d.rxDrop o.h).setTierOp o (some { o with h := { o.h with msg := false } }) else d
        if o.gotAll then (if o.h.msg && d.tierHeld o.id then d.rxDrop o.h else d1).tierReadDone o else d1)
  | .writing => if o.got.any (fun x => copyBase ≤ x.1) then d.tierCopies o else d
  | .switched => d

/-- All operations in arrival order. -/
def Dev.tierRun : List TierOp → List Nat → Dev → Dev
  | _, [], d => d
  | before, i :: r, d =>
    match d.tier.ops.find? (fun o => o.id = i) with
    | none => Dev.tierRun before r d
    | some o =>
      let d1 := d.tierStep before o
      Dev.tierRun (before ++ d1.tier.ops.filter (fun x => x.id = i)) r d1

def Dev.tierAdvance (d : Dev) : Dev := Dev.tierRun [] (d.tier.ops.map (fun o => o.id)) d

/-- A tier access as it joins the list. -/
def mkTierOp (idx : BitVec 32) (h : Held) (move : Option (Fin 4)) : TierOp :=
  { id := 0, idx := idx, unit := tierUnit idx, h := h, phase := .waitEntry, claim := false, got := [], want := 0, copies := 0,
    wleft := 0, readers := [], gotCorr := false, gotFwd := false, newEntry := 0, oldEntry := 0, staged := [], early := false,
    st := .ok, oldW := 0, late := false, placed := false, move := move }

/-- A request or move joins the list, with a lookup in the page map cache (R235). -/
def Dev.tierEnter (d : Dev) (o : TierOp) : Dev :=
  (d.modTier (fun t => { t with ops := t.ops ++ [{ o with id := t.nextId }], nextId := t.nextId + 1 })).bump A.pmcCnt
    (if (d.pmcGet o.idx).isSome then 24 else 0) 24

/-- The table line of a miss has been read, and the request continues (R235). -/
def Dev.pmcLoaded (d : Dev) (idx : BitVec 32) : Dev :=
  match kvGet d.tier.loaded idx.toNat with
  | none => d
  | some l => (d.modTier (fun t => { t with loaded := kvDel t.loaded idx.toNat })).pmcFill idx l

/-- Every line of the new extent is loaded: the entry changes, a placed write is complete; the old granules wait for the
reads under the old entry (R244). -/
def Dev.tierSwitch (d : Dev) (idx : BitVec 32) : Dev :=
  match d.tier.ops.find? (fun o => o.idx = idx && o.phase = .writing && o.move.isNone && o.wleft = 0 && o.copies = 0) with
  | none => d
  | some o =>
    let d1 := d.pmcWrite idx (entTouch (d.entNow idx o.newEntry))
    let isAtom := match o.h.op with | .atom .. => true | _ => false
    let told := match o.h.op, o.h.who with | .pois, .latom .. => true | _, _ => false
    let d2 := if o.placed && !told && !(isAtom && o.st ≠ .ok) then
      d1.tierComplete o o.st (if isAtom then some o.oldW else none) else d1
    let d3 := d2.writeEnd o.h.rid false
    if entState o.oldEntry = 2 && entPtr o.oldEntry ≠ entPtr o.newEntry then
      d3.setTierOp o (some { o with phase := .switched, readers := d.pageReaders idx })
    else d3.setTierOp o none

/-- The move's lines are all written: its entry changes and the move is done (R246). A demotion's own block becomes a tier
block, whose free granules open once the frame's reads are over. -/
def Dev.moveEnd (d : Dev) (m : Fin 4) : Dev :=
  match d.tier.ops.find? (fun o => o.move = some m && o.phase = .writing && o.wleft = 0) with
  | none => d
  | some o =>
    let d1 := (d.pmcWrite o.idx (d.entNow o.idx o.newEntry)).moveResult m 1
    let d2 := if entState o.oldEntry = 1 then
      d1.modTier (fun t => { t with pool := kvSet t.pool (d.poolPlace (entPtr o.oldEntry)).1 (.tier 0xFF) }) else d1
    d2.setTierOp o (some { o with phase := .switched, readers := d.pageReaders o.idx })

/-- The old space of a switched operation is freed (R239, R244, R246). -/
def Dev.freeOld (d : Dev) (o : TierOp) : Dev :=
  if entState o.oldEntry = 1 && entState o.newEntry = 2 then
    let b := (d.poolPlace (entPtr o.oldEntry)).1
    let g := entGranules o.newEntry
    d.modTier (fun t =>
      if g = 0 then { t with pool := kvDel t.pool b, free := t.free + 1 }
      else { t with pool := kvSet t.pool b (.tier (runBits 0 g)), frag := t.frag + (8 - g) })
  else d.freeExtent o.oldEntry

/-- The old granules of the page's switched operation are freed, once the reads under the old entry are over. -/
def Dev.tierFree (d : Dev) (idx : BitVec 32) : Dev :=
  match d.tier.ops.find? (fun o => o.idx = idx && o.phase = .switched && !(d.tier.ops.any (fun x => o.readers.contains x.id))) with
  | none => d
  | some o => (d.setTierOp o none).freeOld o

end Sys2Proof.Machine
end

