-- ==== Sys2Proof/Machine/Flits.lean ====
section
/-! DEFINITION. Shared operations on flits (R61 to R81): building and sending, receiving, acknowledgement and replay,
lane changes (R84, R85), training (R91, R92), RESYNC (R116 to R118). -/

namespace Sys2Proof.Machine

/-! ### The flit -/

def be8 (x : BitVec 64) : List Byte := (leBytes 8 x.toNat).reverse

/-- Bytes 0 to 231 of a flit (R61). -/
def flitBytes (hdr : BitVec 64) (slots : List Slot) : List Byte := be8 hdr ++ slots.flatMap slotBytes

/-- A flit is good when its CRC-64 is the one computed over its bytes (R62). -/
def flitGood (f : Flit) : Bool := f.slots.length = 14 && crc64 (flitBytes f.hdr f.slots) = f.crc

def slotOr0 (s : Option Slot) : Slot := s.getD 0

/-- SLOTV of a slot list: bit 8 + k set when slot k is valid. -/
def slotv (slots : List (Option Slot)) : Nat := bitsOf (slots.map (fun s => s.isSome)) <<< 8

/-! ### Striping (R63, Table 3.1) -/

/-- A word of 6 bytes, the byte sent first on top. -/
def wordBytes (w : BitVec 48) : List Byte := (leBytes 6 w.toNat).reverse

/-- The 240 bytes of a flit (R61). -/
def flitAll (f : Flit) : List Byte := flitBytes f.hdr f.slots ++ be8 f.crc

/-- The 40 words of a flit. -/
def flitWords (f : Flit) : List (BitVec 48) :=
  (List.range 40).map (fun w => BitVec.ofNat 48 (beNat (((flitAll f).drop (6 * w)).take 6)))

/-- The flit of 40 words. -/
def flitOfWords (ws : List (BitVec 48)) : Flit :=
  let bs := ws.flatMap wordBytes
  { hdr := BitVec.ofNat 64 (beNat (bs.take 8)),
    slots := (List.range 14).map (fun k => BitVec.ofNat 128 (beNat ((bs.drop (8 + 16 * k)).take 16))),
    crc := BitVec.ofNat 64 (beNat ((bs.drop 232).take 8)) }

/-- The words that logical lane `k` carries at width `w`, one for each beat; past word 39 they are pad words of zeros. -/
def laneWords (ws : List (BitVec 48)) (w k : Nat) : List (BitVec 48) :=
  (List.range (ceilDiv 40 w)).map (fun b => ws.getD (b * w + k) 0)

/-- What the physical lanes carry (R63, R85): active lanes their words, spare and out lanes PRBS31, restarted on lane `from'`.
`copy`: the lowest spare also carries the words of this failing lane (flit n + 1 of a SWAP). -/
def stripe (v : Vector Lane 22) (ws : List (BitVec 48)) (copy from' : Option Nat) : List LaneSig :=
  let w := laneWidth v
  (List.range 22).map (fun p =>
    match laneAt v p with
    | .active k => .words (laneWords ws w k)
    | .unused => .quiet
    | .out => .prbs31 (from' = some p)
    | .spare =>
      match copy with
      | some f => (match laneAt v f with
        | .active k => if lowestLane v (fun _ x => x.isSpare) = some p then .words (laneWords ws w k) else .prbs31 false
        | _ => .prbs31 false)
      | none => .prbs31 false)

/-- The flit that the words captured on the 22 physical lanes give under lane map `v`; pad words are ignored. -/
def unstripe (v : Vector Lane 22) (lanes : List (List (BitVec 48))) : Flit :=
  let w := laneWidth v
  flitOfWords ((List.range 40).map (fun i =>
    match lowestLane v (fun _ x => x = .active (i % w)) with
    | some p => (lanes.getD p []).getD (i / w) 0
    | none => 0))

/-! ### Receive buffer (R75, R76, R78) -/

/-- VC of the message that the slots begin. -/
def slotsVc : List Slot → Option Vc
  | [] => none
  | s :: _ => (reqShape s).map (fun x => x.1)

/-- Slots that the receive buffer holds for a VC. -/
def Txn.rxSlots (x : Txn) (vc : Vc) : Nat :=
  (x.rx.foldl (fun n m => if m.vc = vc then n + m.slots.length else n) 0) +
    (if slotsVc x.part = some vc then x.part.length else 0)

/-- Slots of the Q partition and the shared one, of K, and of M. -/
def qSpace : Nat := (65536 + 12288) / 16
def kSpace : Nat := 16384 / 16
def mSpace : Nat := 4096 / 16

/-- Free Q space F in bytes (R78). -/
def Dev.freeQ (d : Dev) : Nat := 16 * (qSpace - d.txn.rxSlots .q)

def Dev.marginLive (d : Dev) : Nat := d.fldR A.headroom 0 16
/-- H and E (R78). -/
def Dev.levelH (d : Dev) : Nat := 120 * d.fldR A.linkRtt 0 8 + 480 + d.marginLive
def Dev.levelE (d : Dev) : Nat := d.levelH + 8192

/-- XOFF[Q] of the next header (R78). -/
def Dev.xoffNext (d : Dev) : Bool :=
  let f := d.freeQ
  if d.link.freshXoff then f < d.levelH
  else if f < d.levelH then true
  else if d.levelE ≤ f then false
  else d.link.xoffQ

/-! ### Lane changes (R85, R88) -/

def dirSource : Dir → Nat
  | .rx => 125
  | .tx => 126

/-- Is the change `c` due in direction `dir`: announced, and flit n + 1 has passed (R84)? -/
def Link.changeDue (l : Link) (dir : Dir) (c : Change) : Bool :=
  match dir with
  | .tx => l.announced = some c && !l.announceGap
  | .rx => l.rxChange = some c && !l.rxGap

/-- The change is adopted: requests and announcements of it end, and the next request has its turn. -/
def Dev.changeDone (d : Dev) (dir : Dir) (c : Change) : Dev :=
  match dir with
  | .tx => d.modLink (fun l => { l with announced := none })
  | .rx =>
    let d1 := d.modLink (fun l =>
      { l with rxChange := none, rxGap := false, req := if l.req = some c then none else l.req,
               failing := if c.cmd = 1 || c.cmd = 2 then l.failing.filter (· ≠ c.lane) else l.failing })
    let q := d1.pickRequest
    if q.2 then q.1.linkFail else q.1

/-- SWAP, DROP and ADD (R85, R88): the lanes change, the change is counted, recorded and reported. `ev` is the Sillage
LINK event, `attn` the cause raised. -/
def Dev.laneChange (d : Dev) (dir : Dir) (lane : Fin 22) (cmd : BitVec 3) (v : Vector Lane 22) (ev : Nat)
    (attn : Option Nat) (out : Bool) : Dev :=
  let d1 := (d.modLink (fun l => l.setLanes dir v)).bump A.errcnt 0 8
  let d2 := match attn with
    | some c => d1.raiseAttn c
    | none => d1
  let d3 := d2.sillLink ev
  let d4 := if out then d3.fault (dirSource dir) (linkReport 1 (coordLane dir lane.val)) else d3
  (d4.fault (dirSource dir) (linkReport 2 (coordLane dir lane.val))).changeDone dir { cmd := cmd, lane := lane.val }

/-- The lane map after a change (R85); TEST leaves it. -/
def Change.lanes (c : Change) (v : Vector Lane 22) : Vector Lane 22 :=
  match c.cmd with
  | 1 => swapLane v c.lane
  | 2 => dropLane v c.lane
  | 3 => addLane v c.lane
  | _ => v

/-- The change takes effect (R85, R88). A DROP raises ATTN 5 for a spare and ATTN 8 for an active lane; at a TEST the
transmitter restarts PRBS31, and the receiver's count starts. -/
def Dev.changeNow (d : Dev) (dir : Dir) (c : Change) : Dev :=
  let v := d.link.lanes dir
  let lane : Fin 22 := Fin.ofNat 22 c.lane
  match c.cmd with
  | 1 => d.laneChange dir lane 1 (c.lanes v) 3 (some 5) true
  | 2 => d.laneChange dir lane 2 (c.lanes v) 4 (some (if (laneAt v c.lane).isActive then 8 else 5)) true
  | 3 => d.laneChange dir lane 3 (c.lanes v) 5 none false
  | _ =>
    match dir with
    | .rx => (d.modLink (fun l => { l with laneTest := some c.lane })).changeDone .rx c
    | .tx => (d.modLink (fun l => { l with prbsFrom := some c.lane })).changeDone .tx c

/-- Before flit n + 2 of KTX is built, the change announced in flit n takes effect. -/
def Dev.txAdopt (d : Dev) : Dev :=
  match d.link.announced with
  | some c => if d.link.announceGap then d else d.changeNow .tx c
  | none => d

/-! ### Building a flit (R64 to R70, R84) -/

/-- LCMD and LARG of the header being built (R84): an announcement comes first, one flit apart from the last. -/
def Link.larg (l : Link) : Nat :=
  match if l.announceGap then none else l.announce with
  | some c => c.cmd.toNat <<< 28 ||| c.lane <<< 22
  | none =>
    match l.req with
    | some c => c.cmd.toNat <<< 28 ||| 1 <<< 27 ||| c.lane <<< 22
    | none => 0

/-- The link's record of what the header announced. -/
def Link.afterLarg (l : Link) : Link :=
  if l.announceGap then { l with announceGap := false }
  else match l.announce with
    | some c => { l with announce := none, announced := some c, announceGap := true }
    | none => l

/-- The failing lane of a SWAP whose flit n + 1 is built now (R85). -/
def Link.swapCopy (l : Link) : Option Nat :=
  match l.announced with
  | some c => if l.announceGap && c.cmd = 1 then some c.lane else none
  | none => none

/-- Send a flit: the header is built as it is loaded (R65), under the lane map of flit n + 2 when it is that (R84). -/
def Dev.loadFlit (d0 : Dev) (ftype : Nat) (seq : BitVec 12) (slots : List (Option Slot)) : Dev :=
  let d := d0.txAdopt
  let xq := d.xoffNext
  let ack : Nat := if d.link.ackv then ((d.link.exp - 1 : BitVec 12)).toNat else 0
  let hdr : BitVec 64 := BitVec.ofNat 64 (ftype <<< 60 ||| seq.toNat <<< 48 ||| ack <<< 36 ||| b2n d.link.ackv <<< 35 |||
    b2n xq <<< 34 ||| d.link.larg ||| slotv slots ||| d.attnValue <<< 4)
  let f : Flit := { hdr := hdr, slots := slots.map slotOr0, crc := crc64 (flitBytes hdr (slots.map slotOr0)) }
  d.modLink (fun l =>
    { l.afterLarg with
      xoffQ := xq, freshXoff := false, lastTx := some (hdr, slots, f.crc), prbsFrom := none,
      lanesOut := stripe l.txLanes (flitWords f) l.swapCopy l.prbsFrom })

/-- Fourteen slots, the unused ones invalid. -/
def padSlots (l : List Slot) : List (Option Slot) := (List.range 14).map (fun i => l[i]?)

/-- The queue whose message gives the next slot: a started message goes on; a VC that is off starts none (R79); between
VC P and VC M the order is a free choice (R97). -/
def Txn.pickVc (x : Txn) (xoffP xoffM choice : Bool) : Option Bool :=
  let p := x.outP.head?
  let m := x.outM.head?
  if p.any (fun o => o.started) then some false
  else if m.any (fun o => o.started) then some true
  else
    let okP := p.isSome && !xoffP
    let okM := m.isSome && !xoffM
    if okP && okM then some choice else if okM then some true else if okP then some false else none

/-- Take one slot of the message at the head of a queue: the rest of the queue, the slot, the message if it ended. -/
def takeSlot : List OutMsg → Option (List OutMsg × Slot × Option OutMsg)
  | [] => none
  | o :: r =>
    match o.slots with
    | [] => none
    | [s] => some (r, s, some o)
    | s :: t => some ({ o with started := true, slots := t } :: r, s, none)

/-- Up to `n` slots of messages, with the messages that end in this flit (R66). -/
def fillSlots (xoffP xoffM : Bool) (ctr : Nat) : Nat → Txn → List Slot → List OutMsg → Txn × List Slot × List OutMsg
  | 0, x, acc, done => (x, acc, done)
  | n + 1, x, acc, done =>
    match x.pickVc xoffP xoffM (Config.freeBool (ctr + n)) with
    | none => (x, acc, done)
    | some true =>
      match takeSlot x.outM with
      | none => (x, acc, done)
      | some (q, s, e) => fillSlots xoffP xoffM ctr n { x with outM := q } (acc ++ [s]) (done ++ e.toList)
    | some false =>
      match takeSlot x.outP with
      | none => (x, acc, done)
      | some (q, s, e) => fillSlots xoffP xoffM ctr n { x with outP := q } (acc ++ [s]) (done ++ e.toList)

/-- A message's last slot left in flit `seq` (R115, R118). -/
def Dev.msgSent (d : Dev) (seq : BitVec 12) (o : OutMsg) : Dev :=
  if o.resync then ((d.setFld A.resync 16 1 1).setFld A.resync 17 1 0).setFld A.resync 8 8 d.txn.epoch.toNat
  else d.modTxn (fun x => { x with
    track := modFirst (fun t => t.vc = o.vc && t.tag = o.tag && t.built && !t.dead && t.seq.isNone)
      (fun t => { t with seq := some seq }) x.track })

/-- What waits for the RSP_M of `tag`. -/
def Txn.takeAfter (x : Txn) (tag : BitVec 12) : Txn × List AfterRsp :=
  ({ x with afterRsp := x.afterRsp.filter (fun a => a.1 ≠ tag) },
   (x.afterRsp.filter (fun a => a.1 = tag)).map (fun a => a.2))

/-- A data flit with new messages (R70); `none` when there is nothing to send or the replay buffer is full. -/
def Dev.newDataFlit (d : Dev) : Option (Dev × List AfterRsp) :=
  if 256 ≤ d.link.replay.length then none
  else
    let f := fillSlots d.link.xoffP d.link.xoffM d.freeCtr 14 d.txn [] []
    if f.2.1 = [] then none
    else
      let seq := d.link.next
      let d1 := { d with txn := f.1, freeCtr := d.freeCtr + 14 }
      let d2 := Dev.each (fun o x => x.msgSent seq o) f.2.2 d1
      let slots := padSlots f.2.1
      let d3 := d2.modLink (fun l =>
        { l with next := seq + 1, wrapped := l.wrapped || seq + 1 = 0,
                 replay := l.replay ++ [{ seq := seq, slots := slots, tries := 0 }] })
      let tags := (f.2.2.filter (fun o => o.vc = .m && !o.resync)).map (fun o => o.tag)
      let after := tags.flatMap (fun t => (d3.txn.takeAfter t).2)
      let d4 := d3.modTxn (fun x => tags.foldl (fun y t => (y.takeAfter t).1) x)
      some (d4.loadFlit 1 seq slots, after)

/-- One flit boundary on KTX: a control flit, a replayed flit, a new data flit or an idle flit (R69 to R72). -/
def Dev.flitBoundary (d : Dev) : Dev × List AfterRsp :=
  if d.link.standby || d.link.st = .down || (d.link.st = .training && d.link.rate = 0 && d.link.ctlq = []) then (d, [])
  else if d.link.ctlq ≠ [] then
    let n := d.link.ctlq.take 14
    ((d.modLink (fun l => { l with ctlq := l.ctlq.drop 14 })).loadFlit 2 0 (padSlots n), [])
  else if d.link.st = .training then (d.loadFlit 0 0 (padSlots []), [])
  else
    match d.link.resend with
    | s :: r =>
      match d.link.replay.find? (fun f => f.seq = s) with
      | some f =>
        ((d.modLink (fun l =>
            { l with resend := r, replay := modFirst (fun g => g.seq = s) (fun g => { g with tries := g.tries + 1 }) l.replay }
          )).loadFlit 1 s f.slots, [])
      | none => ((d.modLink (fun l => { l with resend := r })).loadFlit 0 0 (padSlots []), [])
    | [] =>
      match d.newDataFlit with
      | some q => q
      | none => (d.loadFlit 0 0 (padSlots []), [])

/-! ### Acknowledgement and replay (R71 to R75) -/

def nakSlot (seq : BitVec 12) : Slot := ctlSlot 1 (seq.toNat <<< 108)

/-- Send a NAK for EXP unless one is outstanding (R71). -/
def Dev.sendNak (d : Dev) : Dev :=
  if d.link.nakOut then d
  else d.modLink (fun l => { l with nakOut := true, ctlq := l.ctlq ++ [nakSlot l.exp] })

def Dev.replayMax (d : Dev) : Nat := d.linkCfg 0x36 1 8

/-- Replay every unacknowledged flit from the first that satisfies `c` (R72); one more replay than REPLAY_MAX takes the
link down (R74). -/
def Dev.replayFrom (d : Dev) (c : TxFlit → Bool) : Dev :=
  let fl := d.link.replay.dropWhile (fun f => !c f)
  if fl = [] then d
  else if d.replayMax ≠ 0 && fl.any (fun f => d.replayMax ≤ f.tries) then d.linkFail
  else (d.modLink (fun l => { l with resend := fl.map (fun f => f.seq) })).bump A.errcnt 16 16

/-- Has SEQ `a` been sent since link-up? After NEXT has wrapped, the half window behind it counts (DEDUCED, log 18). -/
def Link.wasSent (l : Link) (a : BitVec 12) : Bool :=
  if l.wrapped then (l.next - 1 - a).toNat < 2048 else a < l.next

/-- A valid ACK (R73, R115): releases the replay entries up to its SEQ. The flag is a protocol error. -/
def Dev.ackRx (d : Dev) (a : BitVec 12) : Dev × Bool :=
  if d.link.replay.any (fun f => f.seq = a) then
    let gone := (d.link.replay.takeWhile (fun f => f.seq ≠ a)).map (fun f => f.seq) ++ [a]
    ((d.modLink (fun l =>
      { l with
        replay := (l.replay.filter (fun f => !gone.contains f.seq)).map (fun f => { f with tries := 0 }),
        resend := l.resend.filter (fun s => !gone.contains s) })).modTxn (fun x =>
      { x with track := x.track.filter (fun t => t.dead || !(t.seq.any (fun s => gone.contains s))) }), false)
  else (d, !d.link.wasSent a)

/-! ### Receiving (R65, R67, R71, R76, R84) -/

/-- Header fields of a good flit (R65, R77, R84): XOFF of P and M, requests and announcements of lane changes. A
reserved LCMD acts as one of the others (log 87), and a reserved lane is no lane (log 10). -/
def Dev.headerRx (d : Dev) (hdr : BitVec 64) : Dev × Bool :=
  let d1 := d.modLink (fun l => { l with xoffP := bit hdr 31, xoffM := bit hdr 32 })
  let lcmd := codeOf [0, 1, 2, 3, 4] (fld hdr 28 3)
  let lane := fld hdr 22 5
  let c : Change := { cmd := BitVec.ofNat 3 lcmd, lane := lane }
  let valid := within 1 4 lcmd && lane < 22
  let d2 :=
    if valid && !bit hdr 27 then d1.modLink (fun l => { l with rxChange := some c, rxGap := true })
    else if valid then
      (if d1.link.lastReq = some c then d1
       else d1.modLink (fun l => { l with lastReq := some c, announce := some c }))
    else if lcmd = 0 then d1.modLink (fun l => { l with lastReq := none })
    else d1
  if bit hdr 35 then d2.ackRx (BitVec.ofNat 12 (fld hdr 36 12)) else (d2, false)

/-- A whole message enters the receive buffer (R76, R115). A K or M message without room is discarded and reported. -/
def Dev.msgRx (d : Dev) (vc : Vc) (slots : List Slot) : Dev :=
  let tag := slotTag (slots.headD 0)
  let full := match vc with
    | .q => false
    | .k => kSpace < d.txn.rxSlots .k + slots.length
    | .m => mSpace < d.txn.rxSlots .m + slots.length
  if full then d.fault 124 (linkReport 2 0)
  else (d.modTxn (fun x => { x with rx := x.rx ++ [{ vc := vc, tag := tag, slots := slots }] })).openTrack vc tag

/-- One accepted slot (R66): it starts or goes on with a message. A slot of a reserved MTYPE makes no message
(log 10). -/
def Dev.slotRx (d : Dev) (s : Slot) : Dev :=
  let part := d.txn.part ++ [s]
  match reqShape (part.headD 0) with
  | none => d.modTxn (fun x => { x with part := [] })
  | some (vc, n) =>
    if n ≤ part.length then (d.modTxn (fun x => { x with part := [] })).msgRx vc part
    else d.modTxn (fun x => { x with part := part })

/-- The NAK message (R72). -/
def Dev.nakRx (d : Dev) (seq : BitVec 12) : Dev := if d.link.st = .up then d.replayFrom (fun f => f.seq = seq) else d

/-- RTT_PROBE is echoed in the first control flit (R81). -/
def Dev.probeRx (d : Dev) (stamp : BitVec 16) : Dev :=
  if d.link.st = .down then d else d.modLink (fun l => { l with ctlq := l.ctlq ++ [ctlSlot 3 (stamp.toNat <<< 104)] })

/-- LINK_RESET (R91). -/
def Dev.linkResetRx (d : Dev) (rate : BitVec 2) : Dev := if d.link.st = .up then d.linkDown true true rate.toNat else d

/-- FULL_RESET with its key (R68). -/
def isFullReset (s : Slot) : Bool := slotField s 127 120 = 6 && slotField s 15 0 = 0x5A3C

/-- One control message from the hub (Table 3.3). TEST_RESULT of the hub's own lanes changes nothing; an RTT_ECHO counts
only in training; FULL_RESET waits for the flit's end (`Dev.controlRx`). -/
def Dev.ctlRx (d : Dev) (s : Slot) : Dev :=
  if d.link.st ≠ .up then d
  else match codeOf [0, 1, 2, 3, 4, 5, 6] (slotField s 127 120) with
    | 1 => d.nakRx (BitVec.ofNat 12 (slotField s 119 108))
    | 2 => d.probeRx (BitVec.ofNat 16 (slotField s 119 104))
    | 5 => d.linkResetRx (BitVec.ofNat 2 (slotField s 119 118))
    | _ => d

/-- The valid slots of a flit. -/
def validSlots (f : Flit) : List Slot :=
  ((List.range 14).filter (fun k => bit f.hdr (8 + k))).map (fun k => f.slots.getD k 0)

/-- A good data flit (R71). -/
def Dev.dataRx (d : Dev) (f : Flit) : Dev :=
  let dist := (BitVec.ofNat 12 (fld f.hdr 48 12) - d.link.exp : BitVec 12).toNat
  if dist = 0 then
    Dev.each (fun s x => x.slotRx s) (validSlots f)
      (d.modLink (fun l => { l with exp := l.exp + 1, ackv := true, nakOut := false }))
  else if within 1 255 dist then d.sendNak
  else if 3840 ≤ dist then d
  else d.linkFail

/-- A good control flit (R67): its messages in order; the in-band reset starts at its end (R68). -/
def Dev.controlRx (d : Dev) (f : Flit) : Dev :=
  let d1 := Dev.each (fun s x => x.ctlRx s) (validSlots f) d
  if (validSlots f).any isFullReset then d1.fullReset 2 else d1

/-- A flit arrives (R62, R65, R67, R71); one of a reserved FTYPE carries nothing (log 10). -/
def Dev.flitRx (d : Dev) (f : Flit) : Dev :=
  if d.link.st ≠ .up || d.link.standby then d
  else if !flitGood f then (d.bump A.errcnt 32 16).sendNak
  else
    let h := d.headerRx f.hdr
    if h.2 then h.1.linkFail
    else match fld f.hdr 60 4 with
      | 1 => h.1.dataRx f
      | 2 => h.1.controlRx f
      | _ => h.1

/-- A flit ends on KRX: a change announced in flit n takes effect for flit n + 2 (R84, R86). -/
def Dev.rxAdopt (d : Dev) : Dev :=
  match d.link.rxChange with
  | some c => if d.link.rxGap then d.modLink (fun l => { l with rxGap := false }) else d.changeNow .rx c
  | none => d

/-- The words captured on the KRX lanes during a flit. With a request outstanding the flit is checked under the requested map
too, and one good only under that map has the change adopted (R86). -/
def Dev.flitLanes (d0 : Dev) (lanes : List (List (BitVec 48))) : Dev :=
  if d0.link.st ≠ .up || d0.link.standby then d0
  else
    let d := d0.rxAdopt
    let f := unstripe d.link.rxLanes lanes
    match d.link.req with
    | some c =>
      let g := unstripe (c.lanes d.link.rxLanes) lanes
      if !flitGood f && flitGood g then (d.changeNow .rx c).flitRx g else d.flitRx f
    | none => d.flitRx f

/-! ### Training (R91, R92) -/

/-- The lane map's byte of a lane; the default profile uses every lane and marks none spare. -/
def Dev.mapByte (d : Dev) (dir : Dir) (lane : Nat) : Nat :=
  if d.applied then d.cfgLe Sec.link ((match dir with | .rx => 0x04 | .tx => 0x1A) + lane) 1 else 0x80 + lane

def Dev.laneUsed (d : Dev) (dir : Dir) (lane : Nat) : Bool := 128 ≤ d.mapByte dir lane
def Dev.laneMapSpare (d : Dev) (dir : Dir) (lane : Nat) : Bool := (d.mapByte dir lane).testBit 6

/-- The ranking of R91: lanes not marked spare by logical lane, then spares by physical lane, among those that pass. A lane map
that names a logical lane twice is unpredictable (R45): the model ranks both, the lower physical lane first, and each carries
its own lane (DESIGN CHOICE, log 10). -/
def Dev.trainRank (d : Dev) (dir : Dir) (ok : Nat → Bool) : List Nat :=
  let cand := (List.range 22).filter (fun p => d.laneUsed dir p && ok p)
  (List.range 32).flatMap (fun k => cand.filter (fun p => !d.laneMapSpare dir p && d.mapByte dir p % 32 = k)) ++
    cand.filter (fun p => d.laneMapSpare dir p)

def widthOf (n : Nat) : Nat := if 20 ≤ n then 20 else if 14 ≤ n then 14 else if 10 ≤ n then 10 else 0

def notOut (v : Vector Lane 22) : Nat := (v.toList.filter (fun x => !x.isOut)).length

/-- R92: with fewer than 10 lanes not out at 28.8 Gb/s, an out lane that passes its lane test leaves the out record. -/
def clearOut (v : Vector Lane 22) (passed : BitVec 22) : Vector Lane 22 :=
  Vector.ofFn (fun (i : Fin 22) => if v[i].isOut && passed.getLsbD i.val then .unused else v[i])

/-- Lanes as training starts: all but the out ones are unused until they pass. -/
def laneBase (v : Vector Lane 22) : Vector Lane 22 := v.map (fun x => if x.isOut then Lane.out else .unused)

/-- A training attempt fails (R81, R91, R92): recorded, and repeated at the next lower rate, or at 28.8 Gb/s again; where it
found fewer than 10 lanes not out, `few`, it waits 100 ms. -/
def Dev.trainFailed (d : Dev) (rttOver few : Bool) : Dev :=
  let d1 := d.setFld A.linkRtt 8 1 (b2n rttOver)
  let d2 := (d1.fault 124 (linkReport 3 0))
  if d2.link.target = 3 && few then
    (d2.sillLink 1).modLink (fun l => { l with ctlq := [], retryWait := true })
  else d2.trainAt (if d2.link.target = 3 then 3 else d2.link.target + 1)

/-- A training attempt ends with these lanes passing (R91). -/
def Dev.trainEnd (d : Dev) (passRx passTx : BitVec 22) : Dev :=
  if d.link.st ≠ .training || d.link.rate ≠ 0 || d.link.retryWait then d
  else
    let slow := d.link.target = 3
    let few := notOut d.link.rxLanes < 10 || notOut d.link.txLanes < 10
    let rx0 := if slow && notOut d.link.rxLanes < 10 then clearOut d.link.rxLanes passRx else d.link.rxLanes
    let tx0 := if slow && notOut d.link.txLanes < 10 then clearOut d.link.txLanes passTx else d.link.txLanes
    let rankR := d.trainRank .rx (fun p => passRx.getLsbD p && !(laneAt rx0 p).isOut)
    let rankT := d.trainRank .tx (fun p => passTx.getLsbD p && !(laneAt tx0 p).isOut)
    let wR := widthOf rankR.length
    let wT := widthOf rankT.length
    let d1 := d.modLink (fun l => { l with rxLanes := laneBase rx0, txLanes := laneBase tx0 })
    if 128 < d.link.rttMax then d1.trainFailed true few
    else if wR = 0 || wT = 0 then d1.trainFailed false few
    else
      -- a training whose echoes were not given has a free round trip
      let rtt := if d.link.rttMax = 0 then 1 + Config.freeNat d.freeCtr % 128 else d.link.rttMax
      let d2 := ({ d1 with freeCtr := d1.freeCtr + 1 }).setFld A.linkRtt 0 9 rtt
      d2.modLink (fun l =>
        { l with rate := l.target, rxLanes := assignLanes (laneBase rx0) rankR wR,
                 txLanes := assignLanes (laneBase tx0) rankT wT, ctlq := [] })

/-! ### Link-up and RESYNC (R93, R116 to R118) -/

/-- The first good flit in each direction (R93): fresh counters, and RESYNC is awaited. -/
def Dev.linkUpCore (d : Dev) : Dev :=
  let l := d.link
  let fresh := { Link.initial with
    rxLanes := l.rxLanes, txLanes := l.txLanes, st := .up, rate := l.rate, target := l.target, rttMax := l.rttMax,
    rstUp := l.rstUp }
  (({ d with link := fresh }).setFld A.resync 17 1 1).sillLink 2

/-- Bit list of a loss set: slot j, bit b stands for tag 128 j + b. -/
def lossSlots (l : List (BitVec 12)) (n : Nat) : List Slot :=
  (List.range n).map (fun j => BitVec.ofNat 128
    (l.foldl (fun acc t => if t.toNat / 128 = j then acc ||| 2 ^ (t.toNat % 128) else acc) 0))

/-- The RESYNC message (Table 4.9). -/
def Txn.resyncSlots (x : Txn) (attn : Nat) : List Slot :=
  let mbits := x.lossM.foldl (fun acc t => if t.toNat < 16 then acc ||| 2 ^ t.toNat else acc) 0
  BitVec.ofNat 128 (6 <<< 124 ||| attn <<< 94 ||| x.epoch.toNat <<< 86 ||| b2n x.resyncRst <<< 85 ||| mbits <<< 64) ::
    lossSlots x.lossQ 32 ++ lossSlots x.lossK 2

/-- Queue a RESYNC behind every RSP_M already built (R116). -/
def Dev.queueResync (d : Dev) : Dev :=
  let o : OutMsg := { vc := .m, tag := 0, resync := true, started := false, slots := d.txn.resyncSlots d.attnValue }
  d.modTxn (fun x => { x with outM := x.outM ++ [o] })

/-- Every message accepted before the link-down has executed (R116). -/
def Dev.resyncDue (d : Dev) : Bool :=
  d.link.st = .up && bit (d.reg A.resync) 17 && !(d.txn.outM.any (fun o => o.resync)) &&
    d.txn.track.all (fun t => !t.dead || t.executed)

/-- The next epoch: 1 first, then one higher, wrapping from 255 to 1 (R116). -/
def nextEpochOf (e : BitVec 8) : BitVec 8 := if e = 255 then 1 else e + 1

/-- Build the RESYNC of this link-up (R116). -/
def Dev.resyncBuild (d : Dev) : Dev :=
  if !d.resyncDue then d
  else
    let d1 := d.modTxn (fun x => { x with epoch := nextEpochOf x.epoch, resyncRst := d.link.rstUp })
    (d1.modLink (fun l => { l with rstUp := false })).queueResync

/-- A write of TXN.RESYNC (R118). -/
def Dev.resyncAck (d : Dev) (v : Word) : Dev :=
  if bit (d.reg A.resync) 16 && fld v 0 8 = d.fldR A.resync 8 8 then
    (d.modTxn (fun x => { x with lossQ := [], lossK := [], lossM := [],
                                 outM := x.outM.filter (fun o => !o.resync || o.started) })).setFld A.resync 16 1 0
  else d

end Sys2Proof.Machine
end

