-- ==== Sys2Proof/Machine/Admit.lean ====
section
/-! DEFINITION. Taking requests and engine accesses into the queues: decode (R103, R104), speculation (R110), verdicts
(R111), admission in the order of R130, real-time bursts (R153). -/

namespace Sys2Proof.Machine

/-! ### Priorities (R138, R142 to R144) -/

/-- First-step priority of note `n` at port `p`: 3 urgent, 2 normal, 1 background. -/
def Dev.basePrio (d : Dev) (p : Fin 4) (n : BitVec 4) : Nat :=
  if d.overBudget p n then 1 else match d.notePrio n with
    | 1 => 3
    | 2 => 2
    | _ => 1

/-- Current priority after `promo` promotions (R138); note 15 ranks above (4). -/
def Dev.curPrio (d : Dev) (p : Fin 4) (n : BitVec 4) (promo : Nat) : Nat :=
  if n = 15 then 4
  else
    let starve := d.schedCfg p 0x10 4
    min 3 (d.basePrio p n + if starve = 0 then 0 else min 2 promo)

/-! ### Ingress -/

/-- The IDLE fallback of a commit holds acceptance at the port (R52). -/
def Dev.cgHeld (d : Dev) (p : Fin 4) : Bool := d.cg[2].hold.getLsbD p.val || d.cg[4].hold.getLsbD p.val

/-- The port takes requests now (R52, R130, Table 6.3 step 1). -/
def Dev.ingress (d : Dev) (p : Fin 4) : Bool := d.powerOpen && (d.ports[p]).sr = .run && !d.cgHeld p

/-- An access that belongs to work already admitted: the lines of tier accesses and steps, the page map's own. -/
def Held.isInner (h : Held) : Bool :=
  match h.who with
  | .hub .. => false
  | .slot .. => false
  | .latom .. => false
  | _ => true

/-- Role engines read and write lines from the end of step 6 of a wake, before ingress is released (R169, R323). -/
def Dev.engOpen (d : Dev) (h : Held) : Bool := !h.isHub && d.pwrPhase = 3 && 7 ≤ d.pwr.wakeStep

/-- The port takes this access now: what is already under way may finish while an entry to self-refresh drains the port. -/
def Dev.lets (d : Dev) (p : Fin 4) (h : Held) : Bool :=
  if h.isInner then ((d.ports[p]).sr = .run || (d.ports[p]).sr = .drain) && !d.cgHeld p
  else d.ingress p || (d.engOpen h && (d.ports[p]).sr = .run && !d.cgHeld p)

/-- A real-time burst begins with an RT request or access (R153); a Geyser ends for each tile with its unit (R155). -/
def Dev.rtBegin (d : Dev) (p : Fin 4) (n : BitVec 4) : Dev :=
  if d.noteRt n then
    { d.modPort p (fun x => { x with rtBurst := true, burstEnded := false }) with
      tiles := Vector.ofFn (fun (t : Fin 16) =>
        let x := d.tiles[t]
        if tilePort t = p && x.geyser then { x with geyser := x.refUnit, geyserEnd := x.refUnit } else x) }
  else d

/-! ### Decode -/

def Op.maskZero : Op → Bool
  | .wrm m _ => m = 0
  | _ => false

/-- STATUS decided at decode for a Q request other than FLUSH (R103, R104). A line of an elastic region is LOST by its page
map entry where the cache holds it; otherwise that is found once the entry is known (log 90). -/
def Dev.decideQ (d : Dev) (r : Req) (op : Op) : Option Status :=
  if d.noAccord then some .opfault
  else match d.lookupRegion r.line with
    | none => some .opfault
    | some k =>
      if op.maskZero then some .noop
      else
        let loc := addrMap d.cfg r.line
        let direct := !regionElastic d.cfg k
        let lost := if direct then op.needsOld && d.bankLost loc
          else (d.pmcGet (pageIdx d.cfg k r.line)).any (fun e => d.entLost e r.line op)
        if lost then some .lost
        else if d.flt.fatal then some .poison
        else if direct && d.subFenced (locSub loc) then some .poison
        else none

/-- A message of the hub, decoded and not yet judged. -/
def mkHeld (vc : Vc) (r : Req) (op : Op) (decided : Option Status) (rid c0 : Nat) : Held :=
  { vc := vc, r := r, op := op, who := .hub r.tag r.src, master := masterHub r.src, rid := rid, c0 := c0,
    decided := decided, accepted := false, taken := false, msg := true, fixed := none, page := none }

/-- The port of a direct line. -/
def Dev.linePort (d : Dev) (l : LineAddr) : Option (Fin 4) :=
  match regionOf d.cfg (addrOf l) with
  | some k => if regionElastic d.cfg k then none else some (locPort (addrMap d.cfg l))
  | none => none

/-- The transaction unit decodes requests now: powered on and past the core reset (R308). -/
def Dev.decodes (d : Dev) : Bool := d.on && !(within 1 4 d.rst.step)

def bankAt (x : Port) (l : Loc) : Bank := sget Bank.closed x.banks (portBankKey l)

/-- Key use of a direct line. -/
def Dev.directKey (d : Dev) (l : LineAddr) : KeyUse :=
  match regionOf d.cfg (addrOf l) with
  | some k => d.keyUse k (regionLine d.cfg k l) l
  | none => KeyUse.plain l

/-- The queue entry of a speculative RD. -/
def RdEnt.specOf (rid : Nat) (r : RdEnt) : Bool := r.specWait && r.acc.rid = rid

/-- A RD already in its port's queue, waiting for its verdict only. -/
def Dev.isSpec (d : Dev) (h : Held) : Bool := d.ports.any (fun (p : Port) => p.rdq.any (RdEnt.specOf h.rid))

/-- Waiting messages of port `p` stand before a new one of note `n` (R130). -/
def Dev.queueAhead (d : Dev) (p : Fin 4) (n : BitVec 4) (l : LineAddr) : Bool :=
  d.txn.held.any (fun h => h.vc = .q && h.msg && h.decided.isNone && !h.taken && (d.heldLoc h).map locPort = some p &&
    !d.isSpec h && (n ≠ 15 || h.r.note = 15 || h.r.line = l))

/-- R110: a RD that enters the scheduler before its verdict. An earlier write of the line that still waits to be taken is a
hazard as well (R97). -/
def Dev.speculates (d : Dev) (r : Req) : Bool :=
  match d.linePort r.line with
  | none => false
  | some p =>
    let loc := addrMap d.cfg r.line
    let b := bankAt d.ports[p] loc
    bit (d.reg A.txnCtl) 0 && (b.row = none || b.row = some (d.physRow loc)) &&
      ((d.ports[p]).wrAt loc).isNone && !(d.ports[p]).locked loc &&
      !(d.txn.held.any (fun h => d.heldLoc h = some loc && h.vc = .q && h.op.isWrite && h.decided.isNone)) &&
      (r.note = 15 || 2 ≤ d.basePrio p r.note) && d.ingress p && d.rdFree p r.note && !d.queueAhead p r.note r.line

/-- A Q request other than FLUSH is decoded (request cycle 1). -/
def Dev.decodeQ (d : Dev) (r : Req) (op : Op) : Dev :=
  if !d.decodes then d
  else
    let dec := d.decideQ r op
    let h := mkHeld .q r op dec d.txn.nextRid d.cc
    let d0 := d.tickRid
    let d1 := match dec, d.linePort r.line with
      | none, some p => d0.arrive p
      | _, _ => d0
    if dec.isNone && op = .rd && d1.speculates r then
      let loc := addrMap d.cfg r.line
      let p := locPort loc
      (((d1.modPort p (fun x => x.putRead loc (d1.directKey r.line) .rd (d1.accOf h) none true)).bump A.spec 24 24).rtBegin p
        r.note).hold h
    else d1.hold h

/-! ### Admission -/

/-- A read queued behind the line's open entry waits for it; a write lets it go first (R97, R105; DEDUCED, log 19). -/
def Port.readsWait (x : Port) (loc : Loc) : Bool :=
  match x.wrAt loc with
  | some e => !e.full && x.rdq.any (fun r => r.loc = loc && e.q < r.q && (match r.op with | .merge _ => false | _ => true))
  | none => false

/-- The access goes by media address (R253): not by region, and not by location. -/
def Held.byMedia (h : Held) : Bool := h.page.isNone && h.fixed.any (fun x => !x.2.isLoc) && !h.isInner

/-- A request or access to a known line enters the queues of its port (R105 to R107, R129); `none` when it lacks an
entry, or an earlier read of the line must go first. -/
def Dev.admitOne (d : Dev) (h : Held) (p : Fin 4) (loc : Loc) : Option Dev :=
  let key := match h.fixed with
    | some (_, k) => k
    | none => d.directKey h.r.line
  let n := h.r.note
  let acc := d.accOf h
  let at? := (d.ports[p]).wrAt loc
  let ov := if h.byMedia then d.overlay key.media else none
  if (h.op.needsRd at? && !d.rdFree p n) || (h.op.needsWr at? && !d.wrFree p n) then none
  else
    let wr := fun (mask : BitVec 64) (l : Line) (poison : Bool) =>
      if (d.ports[p]).readsWait loc then none
      else
        let d1 := (d.enterWrite p loc key mask l poison acc).forwardReady p loc
        some (if h.byMedia then d1.pmtWrote key.media (if poison then none else some l) else d1)
    match h.op with
    | .rd =>
      (match at? with
      | some e => if e.full then some (d.deliverRead acc ov e.forward (some e.key))
        else some (d.modPort p (fun x => x.putRead loc key .rd acc ov false))
      | none => some (d.modPort p (fun x => x.putRead loc key .rd acc ov false)))
    | .wr l => wr fullMask l false
    | .wrm m l => wr m l false
    | .pois => wr fullMask 0 true
    | .atom op w c v =>
      (match at? with
      | some e =>
        if e.full then some (d.atomOn p loc e.key acc op w c v ov e.forward.data)
        else some (((d.modPort p (fun x => { x with locks := x.locks ++ [loc] }.putRead loc key (.atom op w c v) acc ov false))).drainStart p)
      | none => some (((d.modPort p (fun x => { x with locks := x.locks ++ [loc] }.putRead loc key (.atom op w c v) acc ov false))).drainStart p))
    | _ => some d

def Dev.unhold (d : Dev) (h : Held) : Dev :=
  (d.modTxn (fun x => { x with held := dropFirst (· = h) x.held })).rxDrop h

/-- A held access ends unperformed (R291, R292): as an answer, or for the operation that it belongs to. -/
def Dev.refuseHeld (d : Dev) (h : Held) (st : Status) : Dev :=
  match h.who with
  | .tier id i => if h.op = .rd then d.tierGot id i none false false else (d.writeEnd h.rid true).tierLoaded id
  | .pmc idx => d.modTier (fun t => { t with loaded := kvSet t.loaded idx.toNat none })
  | .job id _ => d.jobDrop id
  | .fill s => d.modProt s (fun x => { x with fillLeft := x.fillLeft - 1 })
  | .init => d.modTier (fun t => { t with initLeft := t.initLeft - 1 })
  | _ => d.answerHeld h st

/-- A request or access to an elastic line joins the tier's list (R235, R241); its message keeps its receive-buffer space
until it is taken (R130). -/
def Dev.enterTier (d : Dev) (h : Held) (k : Nat) : Dev :=
  (d.modTxn (fun x => { x with held := dropFirst (· = h) x.held })).tierEnter (mkTierOp (pageIdx d.cfg k h.r.line)
    { h with c0 := if h.isHub then h.c0 else d.cc } none)

/-- The engine whose access this is. -/
def Held.engineNo (h : Held) : Option (Fin 72) :=
  match h.who with
  | .slot e _ _ => some e
  | .latom e _ => some e
  | _ => none

/-- A waiting access `w` of the port keeps a later one back: a message by R130, an engine's by its issue order (R259), one of
the block's own to the same line. -/
def keepsBack (w h : Held) (same : Bool) : Bool :=
  if h.msg then w.msg && (h.r.note ≠ 15 || w.r.note = 15 || same)
  else if h.isInner then w.isInner && same
  else w.engineNo.isSome && w.engineNo = h.engineNo

/-- The lock of `loc` is the step's own whose access this is. -/
def Dev.ownsLock (d : Dev) (h : Held) (loc : Loc) : Bool :=
  match h.who with
  | .job id _ => d.jobs.any (fun j => j.id = id && j.lines.any (fun x => x.1 = loc))
  | _ => false

/-- A fill of the subchannel is due or under way: requests to its tiles wait (R216). -/
def Dev.fillHolds (d : Dev) (s : Fin 8) : Bool := (d.prots[s]).filling || (d.prots[s]).fillDue

/-- An ATOM locks its line from decode on (R105). -/
def Dev.atomLock (d : Dev) (h : Held) : List Loc :=
  match h.op with
  | .atom .. => (d.heldLoc h).toList
  | _ => []

/-- The held requests in arrival order; `wait` are the earlier ones that keep waiting, with their locations, `locked` the
lines of earlier atomics and of those taken behind a lock. -/
def Dev.admitList : List Held → List (Held × Option Loc) → List Loc → Dev → Dev
  | [], _, _, d => d
  | h :: r, wait, locked, d =>
    let stay : Dev → Dev := fun x => Dev.admitList r (wait ++ [(h, d.heldLoc h)]) (locked ++ d.atomLock h) x
    if h.vc ≠ .q || h.decided.isSome then Dev.admitList r wait locked d
    else if !h.accepted then stay d
    else match d.heldLoc h, regionOf d.cfg (addrOf h.r.line) with
      | none, none => Dev.admitList r wait locked ((d.unhold h).answerHeld h .opfault)
      | none, some k => if d.powerOpen then Dev.admitList r wait locked (d.enterTier h k) else stay d
      | some loc, _ =>
        let p := locPort loc
        let own := d.ownsLock h loc
        let behind := !own && ((d.ports[p]).locked loc || locked.contains loc)
        let kept := !own && !h.taken && wait.any (fun w => w.2.map locPort = some p && keepsBack w.1 h (w.2 = some loc))
        let at? := (d.ports[p]).wrAt loc
        if d.subFenced (locSub loc) then Dev.admitList r wait locked ((d.unhold h).refuseHeld h .poison)
        else if kept || !d.lets p h || (d.fillHolds (locSub loc) && !h.taken) then stay d
        else if behind then
          (if h.taken then Dev.admitList r wait (locked ++ [loc]) d
           else if (!h.op.needsRd at? || d.rdFree p h.r.note) && (!h.op.needsWr at? || d.wrFree p h.r.note) then
            Dev.admitList r wait (locked ++ [loc])
              ((d.modTxn (fun x => { x with held := modFirst (· = h) (fun y => { y with taken := true }) x.held })).rxDrop h)
           else stay d)
        else match (d.unhold h).admitOne h p loc with
          | some d1 => Dev.admitList r wait locked (d1.rtBegin p h.r.note)
          | none => if h.taken then Dev.admitList r wait (locked ++ [loc]) d else stay d

/-- Take every request and access that can be taken (R130), and let the tier's accesses go on: what one of them starts is
taken in its turn. -/
def Dev.settleN : Nat → Dev → Dev
  | 0, d => d
  | n + 1, d => Dev.settleN n ((Dev.admitList d.txn.held [] [] d).jobsEnd.tierAdvance)

/-- Four rounds reach from a request's lookup to its lines' reads. -/
def Dev.enterQueues (d : Dev) : Dev := Dev.settleN 4 d

/-! ### Verdicts (R104, R111) -/

/-- An accepted write that a FLUSH will wait for (R109). -/
def Dev.noteWrite (d : Dev) (h : Held) : Dev :=
  if h.op.isWrite then d.modTxn (fun x => { x with writes := x.writes ++ [h.rid] }) else d

/-- A FLUSH is accepted: it waits for every write accepted before it, and the ports that hold them drain (R109, R132). -/
def Dev.takeFlush (d : Dev) (h : Held) : Dev :=
  Dev.each (fun p x => x.drainStart p) allPorts ((d.unhold h).modTxn (fun x =>
    { x with flushes := x.flushes ++ [{ tag := h.r.tag, src := h.r.src, cover := x.writes, poison := false }] }))

/-- The verdict of a Q request. One accepted in FATAL is not performed (R103, R292). -/
def Dev.verdictQ (d : Dev) (h : Held) (ok : Bool) : Dev :=
  let spec := d.isSpec h
  let unspec : Dev → Dev := fun x =>
    { x with ports := x.ports.map (fun (y : Port) => { y with rdq := y.rdq.filter (fun r => !r.specOf h.rid) }) }
  if ok then
    let d1 := d.openTrack .q h.r.tag
    match h.decided with
    | some st => (d1.unhold h).answerHeld h st
    | none =>
      if d1.flt.fatal then ((unspec d1).unhold h).answerHeld h .poison
      else if h.op = .flush then d1.takeFlush h
      else if spec then
        let d2 := { d1 with ports := d1.ports.map (fun (x : Port) =>
          { x with rdq := x.rdq.map (fun (r : RdEnt) => if r.specOf h.rid then { r with specWait := false } else r) }) }
        (d2.unhold h).enterQueues
      else ((d1.noteWrite h).modTxn (fun x =>
        { x with held := modFirst (· = h) (fun y => { y with accepted := true }) x.held })).enterQueues
  else
    let d1 := d.modTxn (fun x => { x with held := dropFirst (· = h) x.held })
    if spec then ((unspec d1).bump A.spec 0 24).enterQueues else d1.enterQueues

end Sys2Proof.Machine
end

