-- ==== Sys2Proof/Machine/Sched.lean ====
section
/-! DEFINITION. Choosing and issuing DRAM commands (R134 to R141): timing, candidates, the ranking of Table 5.4, column
loads, the disturbance tracker (R157 to R160), encryption and encoding of writes, and what a captured burst brings
about (R201 to R208). -/

namespace Sys2Proof.Machine

/-! ### Population and timing (Tables 7.2 and 7.3) -/

/-- CK_D divider: root PLL periods in one tCK (Table 12.1). -/
def Dev.div (d : Dev) : Nat := d.cfgLe Sec.clock 0 1

/-- A time in 10 ps as root PLL periods of whole tCK, rounded up (R175). -/
def Dev.t10ps (d : Dev) (v : Nat) : Nat := ceilDiv (v * 288) (1000 * d.div) * d.div
def Dev.tCk (d : Dev) (n : Nat) : Nat := n * d.div

/-- Entry `i` of TIMING. -/
def Dev.timing (d : Dev) (t : Fin 16) (i : Nat) : Nat := d.t10ps (d.popCfg t (0x16 + 2 * i) 2)
/-- A field in ns. -/
def Dev.tNs (d : Dev) (t : Fin 16) (off : Nat) : Nat := d.t10ps (100 * d.popCfg t off 2)
def Dev.rl (d : Dev) (t : Fin 16) : Nat := d.popCfg t 0x12 1
def Dev.cwl (d : Dev) (t : Fin 16) : Nat := d.popCfg t 0x13 1

/-- Time now at port `p`, in root PLL periods: one cc is 12 (Table 12.1). -/
def Dev.now (d : Dev) (p : Fin 4) : Nat := 12 * (d.ports[p]).cyc

def since (o : Option Nat) (gap now : Nat) : Bool :=
  match o with
  | some t => t + gap ≤ now
  | none => true

/-! ### The command bus (R174, R180) -/

/-- A tile holds each command on CA for one tCK, or two for CAMODE 2N. A reserved CAMODE is unpredictable (R6;
DESIGN CHOICE, log 87). -/
def Dev.caHold (d : Dev) (t : Fin 16) : Nat := d.tCk (codeOf [1, 2] (d.popCfg t 3 1))

/-- When the next command to tile `t` may follow on CA: two tCK later still when it selects the other tile. -/
def Dev.busNext (d : Dev) (s : Fin 8) (t : Fin 16) : Nat :=
  match (d.phys[s]).lastCmd with
  | none => 0
  | some c => (d.phys[s]).lastAt + d.caHold c.tile + d.tCk (if c.tile = t then 0 else 2)

def Dev.busFree (d : Dev) (s : Fin 8) (t : Fin 16) (now : Nat) : Bool := d.busNext s t ≤ now

/-- A command leaves at time `at0` with the CA, CS and CK delays of the tile that it selects. -/
def Dev.issueAt (d : Dev) (s : Fin 8) (c : Cmd) (at0 : Nat) : Dev :=
  d.modPhy s (fun x => { x with lastCmd := some c, lastAt := at0, lastDly := d.reg (A.dlyTile c.tile.val) })

/-- It leaves as soon as the bus is free, `wait` or more root PLL periods from now. -/
def Dev.issue (d : Dev) (s : Fin 8) (wait : Nat) (c : Cmd) : Dev :=
  d.issueAt s c (max (d.now (subPort s) + wait) (d.busNext s c.tile))

/-- Commands may leave: ALERT_N is high, and no test operation or its turnaround holds the subchannel (R180, R188). -/
def Dev.caOpen (d : Dev) (s : Fin 8) : Bool :=
  let x := d.phys[s]
  x.alert ≠ .low && !x.testSent && x.turnUntil ≤ d.now (subPort s)

/-- Commands that no pick decides: they leave in order, at once or when the subchannel issues again. -/
def Dev.caSend (d : Dev) (s : Fin 8) (wait : Nat) (cs : List Cmd) : Dev :=
  if d.caOpen s then Dev.each (fun c x => x.issue s wait c) cs d
  else d.modPhy s (fun x => { x with due := x.due ++ cs })

/-- The commands that waited leave. -/
def Dev.caFlush (d : Dev) (s : Fin 8) : Dev :=
  if (d.phys[s]).due = [] || !d.caOpen s then d
  else Dev.each (fun c x => x.issue s 0 c) (d.phys[s]).due (d.modPhy s (fun x => { x with due := [] }))

/-- A command to layer `cid` of a tile that names no bank. -/
def layerCmd (kind : CmdKind) (t : Fin 16) (row cid : Nat) : Cmd :=
  { kind := kind, tile := t, cid := BitVec.ofNat 3 cid, bg := 0, bank := 0, row := BitVec.ofNat 18 row, col := 0, ap := false }

/-- One such command to each layer of a tile, in ascending CID order. -/
def Dev.layerSend (d : Dev) (t : Fin 16) (kind : CmdKind) (row wait : Nat) : Dev :=
  d.caSend (tileSub t) wait ((List.range (d.stack t)).map (layerCmd kind t row))

/-! ### Timing of requests -/

/-- ACT timing: tRP, tRRD_S, tRRD_L, tRRD_dlr, tFAW (JESD79-5, log 11). -/
def Dev.actLegal (d : Dev) (s : Fin 8) (t : Fin 16) (cid bg : BitVec 3) (b : Bank) (now : Nat) : Bool :=
  since b.tPre (d.timing t 1) now &&
    (d.phys[s]).acts.all (fun a => a.2.1 ≠ t || since (some a.1)
      (if a.2.2.1 ≠ cid then d.timing t 9 else if a.2.2.2 = bg then d.timing t 8 else d.timing t 7) now) &&
    (match ((d.phys[s]).acts.filter (fun a => a.2.1 = t && a.2.2.1 = cid))[3]? with
      | some a => a.1 + d.timing t 12 ≤ now
      | none => true)

/-- PRE timing: tRAS, tRTP, write recovery. -/
def Dev.preLegal (d : Dev) (t : Fin 16) (b : Bank) (now : Nat) : Bool :=
  since b.tAct (d.timing t 2) now && since b.tRd (d.timing t 3) now &&
    since b.tWr (d.tCk (d.cwl t + 8) + d.timing t 4) now

/-- Column command timing: tRCD, tCCD, tWTR and the turnarounds of the data bus. -/
def Dev.colLegal (d : Dev) (s : Fin 8) (t : Fin 16) (bg : BitVec 3) (b : Bank) (write : Bool) (now : Nat) : Bool :=
  since b.tAct (d.timing t 0) now &&
    (match (d.phys[s]).lastCol with
      | none => true
      | some (at0, lt, lbg, lw) =>
        let near := lt = t && lbg = bg
        let ccdS := d.tCk (d.popCfg t 0x14 1 + if lt = t then 0 else 2)
        let gap :=
          if lw && write then (if near then d.timing t 11 else ccdS)
          else if lw then
            (if lt = t then d.tCk (d.cwl t + 8) + (if near then d.timing t 6 else d.timing t 5)
             else d.tCk (d.cwl t + 10 - d.rl t))
          else if write then d.tCk (d.rl t + 10 - d.cwl t)
          else (if near then d.timing t 10 else ccdS)
        at0 + gap ≤ now)

/-! ### What holds a tile (R134, R151, R154, R178, R216) -/

def Dev.limitOf (d : Dev) (t : Fin 16) : Nat := d.refrCfg (tilePort t) (4 + t.val % 4) 1
/-- F(t) and A(t). -/
def Dev.forceLevel (d : Dev) (t : Fin 16) : Nat := max (d.limitOf t) 1
def Dev.issueLevel (d : Dev) (t : Fin 16) : Nat :=
  let a := d.refrCfg (tilePort t) (8 + t.val % 4) 1
  if within 1 (d.forceLevel t) a then a else d.forceLevel t

/-- MODE (Table 6.4). A reserved one is unpredictable (R6; DESIGN CHOICE, log 87). -/
def Dev.refMode (d : Dev) (p : Fin 4) : Nat := codeOf [0, 1, 2] (d.refrCfg p 0 1)

/-- What the tile owes has reached the level of Table 6.1. -/
def Dev.levelReached (d : Dev) (t : Fin 16) : Bool :=
  let p := tilePort t
  d.refMode p ≠ 0 && (if (d.ports[p]).rtBurst then d.forceLevel t else d.issueLevel t) ≤ (d.tiles[t]).owed

/-- A unit that has become due by force stays so until it completes (R154). -/
def Dev.latchForced (d : Dev) (t : Fin 16) : Dev :=
  if d.levelReached t then d.modTile t (fun x => { x with forced := true }) else d

/-- A unit is due by force at tile `t` (Table 6.1), in a Geyser at once (R155); not during a calibration pause (R156). -/
def Dev.refForced (d : Dev) (t : Fin 16) : Bool :=
  let x := d.tiles[t]
  d.refMode (tilePort t) ≠ 0 && !(d.cals[tilePort t]).pause &&
    ((x.geyser && !x.geyserEnd && 1 ≤ x.owed) || x.forced || d.levelReached t)

/-- Bank and CID of the next REFsb of a same-bank unit: bank 0 to bank 3, layers ascending within each (R151). -/
def Dev.nextSb (d : Dev) (t : Fin 16) : Nat × Nat :=
  let k := if (d.tiles[t]).refUnit then (d.tiles[t]).refNext else 0
  (k / d.stack t, k % d.stack t)

/-- Refresh holds layer `cid` and bank `bank` of the tile (R151, R154). All-bank mode: the whole tile, during a unit, for tRFC
after it, and while one is due by force. Same-bank mode: the banks of the next REFsb while the unit is forced; a bank under
refresh is held by its own ACT timing (`Dev.unitIssue`). -/
def Dev.refHolds (d : Dev) (t : Fin 16) (cid bank now : Nat) : Bool :=
  if d.refMode (tilePort t) = 2 then d.refForced t && d.nextSb t = (bank, cid)
  else (d.tiles[t]).refUnit || now < (d.tiles[t]).holdUntil || d.refForced t

/-- In service (R178). -/
def Dev.ready (d : Dev) (t : Fin 16) : Bool := bit (d.reg (A.dlyState t.val)) 0

/-- The bank that a PPR of subchannel `s` names, as a key of its port (Table 8.18). -/
def pprKey (s : Fin 8) (v : Word) : Nat := (2 * s.val + fld v 45 1) % 4 * 256 + bankKey (fld v 42 3) (fld v 39 3) (fld v 37 2)

/-- A soft PPR holds its bank for the sequence (R214). -/
def Dev.pprHolds (d : Dev) (s : Fin 8) (key : Nat) : Bool :=
  (d.prots[s]).rowOp.any (fun o => o.kind = 3 && !o.waiting && pprKey s o.v = key)

/-- Commands of requests may go to the tile's layer `cid` and bank `bank` now. -/
def Dev.tileServes (d : Dev) (t : Fin 16) (cid bank now : Nat) : Bool :=
  (d.tiles[t]).powered && !(d.tiles[t]).inSr && !(d.tiles[t]).ramping && d.ready t &&
    !d.refHolds t cid bank now

/-- The subchannel issues commands of requests now; in step 2 of a full reset the drain path does, in FATAL too (R309). -/
def Dev.subServes (d : Dev) (p : Fin 4) (s : Fin 8) : Bool :=
  d.on && (if d.rst.step = 2 then !d.pwr.toReset else !(within 1 5 d.rst.step) && !d.flt.fatal) && !d.subFenced s && !(d.cals[p]).pause && d.caOpen s &&
    ((d.ports[p]).sr = .run || (d.ports[p]).sr = .drain) &&
    (d.pwrState = 0 || d.pwrState = 1)

/-! ### Candidates (R134 to R138) -/

/-- What the ranking of Table 5.4 compares. -/
structure Rank where
  /-- a RD that was picked before its verdict goes ahead of everything once it is accepted (R111) -/
  held : Nat
  n15 : Nat
  prio : Nat
  dir : Nat
  col : Nat
  age : Nat
  q : Nat
deriving DecidableEq, Repr

/-- `a` ranks above `b`: the first line on which they differ decides. -/
def Rank.above (a b : Rank) : Bool :=
  if a.held ≠ b.held then b.held < a.held
  else if a.n15 ≠ b.n15 then b.n15 < a.n15
  else if a.prio ≠ b.prio then b.prio < a.prio
  else if a.dir ≠ b.dir then b.dir < a.dir
  else if a.col ≠ b.col then b.col < a.col
  else if a.age ≠ b.age then b.age < a.age
  else a.q < b.q

/-- Above without the lines from the fourth on. -/
def Rank.aboveTop (a b : Rank) : Bool :=
  Rank.above { a with col := 0, age := 0, q := 0 } { b with col := 0, age := 0, q := 0 }

structure Cand where
  isRead : Bool
  q : Nat
  rank : Rank
  cmd : Cmd
  loc : Loc
  /-- held back only by a penalty (R160) -/
  penal : Bool
deriving DecidableEq, Repr

def mkCmd (kind : CmdKind) (l : Loc) (row : BitVec 18) : Cmd :=
  { kind := kind, tile := locTile l, cid := BitVec.ofNat 3 (locCid l), bg := BitVec.ofNat 3 (locBg l),
    bank := BitVec.ofNat 2 (locBank l), row := row, col := BitVec.ofNat 7 (locCol l), ap := false }

def Dev.draining (d : Dev) (p : Fin 4) : Bool := (d.ports[p]).drain ≠ 0

/-- W (Table 5.6). -/
def Dev.ageWeight (d : Dev) (p : Fin 4) (n : BitVec 4) : Nat := (d.schedCfg p 0x18 8 >>> (4 * n.toNat)) % 16

def Dev.rankOf (d : Dev) (p : Fin 4) (read : Bool) (n : BitVec 4) (t0 promo q : Nat) (col : Bool) : Rank :=
  { held := 0, n15 := if n = 15 then 1 else 0, prio := if n = 15 then 0 else d.curPrio p n promo,
    dir := if d.draining p = read then 0 else 1, col := if col then 1 else 0,
    age := ((d.ports[p]).cyc - t0) * (1 + d.ageWeight p n), q := q }

/-- Writes that R133 lets be candidates. -/
def Dev.drainWrite (d : Dev) (p : Fin 4) (w : WrEnt) : Bool :=
  let dr := (d.ports[p]).drain
  w.note = 15 || dr = 0 || dr.getLsbD 1 || dr.getLsbD 2 || w.aged || d.covers w

/-- The write candidate that waits for read `r` (R105, R106), the oldest one. -/
def Dev.writeBehind (d : Dev) (p : Fin 4) (r : RdEnt) : Option WrEnt :=
  (d.ports[p]).wrq.find? (fun w => ((w.loc = r.loc && r.q < w.q) || r.op = .merge w.q) && d.drainWrite p w)

/-- A read that is a candidate in drain by its own right: of note 15, or urgent (R135). -/
def Dev.readFirst (d : Dev) (p : Fin 4) (r : RdEnt) : Bool := r.acc.note = 15 || d.curPrio p r.acc.note r.promo = 3

/-- The rank of a read: in drain, for one that is a candidate only for the write that waits for it, that write's (R135); and
first of all when it was picked before its verdict (R111). -/
def Dev.readRank (d : Dev) (p : Fin 4) (r : RdEnt) (col : Bool) : Rank :=
  let base := match if d.draining p && !d.readFirst p r then d.writeBehind p r else none with
    | some w => d.rankOf p false w.note w.t0 w.promo w.q col
    | none => d.rankOf p true r.acc.note r.t0 r.promo r.q col
  { base with held := if col && r.picked && !r.specWait then 1 else 0 }

/-- A read must wait for the line's write entry to become full or to leave (R105). -/
def Port.readBlocked (x : Port) (r : RdEnt) : Bool :=
  match x.wrAt r.loc with
  | some e => e.q < r.q && r.op ≠ .merge e.q
  | none => false

/-- The penalty that holds an ACT of `m` to the bank (R160). -/
def Dev.penalised (d : Dev) (l : Loc) (m : BitVec 11) : Bool :=
  let t := locTile l
  match kvGet (d.tiles[t]).pens (locBankKey l) with
  | some x => x.master = m && (d.ports[tilePort t]).cyc < x.lastAct + d.refrCfg (tilePort t) 0x12 2
  | none => false

/-- The next command of a request for `l`, whose line is in row `row`, if it is legal now (R134): column, ACT or PRE. -/
def Dev.nextCmd (d : Dev) (p : Fin 4) (l : Loc) (row : BitVec 18) (m : BitVec 11) (write colOk : Bool) : Option (Cmd × Bool) :=
  let s := locSub l
  let t := locTile l
  let now := d.now p
  let b := bankAt d.ports[p] l
  let bg := BitVec.ofNat 3 (locBg l)
  if !d.tileServes t (locCid l) (locBank l) now || !d.busFree s t now || d.pprHolds s (portBankKey l) then none
  else match b.row with
    | none =>
      if d.actLegal s t (BitVec.ofNat 3 (locCid l)) bg b now then some (mkCmd .act l row, d.penalised l m) else none
    | some r =>
      if r = row then
        (if colOk && d.colLegal s t bg b write now then some (mkCmd (if write then .wr else .rd) l row, false) else none)
      else if d.preLegal t b now then some (mkCmd .pre l r, false) else none

/-- Queued requests that hit row `row` of the bank of `l`, with their ranks (R137). -/
def Dev.hitters (d : Dev) (p : Fin 4) (l : Loc) (row : BitVec 18) : List Rank :=
  let hits : Loc → BitVec 18 → Bool := fun x r => portBankKey x = portBankKey l && r = row
  ((d.ports[p]).rdq.filter (fun r => hits r.loc (d.physRow r.loc))).map (fun r => d.readRank p r true) ++
    ((d.ports[p]).wrq.filter (fun w => hits w.loc (d.entRow w))).map (fun w => d.rankOf p false w.note w.t0 w.promo w.q true)

/-- A PRE yields to a request of higher rank that hits the row (R137). -/
def Dev.preYields (d : Dev) (p : Fin 4) (c : Cand) : Bool :=
  c.cmd.kind = .pre && (d.hitters p c.loc c.cmd.row).any (fun r => !c.rank.aboveTop r)

def Dev.readCand (d : Dev) (p : Fin 4) (r : RdEnt) : Option Cand :=
  if (d.ports[p]).readBlocked r then none
  else
    let colOk := !(r.specWait && r.picked) && !((d.phys[r.s]).retry.any (fun b => b.loc = r.loc && b.resent = 0))
    match d.nextCmd p r.loc (d.physRow r.loc) r.acc.master false colOk with
    | none => none
    | some (c, pen) =>
      some { isRead := true, q := r.q, rank := d.readRank p r (c.kind = .rd), cmd := c, loc := r.loc, penal := pen }

def Dev.writeCand (d : Dev) (p : Fin 4) (w : WrEnt) : Option Cand :=
  if w.merging || (d.ports[p]).rdq.any (fun r => r.loc = w.loc && r.q < w.q) then none
  else
    match d.nextCmd p w.loc (d.entRow w) w.master true true with
    | none => none
    | some (c, pen) =>
      some { isRead := false, q := w.q, rank := d.rankOf p false w.note w.t0 w.promo w.q (c.kind = .wr), cmd := c,
             loc := w.loc, penal := pen }

/-- Reads that R135 lets be candidates in drain. -/
def Dev.drainRead (d : Dev) (p : Fin 4) (r : RdEnt) : Bool :=
  !d.draining p || (r.picked && !r.specWait) || d.readFirst p r || (d.writeBehind p r).isSome

/-- All candidates of subchannel `s` before the rule on penalties and on PRE. -/
def Dev.cands (d : Dev) (p : Fin 4) (s : Fin 8) : List Cand :=
  let rs := (d.ports[p]).rdq.filter (fun r => r.s = s && d.drainRead p r)
  let rc := rs.filterMap (fun r => d.readCand p r)
  let live := rc.filter (fun c => !c.penal && !d.preYields p c)
  -- outside drain a write of another note waits while a read of another note is a candidate (R135)
  let block := !d.draining p && live.any (fun c => c.rank.n15 = 0)
  let ws := (d.ports[p]).wrq.filter (fun w => w.s = s && d.drainWrite p w && (w.note = 15 || !block))
  rc ++ ws.filterMap (fun w => d.writeCand p w)

def bestCand : List Cand → Option Cand
  | [] => none
  | c :: r => match bestCand r with
    | none => some c
    | some b => if b.rank.above c.rank then some b else some c

/-- The pick of subchannel `s` (R136). -/
def Dev.pick (d : Dev) (p : Fin 4) (s : Fin 8) : Option Cand :=
  if !d.subServes p s then none
  else bestCand ((d.cands p s).filter (fun c => !c.penal && !d.preYields p c))

/-- A bank due for its idle precharge that no queued request hits (R141): its key. -/
def Dev.duePre (d : Dev) (p : Fin 4) (s : Fin 8) : Option Nat :=
  if !d.subServes p s then none
  else
    ((d.ports[p]).banks.find? (fun e =>
      let t := Fin.ofNat 16 (4 * p.val + e.1 / 256)
      tileSub t = s && e.2.due && e.2.row.isSome && !d.pprHolds s e.1 && d.tileServes t (e.1 % 256 / 32) (e.1 % 4) (d.now p) && d.busFree s t (d.now p) &&
        d.preLegal t e.2 (d.now p) &&
        !((d.ports[p]).rdq.any (fun r => portBankKey r.loc = e.1 && some (d.physRow r.loc) = e.2.row)) &&
        !((d.ports[p]).wrq.any (fun w => portBankKey w.loc = e.1 && some (d.entRow w) = e.2.row)))).map (fun e => e.1)

/-! ### The disturbance tracker (R157 to R160) -/

/-- The update of R158: the new entries and the count that row `r` reaches. -/
def trkUpdate (l : List Trk) (r : BitVec 18) (m : BitVec 11) : List Trk :=
  if l.any (fun e => e.row = r) then
    l.map (fun e =>
      if e.row = r then
        (if e.master = m then { e with count := e.count + 1, vote := e.vote + 1 }
         else if e.vote ≤ 1 then { e with count := e.count + 1, master := m, vote := 1 }
         else { e with count := e.count + 1, vote := e.vote - 1 })
      else e)
  else if l.length < 32 then l ++ [{ row := r, count := 1, master := m, vote := 1 }]
  else
    let lo := l.foldl (fun n e => min n e.count) (l.headD { row := 0, count := 0, master := 0, vote := 0 }).count
    modFirst (fun e => e.count = lo) (fun _ => { row := r, count := lo + 1, master := m, vote := 1 }) l

/-- A disturbance event on the bank of `l` (R159); `first` when none was recorded in this cycle. -/
def Dev.distEvent (d : Dev) (p : Fin 4) (l : Loc) (row : BitVec 18) (m : BitVec 11) (first : Bool) : Dev :=
  let t := locTile l
  let k := locBankKey l
  let d1 := if d.refrCfg p 0x14 4 = 0 then d
    else
      let last := ((bankAt d.ports[p] l).actBy.find? (fun a => a.1 = m)).map (fun a => a.2)
      d.modTile t (fun x => { x with pens := kvSet x.pens k { master := m, lastAct := last.getD 0 } })
  let d2 := if d.feature t 1 then
      d1.issue (locSub l) 0 (mkCmd (if d.refMode p = 2 then .rfmSb else .rfmAb) l 0)
    else d1
  let d3 := (d2.raiseAttn 1).bump (A.dist p.val) 24 24
  if first then
    d3.setReg (A.distLast p.val) (pack [(46, t.val % 4), (42, locCid l + 1), (39, locBg l), (37, locBank l),
      (19, row.toNat), (8, m.toNat), (0, 1)])
  else d3

/-- An ACT of master `m` is counted (R157 to R159); the flag says that an event occurred. -/
def Dev.trackAct (d : Dev) (p : Fin 4) (l : Loc) (row : BitVec 18) (m : BitVec 11) (first : Bool) : Dev × Bool :=
  let th := d.refrCfg p 0x10 2
  if th = 0 then (d, false)
  else
    let t := locTile l
    let k := locBankKey l
    let es := trkUpdate ((kvGet (d.tiles[t]).trackers k).getD []) row m
    match es.find? (fun e => e.row = row) with
    | some e =>
      if th ≤ e.count then
        let es' := es.map (fun x => if x.row = row then { x with count := 0 } else x)
        ((d.modTile t (fun x => { x with trackers := kvSet x.trackers k es' })).distEvent p l row e.master first, true)
      else (d.modTile t (fun x => { x with trackers := kvSet x.trackers k es }), false)
    | none => (d, false)

/-! ### Encryption and encoding of a write (R203, R221, R226, R227) -/

/-- The keystream of a line: block b covers line bytes 16b to 16b + 15, bit [127] first (R226). A slot without a key is
unpredictable: a free line. -/
def Dev.keystream (d : Dev) (k : KeyUse) : Line :=
  match d.crypt.slots[k.slot.toNat]?.join with
  | none => Config.freeLine (k.slot.toNat + 32 * k.media.toNat)
  | some key =>
    lineOf ((List.range 4).flatMap (fun b =>
      slotBytes (aes256 key (BitVec.ofNat 128 (k.media.toNat <<< 86 ||| k.epoch.toNat <<< 54 ||| b <<< 52)))))

def Dev.crypt1 (d : Dev) (k : KeyUse) (l : Line) : Line := if k.enc then l ^^^ d.keystream k else l

/-- The hub's injection of subchannel `s` on this access (R221): the check symbol flips, and the new state. -/
def Dev.injectStep (d : Dev) (s : Fin 8) (write : Bool) : Dev × (Nat → List Nat) :=
  let v := d.reg (A.inject s.val)
  if !bit v 24 || bit v 25 ≠ write || fld v 28 4 = 0 then (d, noInj)
  else
    let flips : Nat → List Nat := fun c =>
      if c = fld v 26 2 then (List.range 4).map (fun k => if bit v (28 + k) then 0xFFFF else 0) else [0, 0, 0, 0]
    let period := fld v 32 16
    if period = 0 then ((d.setFld (A.inject s.val) 24 1 0).bump (A.inject s.val) 0 24, flips)
    else
      let n := (d.prots[s]).injCount + 1
      if period ≤ n then ((d.modProt s (fun x => { x with injCount := 0 })).bump (A.inject s.val) 0 24, flips)
      else (d.modProt s (fun x => { x with injCount := n }), noInj)

/-- The location whose row a write entry goes to. -/
def Dev.entLoc (d : Dev) (w : WrEnt) : Loc :=
  (w.loc &&& ~~~ BitVec.ofNat 37 ((2 ^ 18 - 1) <<< 12)) ||| ((d.entRow w).setWidth 37 <<< 12)

/-- The burst of a write entry, as it is loaded: under the map in force (R206), the line at the rebuild pointer under the
spare map (R210). -/
def Dev.writeBurst (d : Dev) (w : WrEnt) (flips : Nat → List Nat) : List (BitVec 64) :=
  let pr := d.prots[w.s]
  let map := if w.carry = some .rebuild then some pr.spareFor.toNat else pr.mapFor (d.entLoc w)
  encodeLine (d.crypt1 (d.rekey w.key) w.data) w.loc map (fun c =>
    List.zipWith (· ^^^ ·) (flips c) (if w.poison then poisonConst else [0, 0, 0, 0]))

/-! ### Issuing -/

def Dev.modBank (d : Dev) (p : Fin 4) (k : Nat) (f : Bank → Bank) : Dev :=
  d.modPort p (fun x => { x with banks := sset Bank.closed x.banks k (f (sget Bank.closed x.banks k)) })

/-- The column command of entry `q` trains the bank's predictor, and the row is remembered (R140). The row counts as already
open unless the entry's own ACT opened it; another row was open when its own PRE closed one (DEDUCED, log 21). -/
def Bank.train (b : Bank) (row : BitVec 18) (q : Nat) : Bank :=
  let pred := match b.last with
    | none => b.pred
    | some r => if b.actQ ≠ some q || (b.preQ ≠ some q && r = row) then min (b.pred + 1) 3 else b.pred - 1
  { b with pred := pred, last := some row, actQ := none, preQ := none }

/-- Some other queued request hits the row (R141). -/
def Dev.othersHit (d : Dev) (p : Fin 4) (l : Loc) (row : BitVec 18) : Bool := (d.hitters p l row) ≠ []

/-- After a column command: the predictor, the auto-precharge, and the bank's state. -/
def Dev.columnBank (d : Dev) (p : Fin 4) (l : Loc) (row : BitVec 18) (q : Nat) (write : Bool) : Dev × Bool :=
  let k := portBankKey l
  let now := d.now p
  let d1 := d.modBank p k (fun b =>
    { b.train row q with
      due := false, tRd := if write then b.tRd else some now, tWr := if write then some now else b.tWr })
  let b := bankAt d1.ports[p] l
  let ap := b.pred ≤ 1 && !d1.othersHit p l row
  if ap then
    let gap := if write then d.tCk (d.cwl (locTile l) + 8) + d.timing (locTile l) 4 else d.timing (locTile l) 3
    (d1.modBank p k (fun b => { b with row := none, tPre := some (now + gap), preQ := none }), true)
  else (d1, false)

def Dev.sent (d : Dev) (s : Fin 8) (p : Fin 4) (c : Cmd) : Dev :=
  d.issueAt s c (d.now p)

/-- Load a read column command (R201, R206). -/
def Dev.loadRead (d : Dev) (p : Fin 4) (r : RdEnt) (c : Cmd) : Dev :=
  let q := ((d.modPort p (fun x => x.dropRead r.q)).sent r.s p c).columnBank p r.loc c.row r.q false
  let pr := q.1.prots[r.s]
  let spare := pr.mapFor (d.physLoc r.loc)
  let fly : Inflight :=
    { loc := r.loc, key := d.rekey r.key, op := r.op, acc := r.acc, ov := r.ov, spare := spare,
      erased := pr.erased spare, drop := false }
  q.1.modPhy r.s (fun x =>
    { x with
      inflight := x.inflight ++ [fly], lastCmd := some { c with ap := q.2 },
      lastCol := some (d.now p, c.tile, c.bg, false) })

/-- Load a write: encrypt, encode, free the entry, complete what waits for the pins (R105, R108, R129, R179). -/
def Dev.loadWrite (d : Dev) (p : Fin 4) (w : WrEnt) (c : Cmd) : Dev :=
  let inj := d.injectStep w.s true
  let burst := inj.1.writeBurst w inj.2
  let d1 := inj.1.modPort p (fun x => { x with wrq := x.wrq.filter (fun e => e.q ≠ w.q), batch := x.batch.filter (· ≠ w.q) })
  let q := (d1.sent w.s p c).columnBank p w.loc c.row w.q true
  let keep := d.cfgLe Sec.population 1 1 ≠ 0
  let kept : Burst := { loc := w.loc, words := burst, resent := 0 }
  let d2 := q.1.modPhy w.s (fun x =>
    { x with
      lastCmd := some { c with ap := q.2 }, lastWr := some burst, lastCol := some (d.now p, c.tile, c.bg, true),
      retry := if keep then (x.retry ++ [kept]).drop (x.retry.length + 1 - 32) else x.retry })
  let d3 := if w.key.enc then d2.bump (A.cryptCount w.s.val) 24 24 else d2
  (d3.placeWrite w).drainEnd p

/-- The ACT of an entry is issued: a later one that a penalty holds counts again (R160). -/
def Port.actSent (x : Port) (q : Nat) : Port :=
  { x with
    rdq := modFirst (fun e => e.q = q) (fun e => { e with penHeld := false }) x.rdq,
    wrq := modFirst (fun e => e.q = q) (fun e => { e with penHeld := false }) x.wrq }

/-- Load the ACT of entry `q`; the flag says that a disturbance event occurred. -/
def Dev.loadAct (d : Dev) (p : Fin 4) (l : Loc) (m : BitVec 11) (q : Nat) (c : Cmd) (first : Bool) : Dev × Bool :=
  let now := d.now p
  let cyc := (d.ports[p]).cyc
  let d1 := ((d.sent (locSub l) p c).modPort p (fun x => x.actSent q)).modBank p (portBankKey l) (fun b =>
    { b with row := some c.row, due := false, tAct := some now, actQ := some q,
             actBy := (m, cyc) :: b.actBy.filter (fun a => a.1 ≠ m) })
  let d2 := d1.modPhy (locSub l) (fun x => { x with acts := ((now, c.tile, c.cid, c.bg) :: x.acts).take 16 })
  -- a penalised master's ACT starts its wait anew
  let d3 := d2.modTile c.tile (fun x => { x with pens := x.pens.map (fun e =>
    if e.1 = locBankKey l && e.2.master = m then (e.1, { e.2 with lastAct := cyc }) else e) })
  d3.trackAct p l c.row m first

/-- A command discarded by a comparator (R293): the second in a row ends the request POISON. -/
def Dev.discardCmd (d : Dev) (p : Fin 4) (c : Cand) : Dev :=
  let dropWrite := fun (w : WrEnt) (x : Dev) =>
    ((Dev.each (fun (n : Nat × BitVec 4) y => y.writeEnd n.1 true) w.reqs
      (Dev.each (fun e y => y.complete e .poison) w.comps x)).modPort p (fun y =>
      { y with wrq := y.wrq.filter (fun e => e.q ≠ w.q), batch := y.batch.filter (· ≠ w.q) })).drainEnd p
  if c.isRead then
    match (d.ports[p]).rdq.find? (fun r => r.q = c.q) with
    | none => d
    | some r =>
      if r.discards = 0 then d.modPort p (fun x =>
        { x with rdq := modFirst (fun e => e.q = r.q) (fun e => { e with discards := 1 }) x.rdq })
      else
        let d1 := d.dropRdEnt p r
        match r.op with
        | .merge wq =>
          match (d1.ports[p]).wrq.find? (fun w => w.q = wq) with
          | some w => dropWrite w d1
          | none => d1
        | _ => d1
  else
    match (d.ports[p]).wrq.find? (fun w => w.q = c.q) with
    | none => d
    | some w =>
      if w.discards = 0 then d.modPort p (fun x =>
        { x with wrq := modFirst (fun e => e.q = w.q) (fun e => { e with discards := 1 }) x.wrq })
      else dropWrite w d

/-- The picked command's request has not been discarded twice in a row any more. -/
def Port.passed (x : Port) (c : Cand) : Port :=
  if c.isRead then { x with rdq := modFirst (fun e => e.q = c.q) (fun e => { e with discards := 0 }) x.rdq }
  else { x with wrq := modFirst (fun e => e.q = c.q) (fun e => { e with discards := 0 }) x.wrq }

/-- Count the ACTs that penalties hold back, each once (R160). -/
def Dev.countHeld (d : Dev) (p : Fin 4) (s : Fin 8) : Dev :=
  let held := (d.cands p s).filter (fun c => c.penal)
  let isR := fun (r : RdEnt) => !r.penHeld && held.any (fun c => c.isRead && c.q = r.q)
  let isW := fun (w : WrEnt) => !w.penHeld && held.any (fun c => !c.isRead && c.q = w.q)
  let n := ((d.ports[p]).rdq.filter isR).length + ((d.ports[p]).wrq.filter isW).length
  if n = 0 then d
  else (d.modPort p (fun x =>
      { x with
        rdq := x.rdq.map (fun r => if isR r then { r with penHeld := true } else r),
        wrq := x.wrq.map (fun w => if isW w then { w with penHeld := true } else w) })).bumpBy (A.dist p.val) 0 24 n

/-! ### The commands of a refresh unit (R151) -/

/-- The tile's delays that wait for a refresh command land after it (R52); not in a calibration pause (R193). -/
def Dev.delayLand (d : Dev) (t : Fin 16) : Dev :=
  if (d.cg[grpNo 3]).waits t.val = 0 || (d.cals[tilePort t]).pause then d else d.cgLandSet 3 t.val

/-- The bank of bank group `g` that the next REFsb of tile `t` needs. -/
def Dev.sbKey (d : Dev) (t : Fin 16) (g : Nat) : Nat := t.val % 4 * 256 + bankKey (d.nextSb t).2 g (d.nextSb t).1

/-- Commands of a unit: four REFsb for each layer, or one REFab. -/
def Dev.unitCmds (d : Dev) (t : Fin 16) : Nat := if d.refMode (tilePort t) = 2 then 4 * d.stack t else d.stack t

/-- Commands of a unit under way still to issue. -/
def Dev.unitLeft (d : Dev) (t : Fin 16) : Nat := d.unitCmds t - (d.tiles[t]).refNext

/-- The next command of a unit issues. A REFsb closes its bank of every bank group of its layer and holds it until tRFCsb has
passed. A REFab is followed by the next after tRFC_dlr; after the last, the tile is held for tRFC. -/
def Dev.unitIssue (d : Dev) (t : Fin 16) : Dev :=
  let p := tilePort t
  let now := d.now p
  let k := (d.tiles[t]).refNext
  let step : Tile → Tile := fun x => { x with refNext := x.refNext + 1 }
  let d2 := if d.refMode p = 2 then
      let c : Cmd := { layerCmd .refSb t 0 (d.nextSb t).2 with bank := BitVec.ofNat 2 (d.nextSb t).1 }
      let d1 := Dev.each (fun g x => x.modBank p (d.sbKey t g) (fun b =>
        { b with row := none, due := false, tPre := some (now + d.tNs t 0x0C - d.timing t 1), preQ := none })) (List.range 8) d
      (d1.issue (tileSub t) 0 c).modTile t step
    else
      (d.issue (tileSub t) 0 (layerCmd .refAb t 0 k)).modTile t (fun x =>
        { step x with holdUntil := now + d.tNs t (if k + 1 = d.stack t then 0x08 else 0x0A) })
  d2.delayLand t

/-- The unit under way of a tile of subchannel `s` whose next command, not its last, may issue now. -/
def Dev.unitNext (d : Dev) (p : Fin 4) (s : Fin 8) : Option (Fin 16) :=
  let now := d.now p
  (subTiles s).find? (fun t => tilePort t = p && (d.tiles[t]).refUnit && 2 ≤ d.unitLeft t && d.busFree s t now &&
    (if d.refMode p = 2 then (List.range 8).all (fun g =>
        let b := sget Bank.closed (d.ports[p]).banks (d.sbKey t g)
        b.row.isNone || d.preLegal t b now)
     else (d.tiles[t]).holdUntil ≤ now))

/-- In a cycle without a command of its own the subchannel issues the next command of a unit under way, but not the unit's
last: a REFab when tRFC_dlr has passed, a REFsb at a free time, since R151 gives it no spacing (log 20). -/
def Dev.unitAdvance (d : Dev) (p : Fin 4) (s : Fin 8) : Dev :=
  if !d.on || !d.caOpen s then d
  else match d.unitNext p s with
    | none => d
    | some t =>
      if d.refMode p ≠ 2 then d.unitIssue t
      else if Config.freeBool d.freeCtr then d.tickFree.unitIssue t else d.tickFree

/-! ### Test commands (R187, R188) -/

def testTile (s : Fin 8) (v : Word) : Fin 16 := Fin.ofNat 16 (2 * s.val + fld v 6 1)

/-- The command of a test operation. -/
def testCmdOf (s : Fin 8) (v : Word) : Cmd :=
  let op := fld v 0 4
  { kind := if op = 7 then .mrwK else if op = 8 then .mrrK else .test, tile := testTile s v, cid := BitVec.ofNat 3 (fld v 7 3),
    bg := BitVec.ofNat 3 (fld v 12 3), bank := BitVec.ofNat 2 (fld v 10 2), row := BitVec.ofNat 18 (fld v 22 18),
    col := BitVec.ofNat 7 (fld v 15 7), ap := false }

/-- The delay registers of a tile: SLICE_T, SLICE_B and TILE. -/
def dlyRegs (t : Nat) : List Nat := (List.range 13).map (A.sliceT t) ++ (List.range 13).map (A.sliceB t) ++ [A.dlyTile t]

/-- The delay set that a test operation uses: with SHADOW the tile's shadow set, open or following (R53, R184). -/
def Dev.testSet (d : Dev) (s : Fin 8) (v : Word) : List Word :=
  (dlyRegs (testTile s v).val).map (fun a => if bit v 5 then (kvGet d.shadow a).getD (d.reg a) else d.reg a)

/-- The operation starts: its first command leaves under its delay set. -/
def Dev.testSend (d : Dev) (s : Fin 8) (v : Word) : Dev :=
  (d.issue s 0 (testCmdOf s v)).modPhy s (fun x =>
    { x with testSent := true, testDly := d.testSet s v, lastDly := (d.testSet s v).getD 26 0 })

/-- A test operation that waits may start: not in a calibration pause (R190), nor in self-refresh; on a tile in service the
subchannel must issue commands of requests. -/
def Dev.testMay (d : Dev) (p : Fin 4) (s : Fin 8) : Option Word :=
  match (d.phys[s]).test with
  | none => none
  | some v =>
    let t := testTile s v
    if !(d.phys[s]).testSent && d.caOpen s && !(d.cals[p]).pause && !(d.tiles[t]).inSr && d.on && !d.subFenced s &&
        (!d.ready t || d.subServes p s) then some v
    else none

/-- The pick of a subchannel is carried out. `bad`: a comparator discards it (R293). The column command of a RD whose verdict
is still due waits, picked (R111). The flag says that a disturbance event occurred. -/
def Dev.takePick (d : Dev) (p : Fin 4) (s : Fin 8) (c : Cand) (bad first : Bool) : Dev × Bool :=
  if bad then (d.discardCmd p c, false)
  else
    let d1 := d.modPort p (fun x => x.passed c)
    match c.cmd.kind with
    | .act =>
      let m := if c.isRead then ((d.ports[p]).rdq.find? (fun r => r.q = c.q)).map (fun r => r.acc.master)
        else ((d.ports[p]).wrq.find? (fun w => w.q = c.q)).map (fun w => w.master)
      d1.loadAct p c.loc (m.getD 0) c.q c.cmd first
    | .pre =>
      ((d1.sent s p c.cmd).modBank p (portBankKey c.loc) (fun b =>
        { b with row := none, due := false, tPre := some (d.now p), preQ := some c.q }), false)
    | .rd =>
      match (d.ports[p]).rdq.find? (fun r => r.q = c.q) with
      | some r =>
        if r.specWait then (d1.modPort p (fun x =>
          { x with rdq := modFirst (fun e => e.q = r.q) (fun e => { e with picked := true }) x.rdq }), false)
        else (d1.loadRead p r c.cmd, false)
      | none => (d1, false)
    | _ =>
      match (d.ports[p]).wrq.find? (fun w => w.q = c.q) with
      | some w => (d1.loadWrite p w c.cmd, false)
      | none => (d1, false)

/-- A cycle without a pick: an idle precharge that is due, or a command of a refresh unit. -/
def Dev.noPick (d : Dev) (p : Fin 4) (s : Fin 8) (bad : Bool) : Dev :=
  match d.duePre p s with
  | some k =>
    if bad then d
    else
      let t := Fin.ofNat 16 (4 * p.val + k / 256)
      let c : Cmd := { kind := .pre, tile := t, cid := BitVec.ofNat 3 (k % 256 / 32), bg := BitVec.ofNat 3 (k % 32 / 4),
                       bank := BitVec.ofNat 2 (k % 4), row := 0, col := 0, ap := false }
      (d.sent s p c).modBank p k (fun b => { b with row := none, due := false, tPre := some (d.now p), preQ := none })
  | none => d.unitAdvance p s

/-- One cc of one subchannel: at most one command, by what holds at the start of the cycle, `begun` (R134, R138). Commands
that waited for the bus go first; a test operation goes before every request but those of note 15 (R188, log 22). -/
def Dev.pickSub (d begun : Dev) (p : Fin 4) (s : Fin 8) (bad first : Bool) : Dev × Bool :=
  let d0 := if d.subServes p s then d.countHeld p s else d
  if (begun.phys[s]).due ≠ [] && begun.caOpen s then (d0.caFlush s, false)
  else match begun.pick p s, begun.testMay p s with
    | some c, none => d0.takePick p s c bad first
    | some c, some v => if c.rank.n15 = 1 then d0.takePick p s c bad first else (d0.testSend s v, false)
    | none, some v => (d0.testSend s v, false)
    | none, none => (d0.noPick p s bad, false)

/-! ### PPR (R214) -/

/-- A command of the PPR sequence to the bank that the PPR register names. -/
def pprCmd (kind : CmdKind) (s : Fin 8) (v : Word) (row : Nat) : Cmd :=
  { kind := kind, tile := Fin.ofNat 16 (2 * s.val + fld v 45 1), cid := BitVec.ofNat 3 (fld v 42 3), bg := BitVec.ofNat 3 (fld v 39 3),
    bank := BitVec.ofNat 2 (fld v 37 2), row := BitVec.ofNat 18 row, col := 0, ap := false }

/-- The MRW that ends the sequence; the value that an MRW of it carries is JESD79-5's (log 11). -/
def pprExit (s : Fin 8) (v : Word) : Cmd := pprCmd .mrwK s v (Config.freeNat v.toNat)

/-- The JESD79-5 PPR sequence leaves: the entry MRW, ACT of the row, WR and PRE; its bank was closed before, and is after. -/
def Dev.pprGo (d : Dev) (s : Fin 8) : Dev :=
  match (d.prots[s]).rowOp with
  | none => d
  | some o =>
    if o.waiting || o.sent || !(o.kind = 3 || o.kind = 4) then d
    else
      let p := subPort s
      let k := pprKey s o.v
      let cs := (if (sget Bank.closed (d.ports[p]).banks k).row.isSome then [pprCmd .pre s o.v 0] else []) ++
        [pprCmd .mrwK s o.v (Config.freeNat o.v.toNat), pprCmd .act s o.v (fld o.v 19 18), pprCmd .wr s o.v 0, pprCmd .pre s o.v 0]
      ((d.caSend s 0 cs).modBank p k (fun b =>
        { b with row := none, due := false, tPre := some (d.now p), preQ := none })).modProt s (fun x =>
        { x with rowOp := some { o with sent := true } })

/-- What moves on by itself in each cycle of a port: fills, the writing of the page map table, row moves, a PPR
sequence; and the requests
that wait (R130). In a drain the page map cache is written back (Table 12.4). -/
def Dev.cycleEnd (d : Dev) (p : Fin 4) : Dev :=
  let d1 := Dev.each (fun s x => ((x.fillStep s).rowGo s).pprGo s) (portSubs p) d
  let d2 := d1.initStep.enterQueues
  if d2.rst.step = 2 then d2.pmcFlush else d2

/-- One core cycle of a port (R134): both subchannels, then the freed entries take waiting requests (R130). -/
def Dev.portCycle (d : Dev) (p : Fin 4) (bad : BitVec 2) : Dev :=
  let q0 := d.pickSub d p (Fin.ofNat 8 (2 * p.val)) (bad.getLsbD 0) true
  let q1 := q0.1.pickSub d p (Fin.ofNat 8 (2 * p.val + 1)) (bad.getLsbD 1) (!q0.2)
  (q1.1.modPort p (fun x => { x with cyc := x.cyc + 1 })).cycleEnd p

/-! ### Capture and decode (R196 to R208, R221) -/

/-- A position is declared dead (R208, Table 8.4). -/
def Dev.declareDead (d : Dev) (s : Fin 8) (pos : Nat) : Dev :=
  let pr := d.prots[s]
  if 12 < pos || pr.dead.getLsbD pos then d
  else
    let d1 := (d.modProt s (fun x => { x with dead := putBit x.dead pos true })).sillSparing (coordMem s 0 pos 0) 1
    let moving := pr.rowOp.any (fun o => !o.waiting && (o.kind = 1 || o.kind = 2))
    let start := !pr.spareUsed && !pr.rebuild && !moving && d.protCfg s 0x08 2 ≠ 0 && pos < 12
    let freeze := pos = 12 && pr.rebuild && !pr.frozen
    let d2 := if start then
        ((d1.modProt s (fun x => { x with rebuild := true, spareUsed := true, spareFor := BitVec.ofNat 4 pos, p := 0 })).sillSparing
          (protUnit s) 2).eventWhere 2 (fun e _ => d.inScope e s)
      else if freeze then
        -- the line at P stays under the identity map
        (((d1.modProt s (fun x => { x with frozen := true })).modPort (subPort s) (fun x => { x with wrq := x.wrq.map (fun (w : WrEnt) =>
          if w.s = s && w.carry = some .rebuild then { w with carry := none } else w) })).sillSparing (protUnit s) 4).rowBegin s
      else d1
    let rep : Report := { event := 2, addr := 0, akind := 0, coord := coordMem s 0 pos 0, master := none, access := 0 }
    ((d2.raiseAttn 5).fault (72 + s.val) rep).journalStart

/-- Corrected symbols are counted by physical position; a count that reaches DEAD_THRESH declares it dead (R207). -/
def Dev.countSymbols (d : Dev) (s : Fin 8) : List Nat → Dev
  | [] => d
  | k :: r =>
    if (d.prots[s]).dead.getLsbD k then d.countSymbols s r
    else
      let d1 := (d.bump (A.symcnt s.val k) 24 24).bump (A.symcnt s.val k) 0 16
      let th := d.protCfg s 0 2
      let d2 := if th ≠ 0 && th ≤ d1.fldR (A.symcnt s.val k) 0 16 then d1.declareDead s k else d1
      d2.countSymbols s r

/-- Access type of a report about a read (R286). -/
def RdOp.access (op : RdOp) (a : Acc) : BitVec 4 :=
  match op, a.who with
  | .merge _, .hub .. => 3
  | .merge _, _ => 0
  | .atom .., .hub .. => 4
  | .atom .., _ => 7
  | .rd, .slot .. => 5
  | .rd, .job .. => 8
  | .rd, .pmc _ => 0
  | .rd, _ => 1

def Dev.lineReport (d : Dev) (ev : BitVec 8) (loc : Loc) (key : KeyUse) (master : BitVec 11) (access : BitVec 4) : Report :=
  let a := addrOf key.media
  let direct := match regionOf d.cfg a with | some k => !regionElastic d.cfg k | none => false
  { event := ev, addr := if key.isLoc then loc.setWidth 48 else BitVec.ofNat 48 a,
    akind := if key.isLoc then 3 else if direct then 1 else 2, coord := coordLoc loc, master := some master,
    access := access }

/-- Decode a captured burst of subchannel `s` (R201, R202, R207): counts, faults; the decrypted line unless it is
poisoned or uncorrectable, whether it was corrected, and the cycles to the response slot (R113). -/
def Dev.decodeRead (d : Dev) (s : Fin 8) (i : Inflight) (burst : List (BitVec 64)) : Dev × ReadRes :=
  let inj := d.injectStep s false
  let o := decodeLine burst i.loc i.spare i.erased inj.2
  let d1 := match o.outc with
    | .clean => inj.1
    | .corrected => inj.1.bump (A.corr s.val) 32 16
    | .poisoned => inj.1.bump (A.corr s.val) 0 16
    | _ => inj.1.bump (A.corr s.val) 16 16
  let d2 := d1.countSymbols s o.counted
  let d3 := match o.outc with
    | .uncorr => d2.fault (72 + s.val) (d2.lineReport 1 i.loc i.key i.acc.master (i.op.access i.acc))
    | .misdirected => d2.fault (72 + s.val) (d2.lineReport 4 i.loc i.key i.acc.master (i.op.access i.acc))
    | _ => d2
  let d4 := if i.key.enc then d3.bump (A.cryptCount s.val) 0 24 else d3
  let good := o.outc = .clean || o.outc = .corrected
  (d4, { data := if good then some (d4.crypt1 i.key o.data) else none, corr := decide (o.outc = .corrected), fwd := false,
         bad := decide (o.outc = .uncorr) || decide (o.outc = .misdirected), extra := if o.slow then 10 else 3 })

/-- What a captured line is for. -/
def Dev.useRead (d : Dev) (s : Fin 8) (i : Inflight) (r : ReadRes) : Dev :=
  let p := subPort s
  match i.op with
  | .merge q => d.mergeDone p q r.data
  | _ => (d.serveRead p i.loc i.key i.op i.acc i.ov r none).forwardReady p i.loc

/-- The oldest outstanding burst of a subchannel is captured (R201). -/
def Dev.capture (d : Dev) (s : Fin 8) (burst : List (BitVec 64)) : Dev :=
  match (d.phys[s]).inflight with
  | [] => d
  | i :: r =>
    let d1 := d.modPhy s (fun x => { x with inflight := r })
    if i.drop then d1.enterQueues
    else
      let q := d1.decodeRead s i burst
      (q.1.useRead s i q.2).enterQueues

end Sys2Proof.Machine
end

