-- ==== Sys2Proof/Machine/Scheduling.lean ====
section
/-! DEFINITION. The commands of requests and of the port schedulers (R95 to R149). -/

namespace Sys2Proof.Machine

/-- RD (R98, R105): decoded; queued at once when speculative (R110). -/
def execRd (h : Slot) (s : State) : Host.Outcome State Fault Refusal := devNext s (s.dev.decodeQ (reqOf h) .rd)

/-- WR (R99, R105). -/
def execWr (h : Slot) (data : List Slot) (s : State) : Host.Outcome State Fault Refusal :=
  devNext s (s.dev.decodeQ (reqOf h) (.wr (slotsLine (data.take 4))))

/-- WRM (R99, R106). -/
def execWrm (h mask : Slot) (data : List Slot) (s : State) : Host.Outcome State Fault Refusal :=
  devNext s (s.dev.decodeQ (reqOf h) (wrmOp mask data))

/-- ATOM ADD (R100, R107). -/
def execAtomAdd (common : BitVec 72) (fields : BitVec 56) (operand : Slot) (s : State) : Host.Outcome State Fault Refusal :=
  let h : Slot := common ++ fields
  devNext s (s.dev.decodeQ (reqOf h) (atomOp 1 h operand))

/-- ATOM SWAP (R100, R107). -/
def execAtomSwap (common : BitVec 72) (fields : BitVec 56) (operand : Slot) (s : State) : Host.Outcome State Fault Refusal :=
  let h : Slot := common ++ fields
  devNext s (s.dev.decodeQ (reqOf h) (atomOp 2 h operand))

/-- ATOM CAS (R100, R107). -/
def execAtomCas (common : BitVec 72) (fields : BitVec 56) (compare value : BitVec 64) (s : State) : Host.Outcome State Fault Refusal :=
  let h : Slot := common ++ fields
  devNext s (s.dev.decodeQ (reqOf h) (atomOp 3 h (compare ++ value)))

/-- A FLUSH is decoded (R109): OPFAULT without an Accord (R42), POISON in FATAL (R104). -/
def Dev.decodeFlush (d : Dev) (r : Req) : Dev :=
  if !d.decodes then d
  else d.tickRid.hold (mkHeld .q r .flush (if d.noAccord then some .opfault else if d.flt.fatal then some .poison else none)
    d.txn.nextRid d.cc)

/-- FLUSH (R99, R109). -/
def execFlush (common : BitVec 72) (fields : BitVec 56) (s : State) : Host.Outcome State Fault Refusal :=
  devNext s (s.dev.decodeFlush (reqPlain (common ++ fields)))

/-- SCHED_PICK (R134 to R141): one core cycle of the port. -/
def execSchedPick (p : Fin 4) (bad : BitVec 2) (s : State) : Host.Outcome State Fault Refusal :=
  devNext s (s.dev.portCycle p bad)

/-- READ_DATA_CAPTURE (R201). -/
def execReadDataCapture (sub : Fin 8) (burst : List (BitVec 64)) (s : State) : Host.Outcome State Fault Refusal :=
  devNext s (s.dev.capture sub burst)

/-- FLUSH_DONE (R109). -/
def execFlushDone (tag : BitVec 12) (s : State) : Host.Outcome State Fault Refusal :=
  let d := s.dev
  devNext s (match d.txn.flushes.find? (fun f => f.tag = tag) with
    | none => d
    | some f =>
      if f.cover ≠ [] then d
      else
        (d.modTxn (fun x => { x with flushes := dropFirst (fun g => g.tag = tag) x.flushes })).respond .q tag false
          (rspC tag f.src (if f.poison then .poison else .ok)))

/-- WRITE_AGE_DRAIN (R132). -/
def execWriteAgeDrain (p : Fin 4) (q : Nat) (s : State) : Host.Outcome State Fault Refusal :=
  let d := s.dev
  devNext s (if d.schedCfg p 0x0C 4 = 0 then d
    else (d.modPort p (fun x => { x with wrq := x.wrq.map (fun (w : WrEnt) =>
      if w.q = q then { w with aged := true } else w) })).drainStart p)

/-- PAGE_TIMEOUT (R141). -/
def execPageTimeout (b : BankId) (s : State) : Host.Outcome State Fault Refusal :=
  let d := s.dev
  let p := tilePort b.tile
  devNext s (if d.schedCfg p 8 4 = 0 then d
    else d.modBank p (bankIdPortKey b) (fun x => if x.row.isSome then { x with due := true } else x))

/-- STARVE_PROMOTE (R138): STARVE cc raise the entry one level, 2 × STARVE one more. -/
def execStarvePromote (p : Fin 4) (q : Nat) (s : State) : Host.Outcome State Fault Refusal :=
  let d := s.dev
  devNext s (if d.schedCfg p 0x10 4 = 0 then d
    else d.modPort p (fun x =>
      { x with
        rdq := x.rdq.map (fun (r : RdEnt) => if r.q = q then { r with promo := min 2 (r.promo + 1) } else r),
        wrq := x.wrq.map (fun (w : WrEnt) => if w.q = q then { w with promo := min 2 (w.promo + 1) } else w) }))

/-- QOS_WINDOW_END (R147). -/
def execQosWindowEnd (n : BitVec 4) (s : State) : Host.Outcome State Fault Refusal :=
  devNext s (if s.dev.noteWindow n = 0 then s.dev else { s.dev with qos := s.dev.qos.set n.toNat (0, false) })

end Sys2Proof.Machine
end

