-- ==== Sys2Proof/Machine/Link.lean ====
section
/-! DEFINITION. The commands of the Kengil link but for the flit boundary and link-up, which start other units' work
(R61 to R94, R116 to R118). -/

namespace Sys2Proof.Machine

/-- Is the link up? -/
def Dev.linkIsUp (d : Dev) : Bool := d.link.st = .up

/-- DATA_FLIT_RX (R62, R63, R65, R67, R71, R76, R86). -/
def execDataFlitRx (lanes : List (List (BitVec 48))) (s : State) : Host.Outcome State Fault Refusal :=
  devNext s (s.dev.flitLanes lanes)

/-- NAK (R72, R74). -/
def execNak (seq : BitVec 12) (s : State) : Host.Outcome State Fault Refusal := devNext s (s.dev.nakRx seq)

/-- NAK_TIMEOUT (R71): the outstanding NAK is sent again; a zero NAK_TIMER disables the repetition. -/
def execNakTimeout (s : State) : Host.Outcome State Fault Refusal :=
  let d := s.dev
  devNext s (if d.linkIsUp && d.link.nakOut && d.linkCfg 0x32 2 2048 ≠ 0 then
    d.modLink (fun l => { l with ctlq := l.ctlq ++ [nakSlot l.exp] }) else d)

/-- ACK_TIMEOUT (R73): every unacknowledged flit is replayed; a zero ACK_TIMER disables it. -/
def execAckTimeout (s : State) : Host.Outcome State Fault Refusal :=
  let d := s.dev
  devNext s (if d.linkIsUp && d.linkCfg 0x34 2 4096 ≠ 0 then d.replayFrom (fun _ => true) else d)

/-- FRAMING_LOSS (R89): a link failure. -/
def execFramingLoss (s : State) : Host.Outcome State Fault Refusal :=
  devNext s (if s.dev.linkIsUp then s.dev.linkFail else s.dev)

/-- RTT_PROBE (R81). -/
def execRttProbe (stamp : BitVec 16) (s : State) : Host.Outcome State Fault Refusal := devNext s (s.dev.probeRx stamp)

/-- RTT_ECHO (R81): in training the longest trip counts. -/
def execRttEcho (_stamp : BitVec 16) (cc : Nat) (s : State) : Host.Outcome State Fault Refusal :=
  let d := s.dev
  devNext s (if d.link.st = .training && d.link.probesLeft ≠ 0 then
    d.modLink (fun l => { l with rttMax := max l.rttMax cc, probesLeft := l.probesLeft - 1 }) else d)

/-- TEST_RESULT (R87): the hub's result for its own lane; what follows it is the hub's request. -/
def execTestResult (_lane : Fin 22) (_pass : Bool) (_errors : BitVec 32) (s : State) :
    Host.Outcome State Fault Refusal := devNext s s.dev

/-- LINK_RESET (R91). -/
def execLinkReset (rate : BitVec 2) (s : State) : Host.Outcome State Fault Refusal := devNext s (s.dev.linkResetRx rate)

/-- The in-band reset at the end of its flit (R68); with another key it is ignored. -/
def Dev.fullResetRx (d : Dev) (key : BitVec 16) : Dev :=
  if d.linkIsUp && key = 0x5A3C then d.fullReset 2 else d

/-- FULL_RESET (R68). -/
def execFullReset (key : BitVec 16) (s : State) : Host.Outcome State Fault Refusal := devNext s (s.dev.fullResetRx key)

/-! ### Lanes -/

/-- LANE_LOCK_LOSS (R82). -/
def execLaneLockLoss (lane : Fin 22) (s : State) : Host.Outcome State Fault Refusal :=
  devNext s (if s.dev.linkIsUp then s.dev.laneFail lane.val else s.dev)

/-- One guard-band symbol on a lane (R82); a zero LANE_THRESH or LANE_WINDOW disables the criterion (R8). -/
def Dev.guardSymbol (d : Dev) (lane : Fin 22) : Dev :=
  if !d.linkIsUp then d
  else
    let n := d.link.margin[lane] + 1
    let th := d.linkCfg 0x37 1 64
    let d1 := d.modLink (fun l => { l with margin := l.margin.set lane n })
    if th ≠ 0 && d.linkCfg 0x38 4 1000 ≠ 0 && th ≤ n then d1.laneFail lane.val else d1

/-- LANE_MARGIN_THRESH (R82). -/
def execLaneMarginThresh (lane : Fin 22) (s : State) : Host.Outcome State Fault Refusal :=
  devNext s (s.dev.guardSymbol lane)

/-- LANE_WINDOW_END (R82): the guard-band counts start again. -/
def execLaneWindowEnd (s : State) : Host.Outcome State Fault Refusal :=
  devNext s (s.dev.modLink (fun l => { l with margin := Vector.replicate 22 0 }))

/-- Flit n + 2 of an announced change begins: it takes effect, unless the flit itself has brought it about. -/
def Dev.changeAt (d : Dev) (dir : Dir) (c : Change) : Dev :=
  if d.linkIsUp && d.link.changeDue dir c then d.changeNow dir c else d

/-- LANE_SWAP (R85, R88). -/
def execLaneSwap (dir : Dir) (lane : Fin 22) (s : State) : Host.Outcome State Fault Refusal :=
  devNext s (s.dev.changeAt dir { cmd := 1, lane := lane.val })

/-- LANE_DROP (R85, R88). -/
def execLaneDrop (dir : Dir) (lane : Fin 22) (s : State) : Host.Outcome State Fault Refusal :=
  devNext s (s.dev.changeAt dir { cmd := 2, lane := lane.val })

/-- LANE_ADD (R85, R88). -/
def execLaneAdd (dir : Dir) (lane : Fin 22) (s : State) : Host.Outcome State Fault Refusal :=
  devNext s (s.dev.changeAt dir { cmd := 3, lane := lane.val })

/-- LANE_TEST (R85). -/
def execLaneTest (dir : Dir) (lane : Fin 22) (s : State) : Host.Outcome State Fault Refusal :=
  devNext s (s.dev.changeAt dir { cmd := 4, lane := lane.val })

/-- The next change request has its turn (R83). -/
def Dev.nextReq (d : Dev) : Dev :=
  let q := d.pickRequest
  if q.2 then q.1.linkFail else q.1

/-- A write of LINK.LANE_TEST (Table 3.14, R87): START has no effect unless LANE is out and the link is up. -/
def Dev.laneTestWrite (d : Dev) (v : Word) : Dev :=
  let d1 := (d.setFld A.laneTest 47 1 (fld v 47 1)).setFld A.laneTest 0 5 (fld v 0 5)
  let lane := fld v 0 5
  if bit v 5 && d.linkIsUp && lane < 22 && (laneAt d.link.rxLanes lane).isOut then
    ((d1.setFld A.laneTest 6 1 0).modLink (fun l => { l with reqWait := l.reqWait ++ [{ cmd := 4, lane := lane }] })).nextReq
  else d1

/-- LANE_TEST_START (R87). -/
def execLaneTestStart (_m : Master) (v : Word) (s : State) : Host.Outcome State Fault Refusal :=
  devNext s (s.dev.laneTestWrite v)

/-- The lane test ends (R87): its result is kept, reported to the hub, and with ADD set a pass requests ADD. A lane that is in
service again by then and fails the test is failing (R82). -/
def Dev.laneTestEnd (d : Dev) (errors : BitVec 32) : Dev :=
  match d.link.laneTest with
  | none => d
  | some lane =>
    let pass := errors = 0
    let d1 := ((d.setFld A.laneTest 8 32 errors.toNat).setFld A.laneTest 7 1 (b2n pass)).setFld A.laneTest 6 1 1
    let d2 := d1.modLink (fun l =>
      { l with laneTest := none,
               ctlq := l.ctlq ++ [ctlSlot 4 (lane <<< 115 ||| b2n pass <<< 114 ||| errors.toNat <<< 82)],
               reqWait := if pass && bit (d.reg A.laneTest) 47 then l.reqWait ++ [{ cmd := 3, lane := lane }]
                 else l.reqWait })
    (if pass then d2 else d2.laneFail lane).nextReq

/-- LANE_TEST_DONE (R87). -/
def execLaneTestDone (errors : BitVec 32) (s : State) : Host.Outcome State Fault Refusal :=
  devNext s (if s.dev.linkIsUp then s.dev.laneTestEnd errors else s.dev)

/-! ### Link reset and training -/

/-- A write of LINK.CTL (Table 3.13): RATE is stored. -/
def Dev.linkCtlStore (d : Dev) (v : Word) : Dev := d.setFld A.linkCtl 1 2 (fld v 1 2)

/-- The link reset that LINK.CTL.RESET asks for (R91). -/
def Dev.linkCtlReset (d : Dev) : Dev := if d.link.st = .down then d else d.linkDown true true 0

/-- LINK_CTL_RESET (R91), once its completion has been sent. -/
def execLinkCtlReset (_m : Master) (v : Word) (s : State) : Host.Outcome State Fault Refusal :=
  let d1 := s.dev.linkCtlStore v
  devNext s (if bit v 0 then d1.linkCtlReset else d1)

/-- TRAINING_END (R81, R91, R92). -/
def execTrainingEnd (passRx passTx : BitVec 22) (s : State) : Host.Outcome State Fault Refusal :=
  devNext s (s.dev.trainEnd passRx passTx)

/-- TRAINING_RETRY_TIMER (R92): out lanes that pass the lane test leave the out record, and training repeats. -/
def execTrainingRetryTimer (testRx testTx : BitVec 22) (s : State) : Host.Outcome State Fault Refusal :=
  let d := s.dev
  devNext s (if d.link.st = .training && d.link.rate = 0 && d.link.retryWait then
    (d.modLink (fun l => { l with
      rxLanes := if notOut l.rxLanes < 10 then clearOut l.rxLanes testRx else l.rxLanes,
      txLanes := if notOut l.txLanes < 10 then clearOut l.txLanes testTx else l.txLanes })).trainAt 3
    else d)

/-! ### RESYNC -/

/-- RESYNC_SEND (R116). -/
def execResyncSend (s : State) : Host.Outcome State Fault Refusal := devNext s s.dev.resyncBuild

/-- RESYNC_REPEAT (R118): a RESYNC sent and not acknowledged is sent again; a zero timer disables it. -/
def execResyncRepeat (s : State) : Host.Outcome State Fault Refusal :=
  let d := s.dev
  devNext s (if d.linkIsUp && bit (d.reg A.resync) 16 && d.linkCfg 0x3C 2 100 ≠ 0 && !d.txn.outM.any (fun o => o.resync) then
    d.queueResync else d)

/-- RESYNC_ACK (R118). -/
def execResyncAck (_m : Master) (v : Word) (s : State) : Host.Outcome State Fault Refusal := devNext s (s.dev.resyncAck v)

/-- ATTN_ACK (R124): causes written 1 clear; a condition that persists is raised again. Bit 16 has no effect (Table 4.11). -/
def Dev.attnAck (d : Dev) (v : Word) : Dev := d.setAttn (d.fldR A.attn 0 12 &&& (0xFFF ^^^ (fld v 16 12 &&& 0xFFE)))

/-- ATTN_ACK (R124). -/
def execAttnAck (_m : Master) (v : Word) (s : State) : Host.Outcome State Fault Refusal := devNext s (s.dev.attnAck v)

end Sys2Proof.Machine
end

