-- ==== Sys2Proof/Machine/RefreshOps.lean ====
section
/-! DEFINITION. Shared operations of refresh (R150 to R156), self-refresh (R161 to R164) and tile power (R167, R176, R177). -/

namespace Sys2Proof.Machine

/-! ### Precharge and clock -/

/-- Every row of the tile closes; predictors and remembered rows stand (R141). -/
def Dev.closeTile (d : Dev) (t : Fin 16) : Dev :=
  let p := tilePort t
  let now := d.now p
  d.modPort p (fun x => { x with banks := x.banks.map (fun e =>
    if e.1 / 256 = t.val % 4 then
      (e.1, { e.2 with row := none, due := false, tPre := if e.2.row.isSome then some now else e.2.tPre, preQ := none })
    else e) })

/-- The tile is precharged: one PREab to each layer. -/
def Dev.prechargeTile (d : Dev) (t : Fin 16) : Dev := (d.layerSend t .preAll 0 0).closeTile t

/-- A row of the tile is open. -/
def Dev.rowsOpen (d : Dev) (t : Fin 16) : Bool :=
  (d.ports[tilePort t]).banks.any (fun e => e.1 / 256 = t.val % 4 && e.2.row.isSome)

/-- The Adroth drives CK to the tile: populated, powered and initialised, and not stopped in self-refresh (R163, R173, R176,
Table 6.3). -/
def Dev.ckDriven (d : Dev) (t : Fin 16) : Bool :=
  let x := d.tiles[t]
  d.present t && x.powered && !x.ramping && !(x.inSr && ((d.ports[tilePort t]).sr = .stopped || (d.ports[tilePort t]).sr = .run))

/-- The tile is populated, initialised and out of self-refresh: refresh runs on it (R150, R178). -/
def Dev.refreshed (d : Dev) (t : Fin 16) : Bool :=
  d.applied && d.ckDriven t && !(d.tiles[t]).inSr && d.refMode (tilePort t) ≠ 0

/-! ### Refresh units -/

/-- OWED_SAT of a dropped interval (R150). -/
def owedReport (t : Fin 16) : Report :=
  { event := 1, addr := 0, akind := 0, coord := coordTile t, master := none, access := 9 }

/-- The interval timer of tile `t` reaches I(t) (R150). -/
def Dev.interval (d : Dev) (t : Fin 16) : Dev :=
  if !d.refreshed t then d
  else if (d.tiles[t]).owed < 15 then (d.modTile t (fun x => { x with owed := x.owed + 1 })).latchForced t
  else d.fault (116 + (tilePort t).val) (owedReport t)

/-- The tile holds a queued request. -/
def Dev.tileQueued (d : Dev) (t : Fin 16) : Bool :=
  let x := d.ports[tilePort t]
  x.rdq.any (fun r => locTile r.loc = t) || x.wrq.any (fun w => locTile w.loc = t)

/-- A refresh unit may start (Table 6.1); not while ALERT_N or a test operation holds the subchannel (R180, R188). -/
def Dev.unitAllowed (d : Dev) (t : Fin 16) : Bool :=
  let p := tilePort t
  d.refreshed t && !(d.tiles[t]).refUnit && !(d.cals[p]).pause && 1 ≤ (d.tiles[t]).owed && d.caOpen (tileSub t) &&
    (d.refForced t || (!(d.ports[p]).rtBurst && !d.tileQueued t))

/-- A refresh unit starts (R151): in all-bank mode with the precharge of the tile, its REFabs following from tRP on; in
same-bank mode with its first REFsb. Forced, it holds the tile or banks until it completes (R154). -/
def Dev.unitStart (d : Dev) (t : Fin 16) : Dev :=
  if !d.unitAllowed t then d
  else
    let p := tilePort t
    let forced := d.refForced t
    let d1 := d.modTile t (fun x => { x with refUnit := true, refNext := 0, forced := forced })
    let d2 := if d.refMode p = 2 then d1.unitIssue t
      else (d1.prechargeTile t).modTile t (fun x => { x with holdUntil := d.now p + d.timing t 1 })
    if forced && !(d.tiles[t]).geyser then d2.bump (A.refCount p.val) 12 12 else d2

/-- The commands of a unit under way that have not issued yet issue: it settles one interval (R151). -/
def Dev.unitFinish (d : Dev) (t : Fin 16) : Dev :=
  ((Dev.each (fun (_ : Nat) x => x.unitIssue t) (List.range (d.unitLeft t)) d).modTile t (fun x =>
    { x with
      refUnit := false, forced := false, owed := x.owed - 1, settled := x.settled + 1,
      geyser := x.geyser && !x.geyserEnd && 1 < x.owed, geyserEnd := false })).bump (A.refCount (tilePort t).val) 24 24

/-- The unit's last command is issued (R151). -/
def Dev.unitDone (d : Dev) (t : Fin 16) : Dev :=
  if !(d.tiles[t]).refUnit || !d.caOpen (tileSub t) then d else (d.unitFinish t).latchForced t

/-- Every tile of the port that owes an interval takes a Geyser (R155, R156). -/
def Dev.geyserAll (d : Dev) (p : Fin 4) : Dev :=
  let owes := fun t => d.refreshed t && 1 ≤ (d.tiles[t]).owed
  if (portTiles p).any owes then
    (Dev.each (fun t x => if owes t then x.modTile t (fun y => { y with geyser := true, geyserEnd := false }) else x)
      (portTiles p) d).bump (A.refCount p.val) 0 12
  else d

/-- A read, write or burst of the port is queued or in flight. -/
def Dev.portBusy (d : Dev) (p : Fin 4) : Bool :=
  (d.ports[p]).rdq ≠ [] || (d.ports[p]).wrq ≠ [] || (portSubs p).any (fun s => (d.phys[s]).inflight ≠ [])

/-- An RT request or access is held in the port's queues (R153). -/
def Dev.rtQueued (d : Dev) (p : Fin 4) : Bool :=
  (d.ports[p]).rdq.any (fun r => d.noteRt r.acc.note) || (d.ports[p]).wrq.any (fun w => w.reqs.any (fun r => d.noteRt r.2)) ||
    (d.flying p).any (fun i => d.noteRt i.acc.note) || (d.takenAt p).any (fun h => d.noteRt h.1.r.note)

/-- The real-time burst of a port ends (R153): levels that this reaches force units. -/
def Dev.rtEnd (d : Dev) (p : Fin 4) : Dev :=
  Dev.each (fun t x => x.latchForced t) (portTiles p) (d.modPort p (fun x => { x with rtBurst := false, burstEnded := true }))

/-! ### Self-refresh (Table 6.3) -/

/-- A tile of the port that self-refresh concerns: populated, powered and not fenced. -/
def Dev.srTile (d : Dev) (t : Fin 16) : Bool := d.present t && (d.tiles[t]).powered && !d.subFenced (tileSub t)

/-- Nothing but self-refresh commands is left for the port's subchannels. -/
def Dev.portQuiet (d : Dev) (p : Fin 4) : Bool :=
  !d.portBusy p && (portSubs p).all (fun s => d.caOpen s && (d.phys[s]).test.isNone)

/-- SRE to each layer of a tile, after tRP when rows were open. -/
def Dev.sreTile (d : Dev) (t : Fin 16) (wait : Nat) : Dev :=
  (d.layerSend t .sre 0 wait).modTile t (fun y => { y with inSr := true, geyser := false, geyserEnd := false, forced := false })

/-- Steps 3 and 4 once the queues are empty: every tile is precharged; what is owed takes a Geyser first, then SRE goes to
each layer of every tile. -/
def Dev.srEnter (d : Dev) (p : Fin 4) : Dev :=
  if (d.ports[p]).sr ≠ .drain || !d.portQuiet p then d
  else if (portTiles p).any (fun t => d.refreshed t && (d.tiles[t]).refUnit) then d
  else
    let opened := (portTiles p).any (fun t => d.srTile t && d.rowsOpen t)
    let d1 := Dev.each (fun t x => if d.srTile t && d.rowsOpen t then x.prechargeTile t else x) (portTiles p) d
    if (portTiles p).any (fun t => d.refreshed t && 1 ≤ (d.tiles[t]).owed) then
      (if (portTiles p).any (fun t => (d.tiles[t]).geyser) then d1 else d1.geyserAll p)
    else
      (Dev.each (fun t x => if d.srTile t && !(d.tiles[t]).inSr then x.sreTile t (if opened then d.timing t 1 else 0) else x)
        (portTiles p) d1).modPort p (fun x => { x with sr := .sre })

/-- Step 5: CK stops (Table 6.3). -/
def Dev.srStop (d : Dev) (p : Fin 4) : Dev :=
  if (d.ports[p]).sr ≠ .sre then d
  else (d.modPort p (fun x => { x with sr := .stopped })).bump (A.sr p.val) 0 16

/-- CK restarts; delays that wait land before the first command (R52), and SRX goes to each layer (R163): after an arrival, a
rollback or a wake. -/
def Dev.srLeave (d : Dev) (p : Fin 4) : Dev :=
  if (d.ports[p]).sr = .stopped && (d.ports[p]).srArrived then
    Dev.each (fun t x => if d.srTile t && (d.tiles[t]).inSr then (x.delayLand t).layerSend t .srx 0 0 else x) (portTiles p)
      (d.modPort p (fun x => { x with sr := .exiting }))
  else d

/-! ### Mode registers (R167, R176, R177) -/

/-- Shadow key of mode register `mr` of a layer of a tile. -/
def mrKey (t : Fin 16) (cid mr : Nat) : Nat := (t.val * 8 + cid) * 256 + mr

/-- The shadow takes the last value written to a mode register. -/
def Dev.mrWrite (d : Dev) (t : Fin 16) (cid mr : Nat) (v : Byte) : Dev :=
  { d with mrShadow := kvSet d.mrShadow (mrKey t cid mr) v }

/-- The Adroth's own setting of mode register `mr` of a tile: the spec names neither the registers nor the values, so both are
free (log 11). -/
def mrOwn (t : Fin 16) (mr : Nat) : Option Byte :=
  let n := t.val * 256 + mr
  if Config.freeBool n then some ((Config.freeLine n).setWidth 8) else none

/-- The last value written to a mode register: one that is not listed holds the Adroth's own setting. -/
def Dev.mrLast (d : Dev) (t : Fin 16) (cid mr : Nat) : Option Byte := (kvGet d.mrShadow (mrKey t cid mr)).or (mrOwn t mr)

/-- An MRW leaves and updates the shadow (R176). -/
def Dev.mrwSend (d : Dev) (t : Fin 16) (cid mr : Nat) (v : Byte) : Dev :=
  (d.caSend (tileSub t) 0 [layerCmd .mrwK t (mr + 256 * v.toNat) cid]).mrWrite t cid mr v

/-- MR_INIT entries in use: register number and value. An MR_COUNT above 12 is unpredictable (Table 7.2): it
stands for a free one of the others (DESIGN CHOICE, log 87). -/
def Dev.mrInit (d : Dev) : List (Nat × Byte) :=
  (List.range (codeOf (List.range 13) (d.cfgLe Sec.population 4 1))).map (fun i =>
    (d.cfgLe Sec.population (8 + 2 * i) 1, BitVec.ofNat 8 (d.cfgLe Sec.population (9 + 2 * i) 1)))

/-- Write MR_INIT to every layer of a tile; with `changed`, only the entries that differ from the shadow (R177). -/
def Dev.mrInitTile (d : Dev) (t : Fin 16) (changed : Bool) : Dev :=
  Dev.each (fun (e : Nat × Byte) x =>
    Dev.each (fun cid y =>
      if changed && y.mrLast t cid e.1 = some e.2 then y else y.mrwSend t cid e.1 e.2)
      (List.range (d.stack t)) x) d.mrInit d

/-- The Adroth's own settings go to every layer of the tile; the register that the last of them writes is free. -/
def Dev.mrOwnTile (d : Dev) (t : Fin 16) : Dev := d.tickFree.layerSend t .mrwK (Config.freeNat d.freeCtr % 65536) 0

/-- The mode registers of a tile are written again with the last value of each (R167). -/
def Dev.mrAgain (d : Dev) (t : Fin 16) : Dev :=
  Dev.each (fun (e : Nat × Byte) x => x.mrwSend t (e.1 / 256 % 8) (e.1 % 256) e.2)
    (d.mrShadow.filter (fun e => e.1 / 2048 = t.val)) (d.mrOwnTile t)

/-- tXS after SRX (R164): counts are zero, trackers clear, the port runs; after an apply changed MR_INIT entries are
written first (R177). -/
def Dev.srDone (d : Dev) (p : Fin 4) : Dev :=
  if (d.ports[p]).sr ≠ .exiting then d
  else
    let back := fun t => d.srTile t && (d.tiles[t]).inSr
    let d1 := Dev.each (fun t x =>
      if back t then
        (if (d.tiles[t]).mrDue then x.mrInitTile t true else x).modTile t (fun y =>
          { y with inSr := false, mrDue := false, owed := 0, geyser := false, geyserEnd := false, forced := false,
                   refUnit := false, trackers := [] })
      else x) (portTiles p) d
    -- an entry to P2 or P3 that polls the schedulers has the port enter again (R319)
    let again := d.pwrPhase = 1 && d.pwr.poll = 2 && 2 ≤ d.pwrTarget && (portTiles p).any (fun t => d.srTile t)
    ((d1.modPort p (fun x => { x with sr := if again then .drain else .run, srArrived := false, srPower := again })).rollbackDone).enterQueues

/-! ### Tile power (R167, R168, R176, R177) -/

/-- What a tile holds for refresh is gone with its power. -/
def Tile.fresh (x : Tile) : Tile :=
  { x with inSr := false, owed := 0, refUnit := false, refNext := 0, forced := false, geyser := false, geyserEnd := false,
           ramped := false }

/-- RANKPWR_EN[t] rises; RAMP runs. -/
def Dev.tilePowerOn (d : Dev) (t : Fin 16) : Dev := d.modTile t (fun x => { x.fresh with powered := true, ramping := true })

/-- RANKPWR_EN[t] falls. -/
def Dev.tilePowerOff (d : Dev) (t : Fin 16) : Dev :=
  d.modTile t (fun x => { x.fresh with powered := false, ramping := false, trackers := [], pens := [] })

/-- The JESD79-5 initialisation of a tile (R176): CK starts, ZQCal Start and Latch go to every layer, then the mode registers
are written. On a wake they come from the shadow (R167); a tile without one, new to the Accord, takes the Adroth's own
settings and MR_INIT. -/
def Dev.tileStart (d : Dev) (t : Fin 16) : Dev :=
  let fresh := d.mrShadow.all (fun e => e.1 / 2048 ≠ t.val)
  let d1 := ((d.modTile t (fun x => { x with ramping := false, ramped := false, hot := true, coolPolls := 0 })).layerSend t .zqStart 0
    0).layerSend t .zqLatch 0 0
  if fresh then (d1.mrOwnTile t).mrInitTile t false else d1.mrAgain t

/-- RAMP has elapsed for a tile. With its DRAM reset high it is initialised; at power-on the port's DRAM_RESET_N is released
only when every tile of the port has ramped, and all are initialised then (R176). -/
def Dev.tileInit (d : Dev) (t : Fin 16) : Dev :=
  if !(d.tiles[t]).ramping then d
  else
    let p := tilePort t
    let d1 := d.modTile t (fun x => { x with ramped := true })
    let wait := (portTiles p).filter (fun u => (d1.tiles[u]).ramping)
    if d.pins.dramResetN.getLsbD p.val then (d1.tileStart t).enterQueues
    else if wait.all (fun u => (d1.tiles[u]).ramped) then
      (Dev.each (fun u x => x.tileStart u) wait
        { d1 with pins := { d1.pins with dramResetN := putBit d1.pins.dramResetN p.val true } }).enterQueues
    else d1

end Sys2Proof.Machine
end

