-- ==== Sys2Proof/Machine/Refresh.lean ====
section
/-! DEFINITION. The commands of refresh, row disturbance and self-refresh (R150 to R170). -/

namespace Sys2Proof.Machine

/-- REFRESH_INTERVAL (R150). -/
def execRefreshInterval (t : Fin 16) (s : State) : Host.Outcome State Fault Refusal := devNext s (s.dev.interval t)

/-- REFRESH_UNIT (R151, R154). -/
def execRefreshUnit (t : Fin 16) (s : State) : Host.Outcome State Fault Refusal := devNext s (s.dev.unitStart t)

/-- REFRESH_UNIT_DONE (R151). -/
def execRefreshUnitDone (t : Fin 16) (s : State) : Host.Outcome State Fault Refusal := devNext s (s.dev.unitDone t)

/-- TRACKER_CLEAR (R158): after each 8192 units settled on the tile. -/
def execTrackerClear (t : Fin 16) (s : State) : Host.Outcome State Fault Refusal :=
  devNext s (if (s.dev.tiles[t]).settled < 8192 then s.dev
    else s.dev.modTile t (fun x => { x with settled := x.settled - 8192, trackers := [] }))

/-- TEMP_POLL (R152): MR4 of every layer is read. -/
def execTempPoll (t : Fin 16) (hot : Bool) (s : State) : Host.Outcome State Fault Refusal :=
  let d := s.dev
  devNext s
    (if !d.ckDriven t || (d.tiles[t]).inSr || d.refrCfg (tilePort t) 0x1C 2 = 0 then d
     else
       let d1 := d.layerSend t .mrrK 4 0
       if hot then d1.modTile t (fun x => { x with hot := true, coolPolls := 0 })
       else d1.modTile t (fun x => { x with hot := x.hot && x.coolPolls + 1 < 2, coolPolls := min 2 (x.coolPolls + 1) }))

/-- RT_BURST_END (R153). -/
def execRtBurstEnd (p : Fin 4) (s : State) : Host.Outcome State Fault Refusal :=
  devNext s (if !(s.dev.ports[p]).rtBurst || s.dev.rtQueued p then s.dev
    else s.dev.rtEnd p)

/-- GEYSER_START (R155). -/
def execGeyserStart (p : Fin 4) (s : State) : Host.Outcome State Fault Refusal :=
  let d := s.dev
  devNext s
    (if ((d.ports[p]).burstEnded || ((d.ports[p]).rtBurst && (d.ports[p]).rdq = [] && (d.ports[p]).wrq = [])) &&
        !(d.cals[p]).pause && (portTiles p).any (fun t => d.refreshed t && 1 ≤ (d.tiles[t]).owed) then
      (d.geyserAll p).modPort p (fun x => { x with burstEnded := false })
     else d)

/-- PENALTY_END (R159). -/
def execPenaltyEnd (b : BankId) (s : State) : Host.Outcome State Fault Refusal :=
  devNext s (s.dev.modTile b.tile (fun x => { x with pens := kvDel x.pens (bankIdKey b) }))

/-- SR_IDLE_ENTRY (R161): the port holds nothing and idle entry is on. -/
def execSrIdleEntry (p : Fin 4) (s : State) : Host.Outcome State Fault Refusal :=
  let d := s.dev
  devNext s
    (if d.refrCfg p 0x18 4 = 0 || (d.ports[p]).sr ≠ .run || d.portBusy p || (d.cals[p]).pause || d.pwrState ≠ 0 ||
        d.pwrPhase ≠ 0 || d.rst.step ≠ 0 || !(portTiles p).any (fun t => d.srTile t) then d
     else d.modPort p (fun x => { x with sr := .drain, srPower := false, srArrived := false }))

/-- SR_DRAIN_DONE (Table 6.3 steps 2 to 4). -/
def execSrDrainDone (p : Fin 4) (s : State) : Host.Outcome State Fault Refusal := devNext s (s.dev.srEnter p)

/-- SR_CLOCK_STOP (Table 6.3 step 5). -/
def execSrClockStop (p : Fin 4) (s : State) : Host.Outcome State Fault Refusal := devNext s (s.dev.srStop p)

/-- SR_EXIT (R163). -/
def execSrExit (p : Fin 4) (s : State) : Host.Outcome State Fault Refusal := devNext s (s.dev.srLeave p)

/-- SRX_DONE (R164). -/
def execSrxDone (p : Fin 4) (s : State) : Host.Outcome State Fault Refusal := devNext s (s.dev.srDone p)

end Sys2Proof.Machine
end

