-- ==== Sys2Proof/Machine/Phy.lean ====
section
/-! DEFINITION. The commands of the DRAM-side buffer: write CRC resends (R179 to R182), tiles in service (R178, R186),
test operations (R187 to R189), calibration (R190 to R195). -/

namespace Sys2Proof.Machine

/-! ### Write CRC -/

def phyReport (ev : Nat) (coord : BitVec 16) : Report :=
  { event := BitVec.ofNat 8 ev, addr := 0, akind := 0, coord := coord, master := none, access := 2 }

/-- After a stuck alert ALERT_N counts again once it has been high for 1 µs: 28800 root PLL periods (R182, Table 12.1). -/
def Dev.alertTrusted (d : Dev) (s : Fin 8) : Bool :=
  (d.phys[s]).riseAt.any (fun r => r + 28800 ≤ d.now (subPort s))

/-- Ss_ALERT_N falls (R180, R188): issue stops; during a test operation only ALERT is set. After a stuck alert the fall counts
only when the pin had been high for 1 µs. -/
def Dev.alertLow (d : Dev) (s : Fin 8) : Dev :=
  let x := d.phys[s]
  if x.alert = .idle || (x.alert = .stuck && d.alertTrusted s) then
    let inTest := x.testSent
    let d1 := (d.modPhy s (fun y => { y with alert := if inTest then .lowTest else .low, riseAt := none })).bump (A.crc s.val) 8 16
    if inTest then d1.setFld (A.testStat s.val) 44 1 1 else d1
  else if x.alert = .stuck then d.modPhy s (fun y => { y with riseAt := none })
  else d

/-- ALERT_FALL (R180). -/
def execAlertFall (sub : Fin 8) (s : State) : Host.Outcome State Fault Refusal := devNext s (s.dev.alertLow sub)

/-- Resend the bursts of the retry buffer in order, a column command apart, ahead of every other command; one that has been
resent CRC_RETRY times is given up (R180, R182). -/
def Dev.resend (d : Dev) (s : Fin 8) : List Burst → List Burst → Dev
  | [], kept => d.modPhy s (fun x => { x with retry := kept })
  | b :: r, kept =>
    if d.cfgLe Sec.population 0 1 ≤ b.resent then
      ((d.bump (A.crc s.val) 0 8).fault (80 + s.val) (phyReport 1 (coordLoc b.loc))).resend s r kept
    else
      let d1 := (d.bump (A.crc s.val) 24 24).issue s (if kept = [] then 0
        else (d.phys[s]).lastAt + d.tCk (d.popCfg (locTile b.loc) 0x14 1) - d.now (subPort s)) (mkCmd .wr b.loc (d.physRow b.loc))
      (d1.modPhy s (fun x =>
        { x with lastWr := some b.words,
                 lastCol := some (x.lastAt, locTile b.loc, BitVec.ofNat 3 (locBg b.loc), true) })).resend s r
        (kept ++ [{ b with resent := b.resent + 1 }])

/-- ALERT_N is high again (R180, R182): the affected bursts are resent, then what waited for the bus leaves. After a stuck
alert the time of the rise is kept. -/
def Dev.alertHigh (d : Dev) (s : Fin 8) : Dev :=
  match (d.phys[s]).alert with
  | .low => ((d.modPhy s (fun x => { x with alert := .idle })).resend s (d.phys[s]).retry []).caFlush s
  | .lowTest => d.modPhy s (fun x => { x with alert := .idle })
  | .stuck => d.modPhy s (fun x => { x with riseAt := some (d.now (subPort s)) })
  | .idle => d

/-- ALERT_RISE (R180, R182). -/
def execAlertRise (sub : Fin 8) (s : State) : Host.Outcome State Fault Refusal := devNext s (s.dev.alertHigh sub)

/-- ALERT_WIN_CLOSE (R179, R181): the oldest burst leaves the retry buffer. -/
def execAlertWinClose (sub : Fin 8) (s : State) : Host.Outcome State Fault Refusal :=
  let d := s.dev
  devNext s (if (d.phys[sub]).alert = .low then d else d.modPhy sub (fun x => { x with retry := x.retry.drop 1 }))

/-- ALERT_STUCK (R182). -/
def execAlertStuck (sub : Fin 8) (s : State) : Host.Outcome State Fault Refusal :=
  let d := s.dev
  devNext s (if (d.phys[sub]).alert = .low || (d.phys[sub]).alert = .lowTest then
    ((d.modPhy sub (fun x => { x with alert := .stuck, riseAt := none })).fault (88 + sub.val)
      (phyReport 1 (coordCtl 0x06 sub.val))).caFlush sub
    else d)

/-! ### Tiles in service -/

/-- A write of DLY[t].STATE (Table 7.18): an absent tile's READY does not change. -/
def Dev.readyWrite (d : Dev) (t : Fin 16) (v : Word) : Dev :=
  if d.present t then d.setFld (A.dlyState t.val) 0 1 (fld v 0 1) else d

/-- TILE_READY_WRITE (R178). -/
def execTileReadyWrite (_m : Master) (t : Fin 16) (v : Word) (s : State) : Host.Outcome State Fault Refusal :=
  devNext s (s.dev.readyWrite t v)

/-! ### Test operations -/

/-- Who may write TEST_CMD and TEST_PAT (R189): engines of the training role; the hub in BLANK, VENDOR and RETURNED. -/
def State.testWriter (s : State) (m : Master) : Bool :=
  match m with
  | .engine e => s.dev.engs[e].role = 1
  | .hub => s.fuses.state = 0 || s.fuses.state = 1 || s.fuses.state = 3
  | _ => false

/-- A write of TEST_CMD (R187, R188). The operation starts at once when the subchannel is free for it; otherwise, and on a
tile in service, it waits for the scheduler (`Dev.testMay`). -/
def Dev.testWrite (d : Dev) (s : Fin 8) (v : Word) : Dev :=
  if (d.phys[s]).test.isSome then d
  else
    let d1 := d.setReg (A.testCmd s.val) (v &&& (ones 47 5 ||| ones 3 0))
    let op := fld v 0 4
    let t := testTile s v
    if !within 1 8 op then d1
    else if op ≤ 6 && d.ready t then d1.setFld (A.testStat s.val) 45 1 1
    else
      let d2 := ((d1.setReg (A.testStat s.val) 0).setReg (A.testErr s.val) 0).setReg (A.testErrHi s.val) 0
      if fld v 40 8 = 0 then d2.setFld (A.testStat s.val) 46 1 1
      else if d.subFenced s then d2
      else
        let d3 := (d2.setFld (A.testStat s.val) 47 1 1).modPhy s (fun x => { x with test := some v, testSent := false })
        if !d.ready t && (d3.testMay (subPort s) s).isSome then d3.testSend s v else d3

/-- A TEST_CMD write by master `m` with operation `op`. -/
def State.testCmd (st : State) (m : Master) (s : Fin 8) (v : Word) (op : Nat) : Dev :=
  if st.testWriter m then st.dev.testWrite s (put v 0 4 op) else st.dev

/-- CS_SAMPLE (Table 7.6). -/
def execCsSample (m : Master) (sub : Fin 8) (v : Word) (s : State) : Host.Outcome State Fault Refusal :=
  devNext s (s.testCmd m sub v 1)

/-- CA_SAMPLE (Table 7.6). -/
def execCaSample (m : Master) (sub : Fin 8) (v : Word) (s : State) : Host.Outcome State Fault Refusal :=
  devNext s (s.testCmd m sub v 2)

/-- WLEVEL (Table 7.6). -/
def execWlevel (m : Master) (sub : Fin 8) (v : Word) (s : State) : Host.Outcome State Fault Refusal :=
  devNext s (s.testCmd m sub v 3)

/-- RD_PATTERN (Table 7.6). -/
def execRdPattern (m : Master) (sub : Fin 8) (v : Word) (s : State) : Host.Outcome State Fault Refusal :=
  devNext s (s.testCmd m sub v 4)

/-- WR_ARRAY (Table 7.6). -/
def execWrArray (m : Master) (sub : Fin 8) (v : Word) (s : State) : Host.Outcome State Fault Refusal :=
  devNext s (s.testCmd m sub v 5)

/-- RD_COMPARE (Table 7.6). -/
def execRdCompare (m : Master) (sub : Fin 8) (v : Word) (s : State) : Host.Outcome State Fault Refusal :=
  devNext s (s.testCmd m sub v 6)

/-- MRW (Table 7.6, R188). -/
def execMrw (m : Master) (sub : Fin 8) (v : Word) (s : State) : Host.Outcome State Fault Refusal :=
  devNext s (s.testCmd m sub v 7)

/-- MRR (Table 7.6, R188). -/
def execMrr (m : Master) (sub : Fin 8) (v : Word) (s : State) : Host.Outcome State Fault Refusal :=
  devNext s (s.testCmd m sub v 8)

/-- The generated data of DQ lane `lane`, beat `beat` (Table 7.10). The PRBS sequences, the start of the walking one
and the reserved modes are free values (log 8). -/
def patBit (pat : Word) (lane beat : Nat) : Bool :=
  let seed := fld pat 16 32
  match fld pat 0 4 with
  | 0 => false
  | 1 => Config.prbsBit 7 (seed ^^^ lane) beat
  | 2 => Config.prbsBit 15 (seed ^^^ lane) beat
  | 3 => seed.testBit ((4 * beat + lane % 4) % 32)
  | 4 => (Config.freeNat seed + beat) % 52 = lane
  | m => Config.freeBool ((m * 2 ^ 32 + seed) * 1024 + lane * 16 + beat)

/-- The pattern as position `k` carries it: bit 4n + i is lane 4k + i of beat n. -/
def patWord (pat : Word) (k : Nat) : BitVec 64 :=
  BitVec.ofNat 64 (bitsOf ((List.range 64).map (fun j => patBit pat (4 * k + j % 4) (j / 4))))

/-- Bits that differ from the pattern, by position. -/
def patDiff (pat : Word) (burst : List (BitVec 64)) : List (BitVec 64) :=
  (List.range 13).map (fun k => burst.getD k 0 ^^^ patWord pat k)

/-- DQ[51:0] of beat `n` of 13 words. -/
def beatBits (ws : List (BitVec 64)) (n : Nat) : Nat :=
  bitsOf ((List.range 52).map (fun l => (ws.getD (l / 4) 0).getLsbD (4 * n + l % 4)))

/-- Compare one burst: FAIL, the lanes and the beats accumulate (R187, Tables 7.11 and 7.12). -/
def Dev.compareBurst (d : Dev) (s : Fin 8) (burst : List (BitVec 64)) : Dev :=
  let df := patDiff (d.reg (A.testPat s.val)) burst
  let beats := (List.range 16).map (beatBits df)
  let lanes := beats.foldl (· ||| ·) 0
  let failed := bitsOf (df.map (fun w => w ≠ 0))
  let d1 := d.setFld (A.testStat s.val) 13 13 (d.fldR (A.testStat s.val) 13 13 ||| failed)
  let d2 := d1.setReg (A.testErr s.val) (d1.reg (A.testErr s.val) ||| BitVec.ofNat 48 lanes)
  let d3 := d2.setFld (A.testErrHi s.val) 0 4 (d2.fldR (A.testErrHi s.val) 0 4 ||| lanes >>> 48)
  d3.bumpBy (A.testErrHi s.val) 4 24 (beats.filter (· ≠ 0)).length

/-- The capture registers hold the last burst (Table 7.13). -/
def Dev.captureBurst (d : Dev) (s : Fin 8) (burst : List (BitVec 64)) : Dev :=
  Dev.each (fun n x =>
    (x.setReg (A.capture s.val (2 * n)) (BitVec.ofNat 48 (beatBits burst n))).setReg (A.capture s.val (2 * n + 1))
      (BitVec.ofNat 48 (beatBits burst n >>> 48))) (List.range 16) d

/-- The DRAM turnaround that follows a test operation: tWTR_L after a write, two tCK after a read (R188; DEDUCED, log 22). -/
def Dev.turnaround (d : Dev) (t : Fin 16) (op : Nat) : Nat := if op = 5 then d.timing t 6 else d.tCk 2

/-- A test operation finishes (R187, R188). -/
def Dev.testDone (d : Dev) (s : Fin 8) (sample : BitVec 13) (bursts : List (List (BitVec 64))) : Dev :=
  match (d.phys[s]).test with
  | none => d
  | some v =>
    if !(d.phys[s]).testSent then d
    else
      let op := fld v 0 4
      let until' := d.now (subPort s) + d.turnaround (testTile s v) op
      let d1 := ((d.modPhy s (fun x => { x with test := none, testSent := false, turnUntil := until' })).setFld
        (A.testStat s.val) 47 1 0).setFld (A.testStat s.val) 46 1 1
      let cap := fun (x : Dev) => match bursts.getLast? with
        | some b => x.captureBurst s b
        | none => x
      match op with
      | 1 => d1.setFld (A.testStat s.val) 26 13 sample.toNat
      | 2 => d1.setFld (A.testStat s.val) 26 13 sample.toNat
      | 3 => d1.setFld (A.testStat s.val) 26 13 sample.toNat
      | 4 => cap (Dev.each (fun b x => x.compareBurst s b) bursts d1)
      | 5 => d1.modPhy s (fun x => { x with lastWr := some ((List.range 13).map (patWord (d.reg (A.testPat s.val)))) })
      | 6 => cap (Dev.each (fun b x => x.compareBurst s b) bursts d1)
      | 7 => d1.mrWrite (testTile s v) (fld v 7 3) (fld v 22 8) (BitVec.ofNat 8 (fld v 30 8))
      | _ => cap d1

/-- TEST_OP_DONE (R187, R188). -/
def execTestOpDone (sub : Fin 8) (sample : BitVec 13) (bursts : List (List (BitVec 64))) (s : State) :
    Host.Outcome State Fault Refusal := devNext s (s.dev.testDone sub sample bursts)

/-! ### Calibration -/

/-- ZQCal Start or Latch goes to every layer of the port's tiles. -/
def Dev.zqAll (d : Dev) (p : Fin 4) (kind : CmdKind) : Dev :=
  Dev.each (fun t x => if x.ckDriven t && !(x.tiles[t]).inSr then x.layerSend t kind 0 0 else x) (portTiles p) d

/-- The pause starts (Table 7.7): issue stops, every tile is precharged, ZQCal Start goes to every layer. -/
def Dev.calPause (d : Dev) (p : Fin 4) : Dev :=
  let d1 := Dev.each (fun t x => if x.rowsOpen t then x.prechargeTile t else x) (portTiles p) d
  (d1.zqAll p .zqStart).modCal p (fun x => { x with pause := true, queued := false })

/-- A write of CAL[p].CMD.START (R190, R193). -/
def Dev.calStart (d : Dev) (p : Fin 4) : Dev :=
  if (d.cals[p]).pause || (d.cals[p]).queued then d
  else if (d.ports[p]).sr ≠ .run || d.pwrState ≠ 0 || d.pwrPhase ≠ 0 then d.setFld (A.calStatus p.val) 0 4 3
  else if allPorts.any (fun q => (d.cals[q]).pause) then d.modCal p (fun x => { x with queued := true })
  else d.calPause p

/-- CAL_START (R190, R193). -/
def execCalStart (_m : Master) (p : Fin 4) (v : Word) (s : State) : Host.Outcome State Fault Refusal :=
  devNext s (if bit v 0 then s.dev.calStart p else s.dev)

/-- The pause ends: ZQCal Latch to every layer, a Geyser for what is owed (R156), and the next queued run in port order. -/
def Dev.calResume (d : Dev) (p : Fin 4) : Dev :=
  let d1 := ((d.zqAll p .zqLatch).modCal p (fun x => { x with pause := false })).geyserAll p
  let d2 := Dev.each (fun t x => x.latchForced t) (portTiles p) d1
  match allPorts.find? (fun q => (d2.cals[q]).queued) with
  | none => d2
  | some q => d2.calPause q

/-- CAL_REF_CHECK (R191): outside ±3 % of nominal the run aborts. -/
def execCalRefCheck (p : Fin 4) (res vref : BitVec 16) (s : State) : Host.Outcome State Fault Refusal :=
  let d := s.dev
  let d1 := d.setReg (A.calRef p.val) (pack [(16, res.toNat), (0, vref.toNat)])
  devNext s
    (if !(d.cals[p]).pause then d
     else if within 23280 24720 res.toNat && within 5820 6180 vref.toNat then d1
     else ((((d1.setFld (A.calStatus p.val) 0 4 2).bump (A.calStatus p.val) 8 8).calResume p).fault (120 + p.val)
       { event := 1, addr := 0, akind := 0, coord := coordCtl 0x08 p.val, master := none, access := 0 }).enterQueues)

/-- The die temperature (R361). -/
def Dev.dieTemp (d : Dev) : Nat := d.fldR A.therm 32 8

/-- CAL_PAUSE_END (R190, R194): the run ends DONE; its codes wait for a quiet boundary. -/
def execCalPauseEnd (p : Fin 4) (codes0 codes1 : List (BitVec 6)) (s : State) : Host.Outcome State Fault Refusal :=
  let d := s.dev
  let st := A.calStatus p.val
  devNext s
    (if !(d.cals[p]).pause then d
     else
      ((((((d.setFld st 0 4 1).bump st 32 16).setFld st 24 8 d.dieTemp).setFld st 16 1 0).modCal p (fun x =>
        { x with pend := #v[some codes0, some codes1], everDone := true })).calResume p).enterQueues)

/-- LO and HI of trim `i` of port `p`: zero means 1 and 63. -/
def Dev.calLo (d : Dev) (p : Fin 4) (i : Nat) : Nat :=
  let v := d.cfgLe Sec.cal (32 * p.val + 4 + 2 * i) 1
  if v = 0 then 1 else v
def Dev.calHi (d : Dev) (p : Fin 4) (i : Nat) : Nat :=
  let v := d.cfgLe Sec.cal (32 * p.val + 5 + 2 * i) 1
  if v = 0 then 63 else v

/-- The effective trim (R192) and whether clamping changed it. -/
def Dev.effTrim (d : Dev) (p : Fin 4) (i : Nat) (code : BitVec 6) : Nat × Bool :=
  if code = 0 then (0, false)
  else
    let off : Int := (BitVec.ofNat 4 (d.fldR (A.calOffset p.val) (4 * i) 4)).toInt
    let v : Int := code.toNat + off
    let c := max (d.calLo p i : Int) (min (d.calHi p i : Int) v)
    (c.toNat, decide (c ≠ v))

/-- The live trims of subchannel 2p + j from its codes and the live offsets. -/
def Dev.trimSet (d : Dev) (p : Fin 4) (j : Fin 2) : Dev :=
  let cs := (d.cals[p]).codes[j]
  let es := (List.range 6).map (fun i => d.effTrim p i (cs.getD i 0))
  let d1 := d.setReg (A.calTrim p.val j.val) (pack ((List.range 6).map (fun i => (6 * i, (es.getD i (0, false)).1))))
  if es.any (fun e => e.2) then d1.setFld (A.calStatus p.val) 17 1 1 else d1

def subHalf (s : Fin 8) : Fin 2 := Fin.ofNat 2 (s.val % 2)

/-- End of the last burst on Ss_DQ: eight tCK after the latency of its column command. -/
def Dev.burstEnd (d : Dev) (s : Fin 8) : Nat :=
  match (d.phys[s]).lastCol with
  | none => 0
  | some (at0, t, _, w) => at0 + d.tCk ((if w then d.cwl t else d.rl t) + 8)

/-- No burst is on Ss_DQ, nor any due. -/
def Dev.dqQuiet (d : Dev) (s : Fin 8) : Bool := (d.phys[s]).inflight = [] && d.burstEnd s ≤ d.now (subPort s)

/-- The tile is held by an all-bank refresh unit. -/
def Dev.abHeld (d : Dev) (t : Fin 16) : Bool :=
  d.refMode (tilePort t) ≠ 2 && ((d.tiles[t]).refUnit || d.now (tilePort t) < (d.tiles[t]).holdUntil)

/-- The two boundaries of R192: every populated tile of the subchannel held by an all-bank unit and no burst on Ss_DQ; or no
command and no burst for 100 ns, 2880 root PLL periods. -/
def Dev.trimQuiet (d : Dev) (s : Fin 8) : Bool :=
  let now := d.now (subPort s)
  ((subTiles s).all (fun t => !d.present t || d.abHeld t) && d.dqQuiet s) ||
    ((d.phys[s]).inflight = [] &&
      ((d.phys[s]).lastCmd = none || ((d.phys[s]).lastAt + 2880 ≤ now && d.burstEnd s + 2880 ≤ now)))

/-- CAL_TRIM_LAND (R192). -/
def execCalTrimLand (sub : Fin 8) (s : State) : Host.Outcome State Fault Refusal :=
  let d := s.dev
  let p := subPort sub
  let j := subHalf sub
  devNext s
    (match (d.cals[p]).pend[j] with
      | none => d
      | some cs =>
        if (d.cals[p]).pause || !d.trimQuiet sub then d
        else (d.modCal p (fun x => { x with codes := x.codes.set j cs, pend := x.pend.set j none })).trimSet p j)

/-- CAL_DUE_TIMER (R194). -/
def execCalDueTimer (p : Fin 4) (s : State) : Host.Outcome State Fault Refusal :=
  let d := s.dev
  devNext s (if (d.cals[p]).everDone && d.cfgLe Sec.cal (32 * p.val) 4 ≠ 0 then
    (d.setFld (A.calStatus p.val) 16 1 1).raiseAttn 1 else d)

end Sys2Proof.Machine
end

