-- ==== Sys2Proof/Machine/Prot.lean ====
section
/-! DEFINITION. The commands of the line code's sparing: declarations (R207, R208), the spare journal (R217 to R219), row
remap and PPR (R212 to R214), fill (R216), self-test and injection (R220, R221). -/

namespace Sys2Proof.Machine

/-- DEAD_WINDOW_END (R207): every count of the subchannel restarts; a zero DEAD_WINDOW has no windows. -/
def execDeadWindowEnd (sub : Fin 8) (s : State) : Host.Outcome State Fault Refusal :=
  let d := s.dev
  devNext s (if d.protCfg sub 4 4 = 0 then d
    else Dev.each (fun k x => x.setFld (A.symcnt sub.val k) 0 16 0) (List.range 13) d)

/-- A write of PROT[s].DECLARE (Table 8.11). -/
def Dev.declareWrite (d : Dev) (s : Fin 8) (v : Word) : Dev :=
  if bit v 4 then d.declareDead s (fld v 0 4) else d

/-- DECLARE (R207, R208). -/
def execDeclare (_m : Master) (sub : Fin 8) (v : Word) (s : State) : Host.Outcome State Fault Refusal :=
  devNext s (s.dev.declareWrite sub v)

/-! ### The spare journal -/

/-- A journal slot is erased. -/
def State.eraseSlot (s : State) (k : Nat) : State :=
  { s with flash := memErase s.flash (journalSlot k) (journalSlot k + 0x4000) }

/-- The erase that a record calls for, unless PWRFAIL_N is low: then it waits (R219). -/
def State.journalErase (s : State) : State :=
  let due := fun (b : Bool) (x : State) => { x with dev := { x.dev with journal := { x.dev.journal with eraseDue := b } } }
  if s.dev.pins.pwrfailN then due false (s.eraseSlot s.dev.journalNext) else due true s

/-- A change that waits starts a record, once its slot is erased. -/
def State.journalGo (s : State) : State :=
  let x := if s.dev.journal.eraseDue then s.journalErase else s
  if x.dev.journal.dirty && !x.dev.journal.eraseDue then { x with dev := x.dev.journalStart } else x

/-- A record ends (R218, R219): whole in flash, and the other slot is erased; or failed, and tried again after its slot is
erased again. With PWRFAIL_N low no erase and no record body starts. -/
def State.journalEnd (s : State) (ok : Bool) : State :=
  let d := s.dev
  if !d.journal.busy then s
  else if ok then
    let k := d.journalNext
    let body := d.journal.image
    let d1 := { d with journal := { d.journal with busy := false, image := [] } }.setReg A.journal
      (pack [(16, leNat ((body.drop 8).take 4)), (15, k), (13, 1), (0, d.fldR A.journal 0 8)])
    { s with flash := memWriteList s.flash (journalSlot k) (body ++ journalTrailer body), dev := d1 }.journalErase.journalGo
  else
    let d1 := (d.bump A.journal 0 8).fault 129 { event := 1, addr := 0, akind := 0, coord := 0, master := none, access := 0 }
    if d.pins.pwrfailN then { s with dev := d1 }.eraseSlot d.journalNext
    else { s with dev := { d1 with journal := { busy := false, dirty := true, eraseDue := true, image := [] } }.setFld A.journal 14 1 0 }

/-- JOURNAL_RECORD_DONE (R218, R219). -/
def execJournalRecordDone (ok : Bool) (s : State) : Host.Outcome State Fault Refusal := stNext s (s.journalEnd ok)

/-! ### Row remap and PPR -/

def entValid (v : Word) : Bool := bit v 47
def entMoving (v : Word) : Bool := bit v 46

/-- The 64 entries of the tile that holds entry `j`. -/
def Dev.tileEntries (d : Dev) (s : Fin 8) (j : Nat) : List (Nat × Word) :=
  (List.range 64).map (fun i => (64 * (j / 64) + i, d.reg (A.remap s.val (64 * (j / 64) + i))))

/-- A MOVE is rejected (R213). -/
def Dev.moveRejected (d : Dev) (s : Fin 8) (v : Word) : Bool :=
  let j := fld v 39 7
  let e := d.reg (A.remap s.val j)
  let t := Fin.ofNat 16 (2 * s.val + j / 64)
  let sameBank := fun (x : Word) => fld x 43 3 = fld v 36 3 && fld x 40 3 = fld v 33 3 && fld x 38 2 = fld v 31 2
  entValid e || entMoving e || d.protCfg s 0x0C 1 ≤ fld v 7 6 ||
    (d.tileEntries s j).any (fun x => x.1 ≠ j && entValid x.2 && sameBank x.2 &&
      (fld x.2 20 18 = fld v 13 18 || fld x.2 14 6 = fld v 7 6)) ||
    d.stack t ≤ fld v 36 3

/-- A row command is taken: it runs at once, or waits for a rebuild (Table 8.4). -/
def Dev.rowTake (d : Dev) (s : Fin 8) (kind : BitVec 3) (v : Word) : Dev :=
  let wait := (d.prots[s]).rebuild && !(d.prots[s]).frozen
  let d1 := d.modProt s (fun x => { x with rowOp := some { kind := kind, v := v, waiting := wait, sent := false } })
  if wait then d1 else (d1.rowBegin s).enterQueues

/-- A write of PROT[s].REMAP_CMD (R212, R213). The reserved OP 3 is unpredictable (R6; DESIGN CHOICE, log 87). -/
def Dev.remapWrite (d : Dev) (s : Fin 8) (v : Word) : Dev :=
  let a := A.remapCmd s.val
  let d1 := d.setReg a (put (d.reg a) 7 39 (fld v 7 39))
  let op := codeOf [0, 1, 2] (fld v 46 2)
  if op = 0 || (d.prots[s]).rowOp.isSome || d.subFenced s then d1
  else if (op = 1 && d.moveRejected s v) || (op = 2 && !entValid (d.reg (A.remap s.val (fld v 39 7)))) then d1.setFld a 4 2 2
  else (d1.setFld a 6 1 1).rowTake s (if op = 1 then 1 else 2) v

/-- REMAP_MOVE (R212). -/
def execRemapMove (_m : Master) (sub : Fin 8) (v : Word) (s : State) : Host.Outcome State Fault Refusal :=
  devNext s (s.dev.remapWrite sub (put v 46 2 1))

/-- REMAP_RETURN (R212). -/
def execRemapReturn (_m : Master) (sub : Fin 8) (v : Word) (s : State) : Host.Outcome State Fault Refusal :=
  devNext s (s.dev.remapWrite sub (put v 46 2 2))

/-- A row command has copied column 127: its lock goes, the entry is in force or free again, and the journal records it. -/
def Dev.remapEnd (d : Dev) (s : Fin 8) (o : RowOp) (j : Job) : Dev :=
  let a := rowOpEntry s o.v
  let c := A.remapCmd s.val
  let d1 := (((d.jobFree j).modProt s (fun x => { x with rowOp := none })).setFld a 46 1 0).setFld a 7 7 0
  let d2 := ((d1.setFld a 47 1 (if o.kind = 1 then 1 else 0)).setFld c 6 1 0).setFld c 4 2 1
  (d2.sillSparing (protUnit s) (if o.kind = 1 then 5 else 6)).journalStart.enterQueues

/-- REMAP_DONE (R212). -/
def execRemapDone (sub : Fin 8) (s : State) : Host.Outcome State Fault Refusal :=
  let d := s.dev
  devNext s (match (d.prots[sub]).rowOp, d.rowJob sub with
    | some o, some j => if o.waiting || !(o.kind = 1 || o.kind = 2) || !d.rowCopied sub o then d else d.remapEnd sub o j
    | _, _ => d)

/-- A write of PROT[s].PPR (R214). The reserved OP 3 is unpredictable (R6; DESIGN CHOICE, log 87). -/
def Dev.pprWrite (d : Dev) (s : Fin 8) (v : Word) : Dev :=
  let a := A.ppr s.val
  let d1 := d.setReg a (put (d.reg a) 19 27 (fld v 19 27))
  let op := codeOf [0, 1, 2] (fld v 46 2)
  let t := Fin.ofNat 16 (2 * s.val + fld v 45 1)
  let named := (d.tileEntries s (64 * fld v 45 1)).any (fun x => entValid x.2 && !entMoving x.2 &&
    fld x.2 43 3 = fld v 42 3 && fld x.2 40 3 = fld v 39 3 && fld x.2 38 2 = fld v 37 2 && fld x.2 20 18 = fld v 19 18)
  if op = 0 || (d.prots[s]).rowOp.isSome || d.subFenced s then d1
  else if !d.feature t (if op = 1 then 5 else 6) || !named || (op = 2 && d.ready t) then d1.setFld a 16 2 2
  else (d1.setFld a 18 1 1).rowTake s (if op = 1 then 3 else 4) v

/-- SOFT_PPR (R214). -/
def execSoftPpr (_m : Master) (sub : Fin 8) (v : Word) (s : State) : Host.Outcome State Fault Refusal :=
  devNext s (s.dev.pprWrite sub (put v 46 2 1))

/-- HARD_PPR (R214). -/
def execHardPpr (_m : Master) (sub : Fin 8) (v : Word) (s : State) : Host.Outcome State Fault Refusal :=
  devNext s (s.dev.pprWrite sub (put v 46 2 2))

/-- PPR_DONE (R214): the sequence ends with its bank precharged. -/
def execPprDone (sub : Fin 8) (s : State) : Host.Outcome State Fault Refusal :=
  devNext s (match (s.dev.prots[sub]).rowOp with
    | some o =>
      if o.waiting || !(o.kind = 3 || o.kind = 4) then s.dev
      else
        let d := s.dev.pprGo sub
        (((d.modProt sub (fun x => { x with rowOp := none })).setFld (A.ppr sub.val) 18 1 0).setFld (A.ppr sub.val) 16 2 1).caSend
          sub 0 [pprExit sub o.v]
    | none => s.dev)

/-! ### Fill -/

/-- FILL (R216): the tiles of the subchannel are in service and the fill starts at its first location. -/
def execFill (sub : Fin 8) (s : State) : Host.Outcome State Fault Refusal :=
  let d := s.dev
  devNext s (if (d.prots[sub]).fillDue && (subTiles sub).all (fun t => !d.present t || d.ready t) then
    d.modProt sub (fun x => { x with fillDue := false, filling := true, fillP := 0, fillLeft := 0 }) else d)

/-- Every location has been written as poison. -/
def Prot.fillWritten (x : Prot) : Bool := x.filling && x.fillP = 2 ^ 34 && x.fillLeft = 0

/-- FILL_DONE (R216): requests that waited go on. -/
def execFillDone (sub : Fin 8) (s : State) : Host.Outcome State Fault Refusal :=
  let d := s.dev
  devNext s (if (d.prots[sub]).fillWritten then (d.modProt sub (fun x => { x with filling := false })).enterQueues else d)

/-! ### Self-test and injection -/

/-- Table 8.7: the injected check symbols of pattern `n`. -/
def selfInject (n : Nat) : List Nat :=
  match n with
  | 0 => [0, 0, 0, 0]
  | 1 => [0xFFFF, 0, 0, 0]
  | 2 => [0xFFFF, 0xFFFF, 0, 0]
  | 3 => [0xFFFF, 0xFFFF, 0xFFFF, 0]
  | _ => poisonConst

/-- Is the outcome of pattern `n` the one expected (Table 8.7)? -/
def selfExpected (n : Nat) (o : CwOut) : Bool :=
  match n with
  | 0 => o.outc = .clean
  | 1 => o.outc = .corrected && o.counted.map degreePos = [8]
  | 2 => o.outc = .corrected && o.counted.length = 2
  | 3 => o.outc = .uncorr
  | _ => o.outc = .poisoned

/-- Pattern `n` on the all-zero reference codeword; `upset` is what a defect of the decoder adds. -/
def selfPattern (n : Nat) (upset : List (BitVec 16)) : Bool :=
  let sym := List.replicate 8 0 ++ selfInject n
  selfExpected n (decodeCw 0 ((List.range 12).map (fun k => sym.getD k 0 ^^^ (upset.getD k 0).toNat)) [0, 0, 0] [])

/-- SELFTEST (R220); a zero INJ_PERIOD disables it. -/
def execSelftest (sub : Fin 8) (upset : List (List (BitVec 16))) (s : State) : Host.Outcome State Fault Refusal :=
  let d := s.dev
  let a := A.selftest sub.val
  let bad := bitsOf ((List.range 5).map (fun n => !selfPattern n (upset.getD n [])))
  devNext s
    (if d.protCfg sub 0x0A 2 = 0 then d
     else
      let d1 := d.bump a 24 24
      if bad = 0 then d1
      else ((d1.bump a 16 8).setFld a 11 5 (d.fldR a 11 5 ||| bad)).fault (72 + sub.val)
        { event := 3, addr := 0, akind := 0, coord := coordMem sub 0 15 0, master := none, access := 0 })

/-- A write of PROT[s].INJECT (R221): accesses are counted from the write on (log 24). -/
def Dev.injectWrite (d : Dev) (s : Fin 8) (v : Word) : Dev :=
  (d.setFld (A.inject s.val) 24 24 (fld v 24 24)).modProt s (fun x => { x with injCount := 0 })

/-- INJECT_ARM (R221). -/
def execInjectArm (_m : Master) (sub : Fin 8) (v : Word) (s : State) : Host.Outcome State Fault Refusal :=
  devNext s (s.dev.injectWrite sub v)

end Sys2Proof.Machine
end

