-- ==== Sys2Proof/Machine/Crypt.lean ====
section
/-! DEFINITION. The commands of encryption and of the capacity tier (R228 to R231, R235, R240, R244, R246). -/

namespace Sys2Proof.Machine

/-! ### Key slots -/

/-- A write of KEY_DATAj (R229): it counts only from an MWR. -/
def Dev.keyDataWrite (d : Dev) (m : Master) (j : Nat) (v : Word) : Dev :=
  if m = .hub then { d with crypt := { d.crypt with keyData := d.crypt.keyData.setIfInBounds j v } } else d

/-- OP of KEY_CMD; the reserved one is unpredictable (R6; DESIGN CHOICE, log 87). -/
def keyOp (v : Word) : Nat := codeOf [0, 1, 2] (fld v 46 2)

/-- A write of KEY_CMD (R229, Table 9.9): it counts only from an MWR, and not while BUSY. -/
def Dev.keyCmdWrite (d : Dev) (m : Master) (v : Word) : Dev :=
  if m ≠ .hub || d.crypt.busy.isSome then d
  else
    let d1 := d.setFld A.keyCmd 36 5 (fld v 36 5)
    let slot : BitVec 5 := BitVec.ofNat 5 (fld v 36 5)
    match keyOp v with
    | 1 => { d1 with crypt := { d1.crypt with busy := some slot } }.setFld A.keyCmd 35 1 1
    | 2 =>
      { d1 with crypt := { d1.crypt with slots := d1.crypt.slots.setIfInBounds slot.toNat none, keyData := Vector.replicate 8 0 }
      }.setFld A.keyCmd 32 3 1
    | _ => d1

/-- A write of KEY_CMD as the life cycle allows it: in VOID key slot loading is closed and has no effect (Table 13.2). -/
def State.keyCmdWrite (s : State) (m : Master) (v : Word) : Dev :=
  if s.fuses.state = 4 && keyOp v = 1 then s.dev else s.dev.keyCmdWrite m v

/-- KEY_LOAD (R229). -/
def execKeyLoad (m : Master) (v : Word) (s : State) : Host.Outcome State Fault Refusal :=
  devNext s (s.keyCmdWrite m (put v 46 2 1))

/-- KEY_CLEAR (R229). -/
def execKeyClear (m : Master) (v : Word) (s : State) : Host.Outcome State Fault Refusal :=
  devNext s (s.dev.keyCmdWrite m (put v 46 2 2))

/-- The 48 bytes of a wrapped key. -/
def Crypt.wrapped (c : Crypt) : List Byte := c.keyData.toList.flatMap (fun w => leBytes 6 w.toNat)

/-- Block `i` of a wrapped key, its first byte in [127:120]. -/
def wrapBlock (bs : List Byte) (i : Nat) : BitVec 128 := BitVec.ofNat 128 (beNat ((bs.drop (16 * i)).take 16))

/-- Plaintext block `i` (R228). -/
def unwrapBlock (kwk : BitVec 256) (bs : List Byte) (i : Nat) : BitVec 128 :=
  aes256Inv kwk (wrapBlock bs i) ^^^ (if i = 0 then 0 else wrapBlock bs (i - 1))

/-- P0: "ADKY" and the slot (R228). -/
def wrapCheck (slot : BitVec 5) : BitVec 128 := BitVec.ofNat 128 (0x41444B59 <<< 96 ||| slot.toNat <<< 88)

/-- KEY_LOAD_DONE (R229): without a programmed KWK no wrapped key checks. -/
def execKeyLoadDone (s : State) : Host.Outcome State Fault Refusal :=
  let d := s.dev
  devNext s (match d.crypt.busy with
    | none => d
    | some slot =>
      let bs := d.crypt.wrapped
      let d1 := { d with crypt := { d.crypt with busy := none } }.setFld A.keyCmd 35 1 0
      if !s.fuses.kwkOk || unwrapBlock s.fuses.kwk bs 0 ≠ wrapCheck slot then d1.setFld A.keyCmd 32 3 2
      else if (d.crypt.slots[slot.toNat]?.join).isSome then d1.setFld A.keyCmd 32 3 3
      else
        let key : BitVec 256 := unwrapBlock s.fuses.kwk bs 1 ++ unwrapBlock s.fuses.kwk bs 2
        { d1 with crypt := { d1.crypt with slots := d1.crypt.slots.setIfInBounds slot.toNat (some key) } }.setFld A.keyCmd
          32 3 1)

/-! ### Rotation -/

/-- A write of ROT_CMD (R231). -/
def Dev.rotWrite (d : Dev) (v : Word) : Dev :=
  let a := A.rotCmd
  let d1 := (d.setFld a 40 6 (fld v 40 6)).setFld a 0 32 (fld v 0 32)
  let r := fld v 40 6
  if !bit v 47 then d1
  else if !regionUsed d.cfg r || !regionEnc d.cfg r || d.rotating r || fld v 0 32 = d.fldR (A.epoch r) 0 32 then
    d1.setFld a 46 1 1
  else
    (((d1.setFld a 46 1 0).setReg (A.rot r) (ones 47 47)).setReg (A.nextEpoch r) (BitVec.ofNat 48 (fld v 0 32))).eventWhere 3
      (fun _ _ => true)

/-- ROTATION_START (R231). -/
def execRotationStart (_m : Master) (v : Word) (s : State) : Host.Outcome State Fault Refusal :=
  devNext s (s.dev.rotWrite (putBit v 47 true))

/-! ### The tier -/

/-- PMC_MISS_FILL (R235): the table line that page `idx` misses has been read, and the requests of the page continue. -/
def execPmcMissFill (idx : BitVec 32) (_line : Unit) (s : State) : Host.Outcome State Fault Refusal :=
  let d := s.dev
  devNext s (if (kvGet d.tier.loaded idx.toNat).isSome then (d.pmcLoaded idx).enterQueues else d)

/-- The tier write of page `idx` whose chunk has been read: the next to be merged. -/
def Tier.toMerge (t : Tier) (idx : BitVec 32) : Option TierOp :=
  t.ops.find? (fun o => o.idx = idx && o.phase = .reading && o.h.op.isWrite && o.move.isNone && o.gotAll)

/-- TIER_WRITE_MERGE (R244 steps 2 to 7). -/
def execTierWriteMerge (idx : BitVec 32) (_lines : Unit) (s : State) : Host.Outcome State Fault Refusal :=
  let d := s.dev
  devNext s (match d.tier.toMerge idx with
    | some o => (d.tierMerge o).enterQueues
    | none => d)

/-- TIER_ENTRY_SWITCH (R244). -/
def execTierEntrySwitch (idx : BitVec 32) (s : State) : Host.Outcome State Fault Refusal :=
  devNext s (s.dev.tierSwitch idx).enterQueues

/-- GRANULE_FREE (R239, R244). -/
def execGranuleFree (idx : BitVec 32) (s : State) : Host.Outcome State Fault Refusal := devNext s (s.dev.tierFree idx).enterQueues

/-- The table and the bitmap have been written empty (R240). -/
def Dev.tierInitOver (d : Dev) : Bool :=
  d.tier.initWait && d.prots.all (fun (x : Prot) => !x.filling && !x.fillDue) && d.initLines ≤ d.tier.initP && d.tier.initLeft = 0

/-- TIER_INIT_DONE (R240): after the fill, the page map and the bitmap are empty, and elastic requests go on. -/
def execTierInitDone (s : State) : Host.Outcome State Fault Refusal :=
  let d := s.dev
  devNext s (if d.tierInitOver then
    (d.modTier (fun t => { t with initWait := false, pmc := [], pool := [], free := d.poolBlocks, frag := 0 })).enterQueues
    else d)

/-! ### Moves -/

/-- The line of an elastic region's page that the page map index names. -/
def idxLine (c : Memory) (idx : Nat) : LineAddr :=
  match (List.range 64).find? (fun r => regionUsed c r && regionElastic c r && regionPm c r ≤ idx &&
      idx < regionPm c r + regionSize c r / 4096) with
  | some r => BitVec.ofNat 42 (regionBase c r / 64 + 64 * (idx - regionPm c r))
  | none => 0

/-- The note of a master's accesses (R251): an engine's own, 15 for the others (log 25). -/
def Dev.masterNote (d : Dev) (m : Master) : BitVec 4 :=
  match m with
  | .engine e => BitVec.ofNat 4 (d.roleCfg d.engs[e].fromE.toNat 4 1)
  | _ => 15

/-- The master code of a register writer's own accesses (R157); the hub's moves have no SRC (log 25). -/
def masterCode : Master → BitVec 11
  | .engine e => masterEng e
  | _ => masterHub 0

/-- A write of MOVE_CMD[m] (R246, Table 9.23). -/
def Dev.moveWrite (d : Dev) (ma : Master) (m : Fin 4) (v : Word) : Dev :=
  let a := A.moveCmd m.val
  if bit (d.reg a) 43 then d
  else
    let idx : BitVec 32 := BitVec.ofNat 32 (fld v 0 32)
    let d1 := d.setFld a 0 32 idx.toNat
    if fld v 46 2 = 0 then d1
    else
      let mv : Move := { op := BitVec.ofNat 2 (fld v 46 2), idx := idx }
      let r : Req := { tag := 0, src := 0, note := d.masterNote ma, line := idxLine d.cfg idx.toNat }
      let h : Held :=
        { mkAccess .none r.note (masterCode ma) d.txn.nextRid d.cc r.line .rd 0 KeyUse.byLoc with fixed := none }
      (((d1.setFld a 43 1 1).modTier (fun t => { t with moves := t.moves.set m (some mv) })).tickRid.tierEnter
        (mkTierOp idx h (some m))).enterQueues

/-- PROMOTE (R246). -/
def execPromote (ma : Master) (m : Fin 4) (v : Word) (s : State) : Host.Outcome State Fault Refusal :=
  devNext s (s.dev.moveWrite ma m (put v 46 2 1))

/-- DEMOTE (R246). -/
def execDemote (ma : Master) (m : Fin 4) (v : Word) (s : State) : Host.Outcome State Fault Refusal :=
  devNext s (s.dev.moveWrite ma m (put v 46 2 2))

/-- REPACK (R246). -/
def execRepack (ma : Master) (m : Fin 4) (v : Word) (s : State) : Host.Outcome State Fault Refusal :=
  devNext s (s.dev.moveWrite ma m (put v 46 2 3))

/-- MOVE_DONE (R246): moves pause at throttle level 2 (R362). -/
def execMoveDone (m : Fin 4) (_lines : Unit) (s : State) : Host.Outcome State Fault Refusal :=
  devNext s (if s.dev.throttled then s.dev else (s.dev.moveEnd m).enterQueues)

end Sys2Proof.Machine
end

