-- ==== Sys2Proof/Machine/Fp64.lean ====
section
/-! DEFINITION. FP64 arithmetic of the engines (R257): IEEE 754 binary64, round to nearest even, subnormals kept.
PRESUMED: the body of IEEE 754 is not in the spec (log 9). -/

namespace Sys2Proof.Machine

def fpSign (x : BitVec 64) : Bool := bit x 63
def fpExp (x : BitVec 64) : Nat := fld x 52 11
def fpFrac (x : BitVec 64) : Nat := fld x 0 52
def fpIsNan (x : BitVec 64) : Bool := fpExp x = 2047 && fpFrac x ≠ 0
def fpIsInf (x : BitVec 64) : Bool := fpExp x = 2047 && fpFrac x = 0

/-- The quiet NaN a NaN operand gives (R257). -/
def fpQuietNan : BitVec 64 := 0x7FF8000000000000

/-- The NaN of an invalid operation without a NaN operand: some quiet NaN; its sign and payload are a free value of the
operands (log 8). -/
def fpInvalid (a b : BitVec 64) : BitVec 64 :=
  fpQuietNan ||| ((Config.freeLine (a.toNat * 2 ^ 64 + b.toNat)).setWidth 64 &&& 0x8007FFFFFFFFFFFF)

/-- A finite value as a multiple of 2^(-1074). -/
def fpInt (x : BitVec 64) : Int :=
  let m : Nat := if fpExp x = 0 then fpFrac x else (fpFrac x + 2 ^ 52) <<< (fpExp x - 1)
  if fpSign x then -(m : Int) else (m : Int)

/-- Round a magnitude in units of 2^(-1074) to nearest even: the low 63 bits of the result. -/
def fpRound (n : Nat) : Nat :=
  let shift := n.log2 - 52
  let q := n >>> shift
  let r := n % 2 ^ shift
  let half := 2 ^ shift / 2
  let q' := if shift ≠ 0 && (half < r || (r = half && q % 2 = 1)) then q + 1 else q
  min (shift <<< 52 + q') (2047 <<< 52)

/-- FADD. -/
def fpAdd (a b : BitVec 64) : BitVec 64 :=
  if fpIsNan a || fpIsNan b then fpQuietNan
  else if fpIsInf a then (if fpIsInf b && fpSign a ≠ fpSign b then fpInvalid a b else a)
  else if fpIsInf b then b
  else
    let s := fpInt a + fpInt b
    if s = 0 then (if fpSign a && fpSign b then BitVec.ofNat 64 (1 <<< 63) else 0)
    else BitVec.ofNat 64 (b2n (s < 0) <<< 63 + fpRound s.natAbs)

/-- A key that orders the numbers with −0 below +0. -/
def fpKey (x : BitVec 64) : Int :=
  let m : Int := (fld x 0 63 : Nat)
  if fpSign x then -m - 1 else m

/-- FMIN. -/
def fpMin (a b : BitVec 64) : BitVec 64 :=
  if fpIsNan a || fpIsNan b then fpQuietNan else if fpKey a ≤ fpKey b then a else b

/-- FMAX. -/
def fpMax (a b : BitVec 64) : BitVec 64 :=
  if fpIsNan a || fpIsNan b then fpQuietNan else if fpKey a ≤ fpKey b then b else a

end Sys2Proof.Machine
end

