-- ==== Sys2Proof/Machine/EngineInstr.lean ====
section
/-! DEFINITION. The engine instructions (R253 to R262, Table 10.8), but for the register accesses. An instruction of an
engine that does not run, or that waits for a busy slot, has no effect yet. -/

namespace Sys2Proof.Machine

/-! ### Shared forms -/

/-- An instruction that acts on its engine alone: `f`, then PC + 1. -/
def Dev.instr (d : Dev) (e : Fin 72) (f : Engine → Engine) : Dev :=
  if d.engRuns e then d.modEng e (fun x => (f x).next) else d

/-- An instruction that writes register `rd`. -/
def Dev.instrW (d : Dev) (e : Fin 72) (rd : Fin 16) (f : Engine → Word) : Dev :=
  d.instr e (fun x => x.setW rd (f x))

/-- An instruction that may trap (R264): with `bad`, it traps with `cause` and has no other effect. -/
def Dev.instrTrap (d : Dev) (e : Fin 72) (bad : Bool) (cause : Nat) (f : Dev → Dev) : Dev :=
  if !d.engRuns e then d else if bad then d.trap e cause else f d

/-- A branch (Table 10.8). -/
def Dev.branch (d : Dev) (e : Fin 72) (c : Engine → Bool) (target : BitVec 12) : Dev :=
  if d.engRuns e then d.modEng e (fun x => if c x then { x with pc := target } else x.next) else d

/-- An instruction whose effect leaves the engine: accesses, register writes and SEND (R271). -/
def outputs : Instr → Bool
  | .lget .. => true
  | .lput .. => true
  | .latomAdd .. => true
  | .latomSwap .. => true
  | .latomCas .. => true
  | .lpois .. => true
  | .lstepRebuild .. => true
  | .lstepScrub .. => true
  | .lstepRotate .. => true
  | .send .. => true
  | .rwr .. => true
  | _ => false

/-- An output of a fenced engine is dropped at the fence and recorded as a MINOR fault of its source (R274). -/
def Dev.dropOutput (d : Dev) (e : Fin 72) : Dev := d.fault e.val (engReport e 3)

/-- Engine `e` executes instruction `i`, whose outcome is `o`: it runs and its PC points at `i`. A word that no instruction
has traps with cause ENCODING (R257); a command that is not the engine's next instruction does nothing (log 13). A fenced
engine executes nothing, but what it tries to put out is recorded (R274). -/
def State.engineRuns (s : State) (e : Fin 72) (i : Instr) (o : Host.Outcome State Fault Refusal) :
    Host.Outcome State Fault Refusal :=
  if s.dev.live && s.dev.engRuns e then
    (match s.dev.fetched e with
     | none => .next { s with dev := s.dev.trap e 1 }
     | some j => if j = i then o else .next s)
  else if s.dev.live && s.dev.engs[e].run = .fenced && outputs i && s.dev.fetched e = some i then
    .next { s with dev := s.dev.dropOutput e }
  else .next s

/-- Immediates are sign-extended from 34 bits (R256). -/
def immOf (imm : BitVec 34) : Word := imm.signExtend 48

def oddReg (i : Fin 16) : Bool := i.val % 2 = 1

/-- Data memory address of LDW and STW. -/
def dataAddr (base : Word) (imm : BitVec 34) : Nat := (base + immOf imm).toNat % 16384

/-! ### Arithmetic -/

/-- NOP. -/
def execNop (e : Fin 72) (s : State) : Host.Outcome State Fault Refusal :=
  s.engineRuns e (.nop e) (
    devNext s (s.dev.instr e id))

/-- ADD. -/
def execAdd (e : Fin 72) (rd ra rb : Fin 16) (s : State) : Host.Outcome State Fault Refusal :=
  s.engineRuns e (.add e rd ra rb) (
    devNext s (s.dev.instrW e rd (fun x => x.w ra + x.w rb)))

/-- SUB. -/
def execSub (e : Fin 72) (rd ra rb : Fin 16) (s : State) : Host.Outcome State Fault Refusal :=
  s.engineRuns e (.sub e rd ra rb) (
    devNext s (s.dev.instrW e rd (fun x => x.w ra - x.w rb)))

/-- AND. -/
def execAnd (e : Fin 72) (rd ra rb : Fin 16) (s : State) : Host.Outcome State Fault Refusal :=
  s.engineRuns e (.and e rd ra rb) (
    devNext s (s.dev.instrW e rd (fun x => x.w ra &&& x.w rb)))

/-- OR. -/
def execOr (e : Fin 72) (rd ra rb : Fin 16) (s : State) : Host.Outcome State Fault Refusal :=
  s.engineRuns e (.or e rd ra rb) (
    devNext s (s.dev.instrW e rd (fun x => x.w ra ||| x.w rb)))

/-- XOR. -/
def execXor (e : Fin 72) (rd ra rb : Fin 16) (s : State) : Host.Outcome State Fault Refusal :=
  s.engineRuns e (.xor e rd ra rb) (
    devNext s (s.dev.instrW e rd (fun x => x.w ra ^^^ x.w rb)))

/-- SHL: a shift by 48 or more gives zero. -/
def execShl (e : Fin 72) (rd ra rb : Fin 16) (s : State) : Host.Outcome State Fault Refusal :=
  s.engineRuns e (.shl e rd ra rb) (
    devNext s (s.dev.instrW e rd (fun x => x.w ra <<< fld (x.w rb) 0 6)))

/-- SHR: a shift by 48 or more gives zero. -/
def execShr (e : Fin 72) (rd ra rb : Fin 16) (s : State) : Host.Outcome State Fault Refusal :=
  s.engineRuns e (.shr e rd ra rb) (
    devNext s (s.dev.instrW e rd (fun x => x.w ra >>> fld (x.w rb) 0 6)))

/-- SAR: a shift by 48 or more gives the sign fill. -/
def execSar (e : Fin 72) (rd ra rb : Fin 16) (s : State) : Host.Outcome State Fault Refusal :=
  s.engineRuns e (.sar e rd ra rb) (
    devNext s (s.dev.instrW e rd (fun x => (x.w ra).sshiftRight (fld (x.w rb) 0 6))))

/-- MUL: the low 48 bits. -/
def execMul (e : Fin 72) (rd ra rb : Fin 16) (s : State) : Host.Outcome State Fault Refusal :=
  s.engineRuns e (.mul e rd ra rb) (
    devNext s (s.dev.instrW e rd (fun x => x.w ra * x.w rb)))

/-- SLTU. -/
def execSltu (e : Fin 72) (rd ra rb : Fin 16) (s : State) : Host.Outcome State Fault Refusal :=
  s.engineRuns e (.sltu e rd ra rb) (
    devNext s (s.dev.instrW e rd (fun x => if x.w ra < x.w rb then 1 else 0)))

/-- ADDI. -/
def execAddi (e : Fin 72) (rd ra : Fin 16) (imm : BitVec 34) (s : State) : Host.Outcome State Fault Refusal :=
  s.engineRuns e (.addi e rd ra imm) (
    devNext s (s.dev.instrW e rd (fun x => x.w ra + immOf imm)))

/-- ANDI. -/
def execAndi (e : Fin 72) (rd ra : Fin 16) (imm : BitVec 34) (s : State) : Host.Outcome State Fault Refusal :=
  s.engineRuns e (.andi e rd ra imm) (
    devNext s (s.dev.instrW e rd (fun x => x.w ra &&& immOf imm)))

/-- ORI. -/
def execOri (e : Fin 72) (rd ra : Fin 16) (imm : BitVec 34) (s : State) : Host.Outcome State Fault Refusal :=
  s.engineRuns e (.ori e rd ra imm) (
    devNext s (s.dev.instrW e rd (fun x => x.w ra ||| immOf imm)))

/-- LDI: ra must be w0, or the field value is reserved (R257). -/
def execLdi (e : Fin 72) (rd ra : Fin 16) (imm : BitVec 34) (s : State) : Host.Outcome State Fault Refusal :=
  s.engineRuns e (.ldi e rd ra imm) (
    devNext s (s.dev.instrTrap e (ra ≠ 0) 1 (fun d => d.instrW e rd (fun _ => immOf imm))))

/-- LIH: rd[47:34] = imm[13:0]; ra must be w0. -/
def execLih (e : Fin 72) (rd ra : Fin 16) (imm : BitVec 34) (s : State) : Host.Outcome State Fault Refusal :=
  s.engineRuns e (.lih e rd ra imm) (
    devNext s (s.dev.instrTrap e (ra ≠ 0) 1 (fun d => d.instrW e rd (fun x => put (x.w rd) 34 14 (fld imm 0 14)))))

/-! ### Branches -/

/-- BEQ. -/
def execBeq (e : Fin 72) (ra rb : Fin 16) (target : BitVec 12) (s : State) : Host.Outcome State Fault Refusal :=
  s.engineRuns e (.beq e ra rb target) (
    devNext s (s.dev.branch e (fun x => x.w ra = x.w rb) target))

/-- BNE. -/
def execBne (e : Fin 72) (ra rb : Fin 16) (target : BitVec 12) (s : State) : Host.Outcome State Fault Refusal :=
  s.engineRuns e (.bne e ra rb target) (
    devNext s (s.dev.branch e (fun x => x.w ra ≠ x.w rb) target))

/-- BLT, signed. -/
def execBlt (e : Fin 72) (ra rb : Fin 16) (target : BitVec 12) (s : State) : Host.Outcome State Fault Refusal :=
  s.engineRuns e (.blt e ra rb target) (
    devNext s (s.dev.branch e (fun x => (x.w ra).slt (x.w rb)) target))

/-- BLTU. -/
def execBltu (e : Fin 72) (ra rb : Fin 16) (target : BitVec 12) (s : State) : Host.Outcome State Fault Refusal :=
  s.engineRuns e (.bltu e ra rb target) (
    devNext s (s.dev.branch e (fun x => decide (x.w ra < x.w rb)) target))

/-- JMP. -/
def execJmp (e : Fin 72) (target : BitVec 12) (s : State) : Host.Outcome State Fault Refusal :=
  s.engineRuns e (.jmp e target) (
    devNext s (s.dev.branch e (fun _ => true) target))

/-- CALL: w15 = PC + 1. -/
def execCall (e : Fin 72) (target : BitVec 12) (s : State) : Host.Outcome State Fault Refusal :=
  s.engineRuns e (.call e target) (
    let d := s.dev
    devNext s (if d.engRuns e then d.modEng e (fun x => { x.setW 15 ((x.pc + 1).setWidth 48) with pc := target }) else d))

/-- JR: PC = ra[11:0]. -/
def execJr (e : Fin 72) (ra : Fin 16) (s : State) : Host.Outcome State Fault Refusal :=
  s.engineRuns e (.jr e ra) (
    let d := s.dev
    devNext s (if d.engRuns e then d.modEng e (fun x => { x with pc := (x.w ra).setWidth 12 }) else d))

/-! ### Data memory and slots -/

/-- LDW. -/
def execLdw (e : Fin 72) (rd ra : Fin 16) (imm : BitVec 34) (s : State) : Host.Outcome State Fault Refusal :=
  s.engineRuns e (.ldw e rd ra imm) (
    devNext s (s.dev.instrW e rd (fun x => x.data (dataAddr (x.w ra) imm))))

/-- STW: words below DLEN / 6 are read-only. -/
def execStw (e : Fin 72) (rs ra : Fin 16) (imm : BitVec 34) (s : State) : Host.Outcome State Fault Refusal :=
  s.engineRuns e (.stw e rs ra imm) (
    let a := dataAddr (s.dev.engs[e].w ra) imm
    devNext s (s.dev.instrTrap e (a < s.dev.protWords e) 5 (fun d => d.instr e (fun x => x.setData a (x.w rs)))))

/-- The first bit of a field (R258). -/
def fieldBit (off : BitVec 9) (rb : Word) : Nat := (off.toNat + rb.toNat) % 512

/-- Encoding errors of EXT and INS (R257, R258). -/
def fieldBad (rd : Fin 16) (width : BitVec 7) : Bool := !within 8 64 width.toNat || (48 < width.toNat && oddReg rd)

/-- The field of a slot, zero beyond bit 511. -/
def slotGet (l : Line) (o w : Nat) : BitVec 64 := BitVec.ofNat 64 ((l.toNat >>> o) % 2 ^ w)

/-- The slot with a field stored; bits beyond 511 are discarded. -/
def slotPut (l : Line) (o w : Nat) (v : BitVec 64) : Line :=
  let m : Line := BitVec.ofNat 512 ((2 ^ w - 1) <<< o)
  (l &&& ~~~ m) ||| (BitVec.ofNat 512 (v.toNat <<< o) &&& m)

/-- EXT (R258). -/
def execExt (e : Fin 72) (rd rb : Fin 16) (slot : Fin 32) (off : BitVec 9) (width : BitVec 7) (s : State) :
    Host.Outcome State Fault Refusal :=
  s.engineRuns e (.ext e rd rb slot off width) (
    devNext s (s.dev.instrTrap e (fieldBad rd width) 1 (fun d =>
      if d.engs[e].isBusy slot.val then d
      else d.instr e (fun x =>
        let v := slotGet (x.slot slot.val) (fieldBit off (x.w rb)) width.toNat
        if width.toNat ≤ 48 then x.setW rd (v.setWidth 48) else x.setPair rd v))))

/-- INS (R258). -/
def execIns (e : Fin 72) (rd rb : Fin 16) (slot : Fin 32) (off : BitVec 9) (width : BitVec 7) (s : State) :
    Host.Outcome State Fault Refusal :=
  s.engineRuns e (.ins e rd rb slot off width) (
    devNext s (s.dev.instrTrap e (fieldBad rd width) 1 (fun d =>
      if d.engs[e].isBusy slot.val then d
      else d.instr e (fun x =>
        let v := if width.toNat ≤ 48 then (x.w rd).setWidth 64 else x.pair rd
        x.setSlot slot.val (slotPut (x.slot slot.val) (fieldBit off (x.w rb)) width.toNat v)))))

/-- SZERO. -/
def execSzero (e : Fin 72) (slot : Fin 32) (s : State) : Host.Outcome State Fault Refusal :=
  s.engineRuns e (.szero e slot) (
    devNext s (if s.dev.engs[e].isBusy slot.val then s.dev else s.dev.instr e (fun x => x.setSlot slot.val 0)))

/-! ### Windows and line accesses (R253, R254, R259) -/

/-- Where an engine access goes (R253). -/
inductive Target where
  | addr (l : LineAddr)
  | media (l : LineAddr)
  | loc (l : Loc)
deriving DecidableEq, Repr

/-- The check of R254: where the access goes, or `none`. An address register holds LOC[36:0] in a LOC window; otherwise
its bits [5:0] are ignored (log 27). -/
def Dev.winTarget (d : Dev) (e : Fin 72) (a : Word) (write pois : Bool) : Option Target :=
  match d.engs[e].window with
  | none => none
  | some w =>
    let n := w.toNat
    let l : LineAddr := a.extractLsb' 6 42
    let inside := fun (x : Nat) => d.winBase n ≤ x && x < d.winLimit n
    if (write && !d.winFlag n 0) || (pois && !d.winFlag n 2) then none
    else match d.winKind n with
      | 1 => if inside l.toNat && (d.lookupRegion l).isSome then some (.addr l) else none
      | 2 => if inside l.toNat then some (.media l) else none
      | 3 =>
        let c : Loc := a.setWidth 37
        let marker := d.markerRows (locPort c) = 1 && locRow c + 1 = d.rowCount (locTile c)
        if inside c.toNat && (!marker || d.winFlag n 1) then some (.loc c) else none
      | _ => none

/-- The note of an engine's accesses (R251, R267). -/
def Dev.engNote (d : Dev) (e : Fin 72) : BitVec 4 :=
  match d.engs[e].inv with
  | some i => BitVec.ofNat 4 (d.kernCfg i.kidx.toNat 6 1)
  | none => BitVec.ofNat 4 (d.roleCfg d.engs[e].fromE.toNat 4 1)

/-- The access as it waits for the queues (R253); an access by ADDR is placed by its region. -/
def Dev.engHeld (d : Dev) (e : Fin 72) (t : Target) (op : Op) (who : Who) : Held :=
  let h : LineAddr → Option (Loc × KeyUse) → Held := fun l fixed =>
    { mkAccess who (d.engNote e) (masterEng e) d.txn.nextRid d.cc l op 0 KeyUse.byLoc with fixed := fixed }
  match t with
  | .addr l => h l none
  | .media m => h m (some (addrMap d.cfg m, KeyUse.plain m))
  | .loc c => h 0 (some (c, KeyUse.byLoc))

/-- The line of the access lies in a LOST bank of a direct region: what reads it ends LOST (R170, R253). -/
def Dev.engLost (d : Dev) (h : Held) : Bool := h.op.needsOld && h.fixed.isNone && (d.heldLoc h).any d.bankLost

/-- An engine access arrives at its port (R130, R163, R253). -/
def Dev.engIssue (d : Dev) (e : Fin 72) (t : Target) (op : Op) (who : Who) : Dev :=
  let h := d.engHeld e t op who
  if d.engLost h then d.answerHeld h .lost
  else
    let d1 := match d.heldLoc h with
      | some l => d.arrive (locPort l)
      | none => d
    (d1.tickRid.hold h).enterQueues

/-- LGET and LPUT (R259): a busy slot waits; the slot is busy from issue. -/
def Dev.lineAccess (d : Dev) (e : Fin 72) (ra : Fin 16) (slot : Fin 32) (write : Bool) : Dev :=
  let x := d.engs[e]
  if !d.engIssues e || x.isBusy slot.val then d
  else match d.winTarget e (x.w ra) write false with
    | none => d.trap e 2
    | some t =>
      (d.modEng e (fun y => (y.setBusy slot.val true).next)).engIssue e t (if write then .wr (x.slot slot.val) else .rd)
        (.slot e slot x.gen)

/-- LGET (R259). -/
def execLget (e : Fin 72) (ra : Fin 16) (slot : Fin 32) (s : State) : Host.Outcome State Fault Refusal :=
  s.engineRuns e (.lget e ra slot) (
    devNext s (s.dev.lineAccess e ra slot false))

/-- LPUT (R259): a busy slot's contents do not change before they enter the scheduler. -/
def execLput (e : Fin 72) (ra : Fin 16) (slot : Fin 32) (s : State) : Host.Outcome State Fault Refusal :=
  s.engineRuns e (.lput e ra slot) (
    devNext s (s.dev.lineAccess e ra slot true))

/-- The first access of the slot that has ended completes (R259). -/
def Dev.slotDone (d : Dev) (e : Fin 72) (slot : Fin 32) : Dev :=
  match d.engs[e].ended.find? (fun x => x.1 = slot.val) with
  | none => d
  | some r => (d.modEng e (fun x =>
      { x with ended := dropFirst (fun y => y.1 = slot.val) x.ended }.accessDone slot.val r.2.1 r.2.2)).kernelSent e

/-- LINE_ACCESS_DONE (R259). -/
def execLineAccessDone (e : Fin 72) (slot : Fin 32) (_status _line : Unit) (s : State) : Host.Outcome State Fault Refusal :=
  devNext s (s.dev.slotDone e slot)

/-- LWAIT (Table 10.8): the slot's STATUS, or with ALL the first STATUS that is not OK, once it is free. -/
def execLwait (e : Fin 72) (rd : Fin 16) (slot : Fin 32) (all : Bool) (s : State) : Host.Outcome State Fault Refusal :=
  s.engineRuns e (.lwait e rd slot all) (
    let d := s.dev
    let x := d.engs[e]
    devNext s
      (if !d.engRuns e then d
       else if all then
        (if x.busy = 0 then
          d.instrW e rd (fun y => ((((List.range 32).map y.slotStat).find? (fun v => v ≠ 0)).getD 0).setWidth 48)
         else d.modEng e (fun y => { y with run := .waiting, wait := .allSlots rd }))
       else if x.isBusy slot.val then d.modEng e (fun y => { y with run := .waiting, wait := .slot slot rd })
       else d.instrW e rd (fun y => (y.slotStat slot.val).setWidth 48)))

/-! ### Atomics and poison (R260) -/

/-- The engine waits until its access answers (R260, Table 10.8). -/
def Dev.waitAccess (d : Dev) (e : Fin 72) (w : Wait) (t : Target) (op : Op) : Dev :=
  (d.modEng e (fun x => { x with run := .waiting, wait := w })).engIssue e t op (.latom e d.engs[e].gen)

/-- LATOM (R260): an ATOM on the word ra[5:3] of the line at ra; VALUE is pair rb and, for CAS, COMPARE is pair rd. -/
def Dev.latom (d : Dev) (e : Fin 72) (rd ra rb : Fin 16) (op : BitVec 2) : Dev :=
  if !d.engIssues e then d
  else d.instrTrap e (oddReg rd || oddReg rb) 1 (fun d =>
    let x := d.engs[e]
    match d.winTarget e (x.w ra) true false with
    | none => d.trap e 2
    | some t => d.waitAccess e (.atom rd) t (.atom op ((x.w ra).extractLsb' 3 3) (x.pair rd) (x.pair rb)))

/-- LATOM ADD. -/
def execLatomAdd (e : Fin 72) (rd ra rb : Fin 16) (line : Unit) (s : State) : Host.Outcome State Fault Refusal :=
  s.engineRuns e (.latomAdd e rd ra rb line) (
    devNext s (s.dev.latom e rd ra rb 1))

/-- LATOM SWAP. -/
def execLatomSwap (e : Fin 72) (rd ra rb : Fin 16) (line : Unit) (s : State) : Host.Outcome State Fault Refusal :=
  s.engineRuns e (.latomSwap e rd ra rb line) (
    devNext s (s.dev.latom e rd ra rb 2))

/-- LATOM CAS. -/
def execLatomCas (e : Fin 72) (rd ra rb : Fin 16) (line : Unit) (s : State) : Host.Outcome State Fault Refusal :=
  s.engineRuns e (.latomCas e rd ra rb line) (
    devNext s (s.dev.latom e rd ra rb 3))

/-- LPOIS (Table 10.8): the line at ra is written as poison; rd = STATUS once it is queued. -/
def execLpois (e : Fin 72) (rd ra : Fin 16) (s : State) : Host.Outcome State Fault Refusal :=
  s.engineRuns e (.lpois e rd ra) (
    let d := s.dev
    devNext s
      (if !d.engIssues e then d
       else match d.winTarget e (d.engs[e].w ra) true true with
        | none => d.trap e 2
        | some t => d.waitAccess e (.pois rd) t .pois))

/-! ### Pairs (R255, R257) -/

/-- An instruction on pairs: an odd register traps. -/
def Dev.pairOp (d : Dev) (e : Fin 72) (rd ra rb : Fin 16) (f : BitVec 64 → BitVec 64 → BitVec 64) : Dev :=
  d.instrTrap e (oddReg rd || oddReg ra || oddReg rb) 1 (fun d =>
    d.instr e (fun x => x.setPair rd (f (x.pair ra) (x.pair rb))))

/-- PADD. -/
def execPadd (e : Fin 72) (rd ra rb : Fin 16) (s : State) : Host.Outcome State Fault Refusal :=
  s.engineRuns e (.padd e rd ra rb) (
    devNext s (s.dev.pairOp e rd ra rb (· + ·)))

/-- PSUB. -/
def execPsub (e : Fin 72) (rd ra rb : Fin 16) (s : State) : Host.Outcome State Fault Refusal :=
  s.engineRuns e (.psub e rd ra rb) (
    devNext s (s.dev.pairOp e rd ra rb (· - ·)))

/-- FADD. -/
def execFadd (e : Fin 72) (rd ra rb : Fin 16) (s : State) : Host.Outcome State Fault Refusal :=
  s.engineRuns e (.fadd e rd ra rb) (
    devNext s (s.dev.pairOp e rd ra rb fpAdd))

/-- FMIN. -/
def execFmin (e : Fin 72) (rd ra rb : Fin 16) (s : State) : Host.Outcome State Fault Refusal :=
  s.engineRuns e (.fmin e rd ra rb) (
    devNext s (s.dev.pairOp e rd ra rb fpMin))

/-- FMAX. -/
def execFmax (e : Fin 72) (rd ra rb : Fin 16) (s : State) : Host.Outcome State Fault Refusal :=
  s.engineRuns e (.fmax e rd ra rb) (
    devNext s (s.dev.pairOp e rd ra rb fpMax))

/-! ### Windows, events and results -/

/-- SETWIN (R254): a role engine selects a window of its WINMASK; anything else traps. -/
def execSetwin (e : Fin 72) (imm : BitVec 34) (s : State) : Host.Outcome State Fault Refusal :=
  s.engineRuns e (.setwin e imm) (
    let x := s.dev.engs[e]
    let w := fld imm 0 4
    let may := x.isRoleEngine && (s.dev.roleCfg x.fromE.toNat 6 2).testBit w
    devNext s (s.dev.instrTrap e (!may) 6 (fun d => d.instr e (fun y => { y with window := some (BitVec.ofNat 4 w) }))))

/-- The banks of R170: the marker line at `l` has failed (R169). -/
def Dev.markerFail (d : Dev) (l : Loc) : Dev :=
  let t := locTile l
  let a := A.lost (locPort l).val (t.val % 4 * 8 + locCid l)
  ((d.setFld a (4 * locBg l + locBank l) 1 1).setFld A.retStat (16 + t.val) 1 1).raiseAttn 7

/-- What a role engine's SEND value asks for (R275, Table 10.12). -/
def Dev.service (d : Dev) (e : Fin 72) (v : Word) : Dev :=
  match fld v 40 8 with
  | 1 => { d with pwr := { d.pwr with markDone := e :: d.pwr.markDone.filter (· ≠ e) } }
  | 2 => d.markerFail (v.setWidth 37)
  | 3 => { d with pwr := { d.pwr with checkDone := e :: d.pwr.checkDone.filter (· ≠ e) } }
  | _ => d

/-- SEND of value `v` (R267, R275). -/
def Dev.sendValue (d : Dev) (e : Fin 72) (v : Word) : Dev :=
  if !d.engRuns e then d
  else if d.engs[e].isKernel then (d.modEng e (fun x => { x with run := .waiting, wait := .send v })).kernelSent e
  else ((d.modEng e (fun x => x.next)).setReg (A.reply e.val) v).service e v

/-- SEND (R267). -/
def execSend (e : Fin 72) (ra : Fin 16) (s : State) : Host.Outcome State Fault Refusal :=
  s.engineRuns e (.send e ra) (
    devNext s (s.dev.sendValue e (s.dev.engs[e].w ra)))

/-- A role engine's SEND whose value carries a service code. -/
def Dev.sendService (d : Dev) (e : Fin 72) (code : Nat) (v : Word) : Dev :=
  match d.fetched e with
  | some (.send _ ra) =>
    if d.engs[e].run = .fenced then d.dropOutput e
    else if d.engs[e].isRoleEngine && d.engs[e].w ra = put v 40 8 code then d.sendValue e (put v 40 8 code) else d
  | _ => d

/-- MARK_DONE (R275). -/
def execMarkDone (e : Fin 72) (v : Word) (s : State) : Host.Outcome State Fault Refusal := devNext s (s.dev.sendService e 1 v)

/-- MARK_FAIL (R275, R169). -/
def execMarkFail (e : Fin 72) (v : Word) (s : State) : Host.Outcome State Fault Refusal := devNext s (s.dev.sendService e 2 v)

/-- CHECK_DONE (R275). -/
def execCheckDone (e : Fin 72) (v : Word) (s : State) : Host.Outcome State Fault Refusal := devNext s (s.dev.sendService e 3 v)

/-- WAITE (R262). -/
def execWaite (e : Fin 72) (rd : Fin 16) (imm : BitVec 34) (s : State) : Host.Outcome State Fault Refusal :=
  s.engineRuns e (.waite e rd imm) (
    let mask : BitVec 16 := imm.setWidth 16
    devNext s
      (if !s.dev.engRuns e then s.dev
       else if mask = 0 then s.dev.instrW e rd (fun _ => 0)
       else s.dev.modEng e (fun x => { x with run := .waiting, wait := .event mask rd }.wakeEvent)))

/-- HALT (R267): SEND w0 in a kernel; a role engine stops. -/
def execHalt (e : Fin 72) (s : State) : Host.Outcome State Fault Refusal :=
  s.engineRuns e (.halt e) (
    devNext s
      (if !s.dev.engRuns e then s.dev
       else if s.dev.engs[e].isKernel then s.dev.sendValue e 0
       else s.dev.modEng e (fun x => { x with run := .halted })))

/-- BEAT (R270): the heartbeat timer restarts. -/
def execBeat (e : Fin 72) (s : State) : Host.Outcome State Fault Refusal :=
  s.engineRuns e (.beat e) (
    devNext s (s.dev.instr e id))

/-- TMR: a one-shot timer; zero cancels it. -/
def execTmr (e : Fin 72) (ra : Fin 16) (s : State) : Host.Outcome State Fault Refusal :=
  s.engineRuns e (.tmr e ra) (
    devNext s (s.dev.instr e (fun x => { x with tmr := decide (x.w ra ≠ 0) })))

end Sys2Proof.Machine
end

