-- ==== Sys2Proof/Machine/EngineCmds.lean ====
section
/-! DEFINITION. Pointer steps of the engines (R210, R215, R231, R261), their events, kernels, fences and restarts (R262 to
R274). -/

namespace Sys2Proof.Machine

/-! ### Pointer steps (R261) -/

/-- An LSTEP that moves no line ends at once with an outcome in rd. -/
def Dev.stepEnd (d : Dev) (e : Fin 72) (rd : Fin 16) (outcome : Nat) : Dev := d.instrW e rd (fun _ => BitVec.ofNat 48 outcome)

/-- The subchannel that a register names. -/
def stepSub (v : Word) : Fin 8 := Fin.ofNat 8 (fld v 0 3)

/-- A step that passes its location without moving a line. -/
def Dev.stepPass (q : Dev × Bool) (e : Fin 72) (rd : Fin 16) : Dev := q.1.stepEnd e rd (if q.2 then outcEnd else outcSkipped)

/-- A step takes the locks of its lines and reads them; it waits while one of them is locked, and for another step of its kind.
The engine waits for its outcome. -/
def Dev.stepGo (d : Dev) (e : Fin 72) (rd : Fin 16) (kind : JobKind) (page : Option (BitVec 32)) (lines : List (Loc × KeyUse)) : Dev :=
  if lines.any (fun x => d.lineLocked x.1) || d.jobs.any (fun j => j.kind = kind) then d
  else ((d.modEng e (fun x => { x with run := .waiting, wait := .step rd })).jobStart kind (some (e, d.engs[e].gen)) (d.engNote e)
    (masterEng e) page lines).enterQueues

/-- The location at the pointer passes the check of R254 in a LOC window. -/
def Dev.stepWindow (d : Dev) (e : Fin 72) (l : Loc) : Bool :=
  match d.winTarget e (l.setWidth 48) true false with
  | some (.loc _) => true
  | _ => false

/-- LSTEP REBUILD (R210, R261). -/
def Dev.lstepRebuild (d : Dev) (e : Fin 72) (rd ra : Fin 16) : Dev :=
  let s := stepSub (d.engs[e].w ra)
  let pr := d.prots[s]
  if !d.engIssues e then d
  else if !pr.rebuild || pr.frozen || d.subFenced s then d.stepEnd e rd 0
  else match d.sweepFrom s pr.p.toNat with
    | none => (d.rebuildEnd s).stepEnd e rd outcEnd
    | some p =>
      let here := sweepLoc s p
      if !d.stepWindow e here then d.trap e 2
      else if d.sweepSkips here then Dev.stepPass (d.rebuildAdvance s p) e rd
      else d.stepGo e rd (.rebuild s) none [(d.lineAt here, KeyUse.byLoc)]

/-- LSTEP REBUILD. -/
def execLstepRebuild (e : Fin 72) (rd ra : Fin 16) (line : Unit) (s : State) : Host.Outcome State Fault Refusal :=
  s.engineRuns e (.lstepRebuild e rd ra line) (
    devNext s (s.dev.lstepRebuild e rd ra))

/-- LSTEP SCRUB (R215, R261): during a rebuild the pointer is held, answered IDLE (log 29); at throttle level 2 it waits. -/
def Dev.lstepScrub (d : Dev) (e : Fin 72) (rd ra : Fin 16) : Dev :=
  let s := stepSub (d.engs[e].w ra)
  let pr := d.prots[s]
  if !d.engIssues e || d.throttled then d
  else if d.protCfg s 2 2 = 0 || (pr.rebuild && !pr.frozen) || d.subFenced s then d.stepEnd e rd 0
  else match d.sweepFrom s (d.fldR (A.scrub s.val) 0 34) with
    | none => ((d.setFld (A.scrub s.val) 0 34 0).bump (A.scrub s.val) 34 14).stepEnd e rd outcEnd
    | some p =>
      let here := sweepLoc s p
      if !d.stepWindow e here then d.trap e 2
      else if d.isMarkerRow here || d.sweepSkips here then Dev.stepPass (d.scrubAdvance s p) e rd
      else d.stepGo e rd (.scrub s) none [(d.lineAt here, KeyUse.byLoc)]

/-- LSTEP SCRUB. -/
def execLstepScrub (e : Fin 72) (rd ra : Fin 16) (line : Unit) (s : State) : Host.Outcome State Fault Refusal :=
  s.engineRuns e (.lstepScrub e rd ra line) (
    devNext s (s.dev.lstepScrub e rd ra))

/-- The media lines of a page by its entry: its frame, or its extent. -/
def pageMedia (en : BitVec 128) : List Nat :=
  if entState en = 1 then (List.range 64).map (fun i => entPtr en + i)
  else if entState en = 2 then (List.range (slotSum en 8)).map (fun i => entPtr en + i)
  else []

/-- A line of the region's unit `u` and the key under which a rotation writes it (R231): the epoch becomes NEW. -/
def Dev.rotateLine (d : Dev) (r u : Nat) (m : LineAddr) : Loc × KeyUse :=
  (addrMap d.cfg m, { d.keyUse r u m with epoch := BitVec.ofNat 32 (d.fldR (A.nextEpoch r) 0 32), pinned := true })

/-- The page is free for a rotation step: no write or move holds its lock, no read of it is under way, and no access is on its
way to its frame (R247). -/
def Dev.pageFree (d : Dev) (idx : BitVec 32) : Bool :=
  !d.tier.ops.any (fun o => o.idx = idx && o.phase ≠ .waitEntry && o.phase ≠ .switched) &&
    !d.txn.held.any (fun h => h.page = some idx) && !d.jobs.any (fun j => j.page = some idx)

/-- LSTEP ROTATE (R231, R261): one line of a direct region, one page of an elastic one. -/
def Dev.lstepRotate (d : Dev) (e : Fin 72) (rd ra : Fin 16) : Dev :=
  let r := fld (d.engs[e].w ra) 0 6
  if !d.engIssues e then d
  else if !d.rotating r then d.stepEnd e rd 0
  else
    let p := d.rotPtr r
    let elastic := regionElastic d.cfg r
    let at0 : LineAddr := BitVec.ofNat 42 ((regionBase d.cfg r + (if elastic then 4096 else 64) * p) / 64)
    match d.winTarget e (BitVec.ofNat 48 (addrOf at0)) true false with
    | some (.addr _) =>
      let idx := pageIdx d.cfg r at0
      if !elastic then d.stepGo e rd (.rotate (BitVec.ofNat 6 r)) none [d.rotateLine r p at0]
      else if !d.pageFree idx then d
      else match d.pmcGet idx with
        -- its entry is read first
        | none => (d.pmcMiss idx (masterEng e)).enterQueues
        | some en => d.stepGo e rd (.rotate (BitVec.ofNat 6 r)) (some idx)
            ((pageMedia en).map (fun m => d.rotateLine r p (BitVec.ofNat 42 m)))
    | _ => d.trap e 2

/-- LSTEP ROTATE. -/
def execLstepRotate (e : Fin 72) (rd ra : Fin 16) (line : Unit) (s : State) : Host.Outcome State Fault Refusal :=
  s.engineRuns e (.lstepRotate e rd ra line) (
    devNext s (s.dev.lstepRotate e rd ra))

/-! ### Events -/

/-- TMR_EXPIRE (R262). -/
def execTmrExpire (e : Fin 72) (s : State) : Host.Outcome State Fault Refusal :=
  let d := s.dev
  devNext s (if d.engs[e].tmr && d.engs[e].run ≠ .fenced then
    d.modEng e (fun x => { x with tmr := false }.setEvent 1) else d)

/-- AGE_TICK (Table 9.7, Table 10.9); a zero AGE_TICK disables it. -/
def execAgeTick (s : State) : Host.Outcome State Fault Refusal :=
  let d := s.dev
  devNext s (if d.cfgLe Sec.tiers 0x38 2 = 0 then d else d.eventWhere 4 (fun _ _ => true))

/-- A write of ENG[n].MBOX (Table 10.16): only the hub's counts. -/
def Dev.mboxWrite (d : Dev) (m : Master) (e : Fin 72) (v : Word) : Dev :=
  if m ≠ .hub then d
  else
    let d1 := d.setReg (A.mbox e.val) v
    d1.eventWhere 0 (fun i _ => i = e)

/-- MBOX (R262). -/
def execMbox (m : Master) (e : Fin 72) (v : Word) (s : State) : Host.Outcome State Fault Refusal :=
  devNext s (s.dev.mboxWrite m e v)

/-! ### Kernels -/

/-- The engine takes kernels: in the pool and in service. -/
def Dev.inPool (d : Dev) (e : Fin 72) : Bool := d.engs[e].isKernel && d.engs[e].inService

/-- The lowest-numbered idle kernel-pool engine that holds the image of an invocation (R267); a re-run goes to the spare that
took over (R273), while that one is in service. -/
def Dev.idleFor (d : Dev) (i : Inv) : Option (Fin 72) :=
  let idle := fun (e : Fin 72) =>
    d.inPool e && d.engs[e].run = .idle && d.engs[e].image = BitVec.ofNat 4 (d.kernCfg i.kidx.toNat 1 1)
  match i.onE with
  | some sp => if d.inPool sp then (if idle sp then some sp else none) else allEngs.find? idle
  | none => allEngs.find? idle

/-- The registers of an invocation at dispatch (R267). -/
def invRegs (i : Inv) : Vector Word 16 :=
  #v[0, BitVec.ofNat 48 (addrOf i.line), i.length.setWidth 48, i.kidx.setWidth 48, i.tag.setWidth 48, i.src.setWidth 48,
     0, 0, 0, 0, 0, 0, 0, 0, 0, 0]

/-- The engine takes an invocation (R267): its accesses from before are no longer its own; with ARGLINE it waits until slot 0
holds the argument line. -/
def Engine.takeKernel (x : Engine) (i : Inv) (entry prot : Nat) (argline : Bool) : Engine :=
  { x.wipeData prot with
    run := if argline then .waiting else .running, wait := if argline then .start else .none, pc := BitVec.ofNat 12 entry,
    regs := invRegs i, window := some i.window, inv := some { i with pf := false, onE := none }, stat := [], ended := [],
    busy := if argline then 1 else 0, gen := x.gen + 1 }

/-- The oldest dispatchable OPK goes to its engine (R267). -/
def Dev.dispatch (d : Dev) : Dev :=
  if d.flt.fatal || !d.engPower || d.throttled || within 1 4 d.rst.step then d
  else match d.kq.find? (fun i => (d.idleFor i).isSome) with
    | none => d
    | some i =>
      match d.idleFor i with
      | none => d
      | some e =>
        let k := i.kidx.toNat
        let d1 := { d with kq := dropFirst (· = i) d.kq }.modEng e (fun x =>
          x.takeKernel i (d.kernCfg k 2 2) (d.protWords e) (d.kernFlag k 2))
        let d2 := (d1.bump (A.engCount e.val) 24 24).bump A.kqueue 0 24
        if d.kernFlag k 2 then d2.engIssue e (.addr i.line) .rd (.slot e 0 d2.engs[e].gen) else d2

/-- KERNEL_DISPATCH (R267). -/
def execKernelDispatch (_line : Unit) (s : State) : Host.Outcome State Fault Refusal := devNext s s.dev.dispatch

/-- KERNEL_BUDGET_EXCEEDED (R264, R268). -/
def execKernelBudgetExceeded (e : Fin 72) (s : State) : Host.Outcome State Fault Refusal :=
  let d := s.dev
  devNext s (match d.engs[e].inv with
    | some i =>
      if d.kernCfg i.kidx.toNat 0x0C 4 ≠ 0 && d.engs[e].run ≠ .fenced && d.engs[e].wait ≠ .start then d.trap e 4 else d
    | none => d)

/-! ### Heartbeats, fences, restarts -/

/-- The heartbeat timer runs (R270): the engine executes or waits for something other than an event. -/
def Engine.beats (x : Engine) : Bool :=
  x.run = .running || (x.run = .waiting && (match x.wait with | .event _ _ => false | .start => false | _ => true))

/-- HEARTBEAT_MISS (R270, R271). -/
def execHeartbeatMiss (e : Fin 72) (s : State) : Host.Outcome State Fault Refusal :=
  let d := s.dev
  devNext s (if d.roleCfg d.engs[e].fromE.toNat 8 2 ≠ 0 && d.engs[e].beats then d.engineFenced e 1 else d)

/-- A write of ENG[n].CTL (Table 10.15): it counts only from an MWR. -/
def Dev.engCtlWrite (d : Dev) (m : Master) (e : Fin 72) (v : Word) : Dev :=
  if m ≠ .hub then d
  else if bit v 1 then d.engineFenced e 3
  else if bit v 0 && d.engs[e].run = .halted && d.engs[e].isRoleEngine && !d.flt.fatal then d.startRole e 1 0
  else d

/-- ENGINE_FENCE (R271). -/
def execEngineFence (m : Master) (e : Fin 72) (v : Word) (s : State) : Host.Outcome State Fault Refusal :=
  devNext s (s.dev.engCtlWrite m e (putBit v 1 true))

/-- ENGINE_RESTART (R265). -/
def execEngineRestart (m : Master) (e : Fin 72) (v : Word) (s : State) : Host.Outcome State Fault Refusal :=
  devNext s (s.dev.engCtlWrite m e (putBit v 0 true))

end Sys2Proof.Machine
end

