-- ==== Sys2Proof/Machine/FaultCmds.lean ====
section
/-! DEFINITION. The commands of the fault collectors and of Sillage (R280 to R297). -/

namespace Sys2Proof.Machine

/-! ### Occurrences -/

/-- An occurrence: its source, what it reports, whether its pair stays at fault, and the collectors that see it. -/
structure Occ where
  src : Nat
  r : Report
  level : Bool
  inA : Bool
  inB : Bool
deriving DecidableEq, Repr

/-- A grade (R283, R284): severity, promoted, escalated, counted. -/
abbrev Grade := Nat × Bool × Bool × Bool

/-- Order of R287: higher severities first, then lower sources. -/
def insertGraded (e : Occ × Grade) : List (Occ × Grade) → List (Occ × Grade)
  | [] => [e]
  | x :: r => if x.2.1 < e.2.1 then e :: x :: r else x :: insertGraded e r

/-- Occurrences of one cycle: all are graded from the state at its start, so that none escalates another (R284), and recorded
in the order of R287. -/
def Dev.faultSet (d : Dev) (l : List Occ) : Dev :=
  let graded := l.map (fun (o : Occ) => (o, d.gradeSev o.src o.r.event.toNat))
  Dev.each (fun (e : Occ × Grade) x =>
    let q := x.recordGraded e.1.src e.1.r e.1.level e.1.inA e.1.inB e.2
    q.1.react Dev.fault e.1.src e.1.r q.2) (graded.foldl (fun acc e => insertGraded e acc) []) d

/-- The unit of a source as a COORD (Tables 1.5 and 11.2); what a report about the unit as a whole does not have (a rank, a
position, a layer, a lane) is zero (R20, log 57). -/
def srcCoord (s : Nat) : BitVec 16 :=
  if s ≤ 71 then coordEng s
  else if s ≤ 87 then coordMem (Fin.ofNat 8 (s % 8)) 0 0 0
  else if s ≤ 95 then coordCtl 0x06 (s % 8)
  else if s ≤ 103 then coordCtl 0x0B (s % 8)
  else if s ≤ 111 then coordCtl 0x0A (s % 8)
  else if s ≤ 115 then coordCtl 0x04 (s % 4)
  else if s ≤ 119 then coordMem (Fin.ofNat 8 (2 * (s % 4))) 0 0 0
  else if s ≤ 123 then coordCtl 0x08 (s % 4)
  else if s = 125 then coordLane .rx 0
  else if s = 126 then coordLane .tx 0
  else if s = 127 then coordCtl 0x03 0
  else if within 153 156 s then coordCtl 0x04 (s - 153)
  else if s = 158 then coordCtl 0x0B 8
  else if s = 160 then coordCtl 0x0D 1
  else if s = 161 then coordCtl 0x01 0
  else 0

/-- A report about a unit as a whole. -/
def unitReport (s ev : Nat) : Report :=
  { event := BitVec.ofNat 8 ev, addr := 0, akind := 0, coord := srcCoord s, master := none, access := 0 }

/-- A collector sees an occurrence: of a level source, when its pair changes from quiet to fault (R280). -/
def sees (level sampled present : Bool) : Bool := sampled && !(level && present)

/-- An uncorrectable ECC error of an engine's memories fences it, whatever the source's configuration (R249, R271). -/
def Dev.eccFence (d : Dev) (src ev : Nat) : Dev :=
  if src ≤ 71 && ev = 5 then d.engineFenced (Fin.ofNat 72 src) 2 else d

/-- FAULT_OCCURRENCE (R280, R282, R283): reserved sources never report (R279). -/
def execFaultOccurrence (src : Fin 192) (r : Report) (level inA inB : Bool) (s : State) :
    Host.Outcome State Fault Refusal :=
  let d := s.dev
  let x := d.srcAt src.val
  devNext s (if d.on && src.val ≤ 161 then
    (d.faultFrom src.val r level (sees level inA x.presA) (sees level inB x.presB)).eccFence src.val r.event.toNat else d)

/-- The pair of a source becomes invalid (R281): one occurrence per entry, whatever the source's configuration. -/
def Dev.pathFault (d : Dev) (src : Nat) : Dev :=
  if (d.srcAt src).pathBad then d
  else (d.setSrc src { d.srcAt src with pathBad := true }).faultFrom src (unitReport src 255) true true true

/-- PATH (R281). -/
def execPath (src : Fin 192) (s : State) : Host.Outcome State Fault Refusal :=
  devNext s (if s.dev.on && src.val ≤ 161 then s.dev.pathFault src.val else s.dev)

/-- The collectors disagree about a source. -/
def Src.differs (x : Src) : Bool := x.pendA != x.pendB || x.presA != x.presB || x.sevA != x.sevB

/-- DISAGREE (R282). -/
def execDisagree (s : State) : Host.Outcome State Fault Refusal :=
  let d := s.dev
  devNext s (if d.flt.src.any (fun e => e.2.differs) then
    (d.bump A.cmp 0 16).fault 160 (unitReport 160 1) else d)

/-- FAULT_WINDOW_END (R283): WCOUNT returns to zero; a source with WINDOW zero has no end. -/
def execFaultWindowEnd (src : Fin 192) (s : State) : Host.Outcome State Fault Refusal :=
  let d := s.dev
  let x := d.srcAt src.val
  devNext s (if x.window then d.setSrc src.val { x with window := false, wcount := 0 } else d)

/-- SOURCE_QUIET (R280, R281). -/
def execSourceQuiet (src : Fin 192) (s : State) : Host.Outcome State Fault Refusal :=
  let d := s.dev
  devNext s (d.setSrc src.val { d.srcAt src.val with presA := false, presB := false, pathBad := false, cur := none })

/-- WEDGED (R294): a zero WEDGE_US disables the watchdog; a source without the event has none. -/
def execWedged (src : Fin 192) (s : State) : Host.Outcome State Fault Refusal :=
  let d := s.dev
  devNext s (match wedgedEvent src.val with
    | some ev =>
      if d.applied && d.cfgLe Sec.faults 4 4 ≠ 0 then d.fault src.val (unitReport src.val ev) else d
    | none => d)

/-! ### Clears (R287, R288) -/

/-- Clear one source in both collectors, with its CLEAR record. -/
def Dev.clearSrc (d : Dev) (src : Nat) : Dev :=
  let x := d.srcAt src
  if x.pend then
    (d.setSrc src { x with pendA := false, pendB := false, sevA := 0, sevB := 0, count := 0, pathPend := false, rcd := none,
                           stale := x.stale || x.rcd.isSome }).sillPush 2 0 src (pack [(45, x.sev)])
  else d

/-- The sources of a clear that are still present report again in the next cycle, together (R288). -/
def Dev.reReport (d : Dev) (srcs : List Nat) : Dev :=
  d.faultSet (srcs.filterMap (fun i =>
    let x := d.srcAt i
    if x.pres then x.cur.map (fun r => ({ src := i, r := r, level := true, inA := x.presA, inB := x.presB } : Occ)) else none))

/-- A write of FAULT[0].PENDINGk (R288): it counts only from an MWR on VC M. -/
def Dev.pendingWrite (d : Dev) (m : Master) (k : Nat) (v : Word) : Dev :=
  if m = .hub then
    let srcs := ((List.range 48).filter (fun b => bit v b && (d.srcAt (48 * k + b)).pend)).map (fun b => 48 * k + b)
    (Dev.each (fun i x => x.clearSrc i) srcs d).reReport srcs
  else d

/-- PENDING_CLEAR (R288). -/
def execPendingClear (m : Master) (k : Fin 4) (v : Word) (s : State) : Host.Outcome State Fault Refusal :=
  devNext s (s.dev.pendingWrite m k.val v)

/-- A write of FAULT[0].FIRST (R287, R288). -/
def Dev.firstWrite (d : Dev) (m : Master) (v : Word) : Dev :=
  if m = .hub && bit v 8 then { d with flt := { d.flt with first := none } } else d

/-- FIRST_CLEAR (R287). -/
def execFirstClear (m : Master) (v : Word) (s : State) : Host.Outcome State Fault Refusal :=
  devNext s (s.dev.firstWrite m v)

/-! ### Sillage (R296, R297) -/

/-- A tick of the REFCLK count (R296): at the wrap a TIMEWRAP record is queued. -/
def Dev.refTick (d : Dev) : Dev :=
  let d1 := { d with sill := { d.sill with time := d.sill.time + 1 } }
  if d1.sill.time = 0 then d1.sillPush 12 0 0 0 else d1

/-- An OVERFLOW record carries the count at its writing (R296). -/
def sillStamp (time : Word) (r : BitVec 128) : BitVec 128 :=
  if slotField r 79 72 = 11 then time ++ r.extractLsb' 0 80 else r

/-- Write one record at NEXT (R297); FROZEN is set at the end of a freeze's countdown. -/
def Sill.writeRec (x : Sill) (r : BitVec 128) : Sill :=
  let nxt := x.next + 1
  { x with
    ring := sset (0 : BitVec 128) x.ring x.next.toNat (sillStamp x.time r), next := nxt,
    wraps := if nxt = 0 then BitVec.ofNat 16 (satAdd 16 x.wraps.toNat 1) else x.wraps,
    countdown := match x.countdown with
      | some n => if n ≤ 1 then none else some (n - 1)
      | none => none,
    frozen := x.frozen || (match x.countdown with
      | some n => n ≤ 1
      | none => false) }

/-- At most one record enters the ring (R297); records lost are told by an OVERFLOW record as soon as there is room. -/
def Sill.write (x : Sill) : Sill :=
  let x1 := match x.queue, x.frozen with
    | r :: q, false => { x with queue := q }.writeRec r
    | _, _ => x
  if x1.lostNow ≠ 0 && x1.queue.length < 32 then
    { x1 with queue := x1.queue ++ [sillRec x1.time 11 0 0 (BitVec.ofNat 48 (min x1.lostNow 0xFFFF))], lostNow := 0 }
  else x1

/-- SILLAGE_WRITE (R297): one REFCLK tick; Caldera runs after a thermal trip (R363). -/
def execSillageWrite (s : State) : Host.Outcome State Fault Refusal :=
  let d := s.dev.refTick
  .next (if s.dev.on then { s with dev := { d with sill := d.sill.write } } else s)

/-- TIMEWRAP (R296): the tick at which the count wraps. -/
def execTimewrap (s : State) : Host.Outcome State Fault Refusal :=
  .next (if s.dev.on && s.dev.sill.time = ~~~ 0 then { s with dev := s.dev.refTick } else s)

/-- The record at `i` as SILL.DATA0 to DATA2 hold it. -/
def Dev.sillLatch (d : Dev) (i : Nat) : Dev :=
  let r := sget (0 : BitVec 128) d.sill.ring i
  ((d.setReg (A.sillData 0) (r.extractLsb' 0 48)).setReg (A.sillData 1) (r.extractLsb' 48 48)).setReg (A.sillData 2)
    ((r.extractLsb' 96 32).setWidth 48)

/-- A write of SILL.CTL: RESUME, then INDEX latches its record (R297). -/
def Dev.sillCtlWrite (d : Dev) (v : Word) : Dev :=
  let d1 := if bit v 12 then { d with sill := { d.sill with frozen := false, countdown := none } } else d
  (d1.setFld A.sillCtl 0 12 (fld v 0 12)).sillLatch (fld v 0 12)

/-- SILLAGE_RESUME (R297). -/
def execSillageResume (_m : Master) (v : Word) (s : State) : Host.Outcome State Fault Refusal :=
  devNext s (s.dev.sillCtlWrite (putBit v 12 true))

/-- SILLAGE_LATCH (R297). -/
def execSillageLatch (_m : Master) (v : Word) (s : State) : Host.Outcome State Fault Refusal :=
  devNext s (s.dev.sillCtlWrite (putBit v 12 false))

end Sys2Proof.Machine
end

