-- ==== Sys2Proof/Machine/LoaderOps.lean ====
section
/-! DEFINITION. The Accord loader's checks (R28 to R40), budget sums (R47) and commit groups (R52 to R56). -/

namespace Sys2Proof.Machine

/-! ### Reading an image -/

/-- `n` bytes from address `a` of a sparse memory whose entries below `a` are gone. -/
def fillRun (dflt : Byte) : Memory → Nat → Nat → List Byte
  | _, _, 0 => []
  | [], a, n + 1 => dflt :: fillRun dflt [] (a + 1) n
  | (k, v) :: r, a, n + 1 =>
    if k = a then v :: fillRun dflt r (a + 1) n else dflt :: fillRun dflt ((k, v) :: r) (a + 1) n

/-- `n` bytes from address `a`. -/
def memSlice (dflt : Byte) (m : Memory) (a n : Nat) : List Byte :=
  fillRun dflt (m.filter (fun c => a ≤ c.1 && c.1 < a + n)) a n

def slice (b : List Byte) (off n : Nat) : List Byte := (b.drop off).take n

/-- A little-endian field of an image (R28). -/
def imgLe (b : List Byte) (off n : Nat) : Nat := leNat (slice b off n)

/-! ### The checks of R40 -/

/-- Keys that the life-cycle state accepts (Table 2.4), provisioned and not revoked (R37). -/
def Fuses.signerOk (f : Fuses) (k : Nat) : Bool :=
  (match f.state with
    | 0 => k ≤ 3
    | 1 => k ≤ 7
    | 2 => within 4 7 k
    | 3 => k ≤ 3
    | _ => false) && k < 8 && f.usable (Fin.ofNat 8 k)

/-- LIFECYCLE: no Accord loads (R342, R343). -/
def Fuses.noLoad (f : Fuses) : Bool := f.state = 4 || f.zeroising

/-- "ACRD". -/
def accordMagic : List Byte := [0x41, 0x43, 0x52, 0x44]

/-- The checks that need the first 64 bytes alone, up to COUNT. -/
def headCode (h : List Byte) : Option Nat :=
  let total := imgLe h 0x0C 4
  if h.take 4 ≠ accordMagic then some 1
  else if imgLe h 4 2 ≠ 1 then some 2
  else if 4194304 < total || total < 384 || total % 4 ≠ 0 then some 3
  else if imgLe h 0x0A 2 ≠ 18 then some 4
  else none

/-- The checks of the key, the signature and the rest of the header. -/
def signCode (f : Fuses) (img : List Byte) : Option Nat :=
  let total := imgLe img 0x0C 4
  let t := slice img (total - 104) 104
  let k := imgLe t 0 1
  let h := img.take 64
  if !f.signerOk k then some 5
  else if !ecdsaVerify f.keys[Fin.ofNat 8 k] (sha384 h) (beNat (slice t 0x08 48)) (beNat (slice t 0x38 48)) then some 6
  else if imgLe h 6 2 ≠ 0xAB48 then some 7
  else if imgLe h 8 1 ≠ 0 && (imgLe h 8 1 ≠ Config.stepMajor.toNat || Config.stepMinor.toNat < imgLe h 9 1) then some 8
  else if imgLe h 0x10 2 < f.floor.toNat then some 9
  else none

/-- Table 2.2: the lengths a section may have. -/
def lengthOk (ty len : Nat) : Bool :=
  len % 4 = 0 && (match ty with
    | 0x02 => len = 64
    | 0x03 => len = 64
    | 0x04 => len = 1056
    | 0x05 => len = 512
    | 0x06 => len = 2048
    | 0x07 => len = 256
    | 0x08 => len = 256
    | 0x09 => len = 256
    | 0x0A => len = 512
    | 0x0B => len = 128
    | 0x0D => len = 1600
    | 0x0E => len = 256
    | 0x0F => len = 128
    | 0x10 => len = 0 || len = 4096
    | 0x11 => len = 512
    | 0x12 => len = 32
    | _ => true)

/-- R35: the code of the binding check, zero when it passes; outside the framing that the loader checks it is free. -/
def bindCode (f : Fuses) (p : List Byte) : Nat :=
  let u := imgLe p 0x10 4
  if 64 < u || p.length ≠ 24 + 16 * u then Config.freeNat (u * 2 ^ 32 + p.length) % 18
  else if u = 0 || (List.range u).any (fun n => imgLe p (0x18 + 16 * n) 12 = f.uid.toNat) then 0
  else 14

/-- The configuration store's entries of a payload: its non-zero bytes. -/
def storeOf (ty : Nat) (p : List Byte) : Memory :=
  (p.zipIdx.filter (fun e => e.1 ≠ 0)).map (fun e => (cfgKey ty e.2, e.1))

/-- One section at `off`: its code, or the offset after it and its store. Bits of a section that the spec reserves are
unpredictable unless they are zero (R7): the model never looks at them (DESIGN CHOICE, log 87). -/
def sectionAt (f : Fuses) (img : List Byte) (ty off : Nat) : Except Nat (Nat × Memory) :=
  let fit := imgLe img 0x0C 4 - 104
  let sh := slice img off 12
  let len := imgLe sh 4 4
  if fit < off + 12 then .error 3
  else if imgLe sh 0 2 ≠ ty then .error 10
  else if imgLe sh 2 1 ≠ 1 then .error 11
  else if len = 0 && ty ≠ 0x10 then .error 12
  else if !lengthOk ty len then .error 3
  else if fit < off + 12 + len then .error 3
  else
    let p := slice img (off + 12) len
    if crc32c p ≠ imgLe sh 8 4 then .error 13
    else if ty = 1 && bindCode f p ≠ 0 then .error (bindCode f p)
    else .ok (off + 12 + len, storeOf ty p)

/-- The sections in ascending order (R32). -/
def sectionsFrom (f : Fuses) (img : List Byte) : List Nat → Nat → Memory → Except Nat (Nat × Memory)
  | [], off, acc => .ok (off, acc)
  | ty :: r, off, acc =>
    match sectionAt f img ty off with
    | .error c => .error c
    | .ok (o, st) => sectionsFrom f img r o (acc ++ st)

/-- The whole image, its header checked (R40). -/
def imageVerdict (f : Fuses) (img : List Byte) : Verdict :=
  match signCode f img with
  | some c => .fail (BitVec.ofNat 8 c)
  | none =>
    match sectionsFrom f img ((List.range 18).map (· + 1)) 64 [] with
    | .error c => .fail (BitVec.ofNat 8 c)
    | .ok (off, cfg) =>
      if off + 104 ≠ imgLe img 0x0C 4 then .fail 3
      else if sha384First32 (slice img 64 (off - 64)) ≠ beNat (slice img 0x20 32) then .fail 15
      else .ok cfg (BitVec.ofNat 64 (imgLe img 0x18 8)) (BitVec.ofNat 16 (imgLe img 0x10 2))

/-- The verdict on the bytes read so far; none while more are needed. -/
def loadVerdict (f : Fuses) (b : List Byte) : Option Verdict :=
  if f.noLoad then some (.fail 17)
  else if b.length < 64 then none
  else match headCode b with
    | some c => some (.fail (BitVec.ofNat 8 c))
    | none =>
      let total := imgLe b 0x0C 4
      if b.length < total then none else some (imageVerdict f (b.take total))

/-- The verdict on a flash slot; a flash whose SFDP does not declare what R346 asks fails with MAGIC. -/
def flashCheck (f : Fuses) (sfdp : Bool) (img : List Byte) : Option Verdict :=
  if sfdp || f.noLoad then loadVerdict f img else some (.fail 1)

/-- Flash byte of an Accord slot. -/
def accordSlot (k : Bool) : Nat := if k then 0x400000 else 0

/-- The image in a flash slot: its header, then TOTAL_LENGTH bytes when that is in range. -/
def flashImage (m : Memory) (k : Bool) : List Byte :=
  let h := memSlice flashErased m (accordSlot k) 64
  match headCode h with
  | some _ => h
  | none => memSlice flashErased m (accordSlot k) (imgLe h 0x0C 4)

/-! ### Budgets (R47, R48) -/

/-- S(p) of the live note table; zero for an unpopulated port. -/
def Dev.budgetAt (d : Dev) (p : Fin 4) : Nat :=
  if (portTiles p).any (fun t => d.present t) then (allNotes.map (fun n => d.noteBudget (BitVec.ofFin n) p)).foldl (· + ·) 0
  else 0

/-- BUDGET_SUM and OVERSUB from the live note table. -/
def Dev.budgetSums (d : Dev) : Dev :=
  let sums := allPorts.map d.budgetAt
  (d.setReg A.budgetSum (pack (sums.zipIdx.map (fun e => (12 * e.2, e.1))))).setFld A.accStatus 28 4
    (bitsOf (sums.map (fun v => decide (768 < v))))

/-! ### Commit groups (R52 to R56) -/

/-- Instances of a group (Table 2.6). -/
def groupSize (g : Nat) : Nat := if g = 2 || g = 4 then 4 else if g = 3 then 16 else 1

/-- A write of a register that holds CG fields (R53, R54). -/
def Dev.cgWrite (d : Dev) (a : Nat) (v : Word) : Dev :=
  match regSpec a with
  | none => d
  | some sp =>
    if sp.cg = 0 then d
    else
      let g := grpNo sp.grp
      if d.cg[g].isPend sp.inst then d.setFld (A.cgState sp.grp) 40 1 1
      else
        let old := (kvGet d.shadow a).getD (d.reg a)
        { d.modCg g (fun x => { x with opened := putBit x.opened sp.inst true }) with
          shadow := kvSet d.shadow a ((old &&& ~~~ sp.cg) ||| (v &&& sp.cg)) }

/-- Commit or abort one instance (R53, R54). -/
def Dev.cgCommitOne (d : Dev) (g : Nat) (abort : Bool) (i : Nat) : Dev :=
  let x := d.cg[grpNo g]
  if x.isPend i then d
  else if abort then
    if x.isOpen i then (d.cgDrop g i).modCg (grpNo g) (fun y => { y with opened := putBit y.opened i false }) else d
  else if x.isOpen i then
    d.modCg (grpNo g) (fun y => { y with opened := putBit y.opened i false, pend := putBit y.pend i true })
  else d.modCg (grpNo g) (fun y => { y with emptyCommit := i :: y.emptyCommit })

/-- A write of ACCORD.CG_COMMIT (Table 2.14). -/
def Dev.cgCommitWrite (d : Dev) (v : Word) : Dev :=
  let g := fld v 0 8
  if d.fldR A.accStatus 20 4 ≠ 2 || !within 1 8 g then d
  else
    let n := groupSize g
    let insts := if bit v 15 then List.range n else if fld v 8 7 < n then [fld v 8 7] else []
    Dev.each (fun i x => x.cgCommitOne g (bit v 16) i) insts d

/-- What a landing brings with it: budgets (R48), trims (R192), new QOS windows (R147). -/
def Dev.cgLanded (d : Dev) (g i : Nat) : Dev :=
  match g with
  | 1 => d.budgetSums
  | 4 => (d.trimSet (Fin.ofNat 4 i) 0).trimSet (Fin.ofNat 4 i) 1
  | 8 => { d with qos := Vector.replicate 16 (0, false) }
  | _ => d

/-- No landing during a calibration pause of the port (R193). -/
def Dev.cgPaused (d : Dev) (g i : Nat) : Bool :=
  match g with
  | 2 => (d.cals[Fin.ofNat 4 i]).pause
  | 4 => (d.cals[Fin.ofNat 4 i]).pause
  | 3 => (d.cals[tilePort (Fin.ofNat 16 i)]).pause
  | _ => false

/-- A queued request of the port that can issue: its tile is in service and the Adroth not in FATAL (R52). -/
def Dev.portIssues (d : Dev) (p : Fin 4) : Bool :=
  !d.flt.fatal && ((d.ports[p]).rdq.any (fun r => d.ready (locTile r.loc)) || (d.ports[p]).wrq.any (fun w => d.ready (locTile w.loc)))

/-- No command at the port's subchannels for 100 ns, 2880 root PLL periods, and no read in flight. -/
def Dev.portSilent (d : Dev) (p : Fin 4) : Bool :=
  (portSubs p).all (fun s => (d.phys[s]).inflight = [] && ((d.phys[s]).lastCmd.isNone || (d.phys[s]).lastAt + 2880 ≤ d.now p))

/-- The IDLE boundary of R52: the port holds no queued request and has been silent, or it is in self-refresh. In a hold, what
cannot issue does not count. -/
def Dev.portIdle (d : Dev) (g : Nat) (p : Fin 4) : Bool :=
  let x := d.ports[p]
  x.sr = .sre || x.sr = .stopped ||
    (d.portSilent p && ((x.rdq = [] && x.wrq = []) || (d.cg[grpNo g].hold.getLsbD p.val && !d.portIssues p)))

/-- The instance's boundary has come (R52): IDLE for ports; for a tile's delays only where no refresh command will come, since
the others land after their refresh command or self-refresh exit (`Dev.delayLand`). -/
def Dev.cgBoundary (d : Dev) (g i : Nat) : Bool :=
  if g = 2 || g = 4 then d.portIdle g (Fin.ofNat 4 i)
  else if g = 3 then
    let t : Fin 16 := Fin.ofNat 16 i
    !d.present t || ((d.tiles[t]).inSr && d.subFenced (tileSub t))
  else true

/-- An instance lands at its boundary (R53, R54); a commit of a following instance counts and lands nothing. -/
def Dev.cgLand (d : Dev) (g i : Nat) : Dev :=
  let x := d.cg[grpNo g]
  if x.waits i = 0 || d.cgPaused g i || !d.cgBoundary g i then d
  else
    let d1 := d.cgLandSet g i
    (if x.isPend i then d1.cgLanded g i else d1).enterQueues

/-- Some instance is open or pending (R318). -/
def Dev.cgBusy (d : Dev) : Bool := d.cg.any (fun x => x.opened ≠ 0 || x.pend ≠ 0)

end Sys2Proof.Machine
end

