-- ==== Sys2Proof/Machine/Accord.lean ====
section
/-! DEFINITION. The commands of the Accord: loading (R38 to R43), the apply step (R50, R59, R177, R186), pushes (R39) and
commit groups (R52 to R56). -/

namespace Sys2Proof.Machine

/-! ### Load attempts -/

/-- BOOTSEL as last sampled; the reserved 11 acts as one of the others (R6): a free choice. -/
def Dev.bootsel (d : Dev) : Nat :=
  let b := d.fldR A.lc 4 2
  if b = 3 then Config.freeNat 3 % 3 else b

/-- R369: what the start of a load attempt changes. -/
def Dev.attemptStart (d : Dev) : Dev :=
  let a := A.accStatus
  (((((((d.setFld a 20 4 1).setFld a 24 3 0).setFld a 27 1 0).setFld a 28 4 0).setReg A.buildLo 0).setReg A.buildHi 0).setFld
    A.secver 0 16 0).setReg A.budgetSum 0

/-- An attempt on a flash slot starts (R38). -/
def State.flashAttempt (s : State) (slot second : Bool) (first : BitVec 8) : State :=
  let l : Loader :=
    { Loader.idle with active := true, src := 1, slot := slot, second := second, firstCode := first,
                       verdict := flashCheck s.fuses s.dev.side.flashOk (flashImage s.flash slot) }
  { s with dev := { s.dev.attemptStart with loader := l } }

/-- An attempt that waits for a push starts (R38, R369): in a life cycle that loads nothing it fails before it reads (R40). -/
def State.pushAttempt (s : State) (src : BitVec 3) (opened : Bool) : State :=
  let l : Loader := { Loader.idle with active := true, src := src, pushOpen := opened, verdict := loadVerdict s.fuses [] }
  { s with dev := { s.dev.attemptStart with loader := l } }

/-- The loader starts: on the preferred flash slot, or on a push that is to come, source 2 VC M, 3 I3C (R38, R39, R345). -/
def State.loaderStart (s : State) : State :=
  let b := s.dev.bootsel
  if b = 0 then s.flashAttempt (bit (s.dev.reg A.bootSlot) 0) false 0 else s.pushAttempt (BitVec.ofNat 3 (b + 1)) false

/-- Sillage ACCORD record (Table 11.4), from the status registers. -/
def Dev.sillAccord (d : Dev) : Dev :=
  let st := d.reg A.accStatus
  d.sillPush 8 0 0 (pack [(16, fld (d.reg A.buildLo) 0 32), (12, fld st 20 4), (11, fld st 27 1), (8, fld st 24 3),
    (0, fld st 32 8)])

/-- ACCORD_AUTH (Table 11.2): a slot or push failed with code 5, 6 or 9. -/
def Dev.accordAuth (d : Dev) (code : BitVec 8) : Dev :=
  if code = 5 || code = 6 || code = 9 then
    d.fault 128 { event := 3, addr := 0, akind := 0, coord := 0, master := none, access := 0 }
  else d

/-- The no-Accord state (R42). -/
def Dev.enterNoAccord (d : Dev) : Dev :=
  let d1 := (d.setFld A.accStatus 20 4 3).sillAccord
  let d2 := { d1.raiseAttn 11 with noAccord := true, loader := .idle, cfg := [], applied := false }
  if d.rst.step = 5 then
    let d3 := { d2 with rst := { d2.rst with step := 0 } }
    if d.link.st = .down then d3.startTraining 3 else d3
  else d2

/-- An attempt ends with a code (R38, R40): the other flash slot is tried, or no Accord can be applied. -/
def State.loadFail (s : State) (code : BitVec 8) : State :=
  let l := s.dev.loader
  let d := s.dev.accordAuth code
  if l.src = 1 && !l.second then
    ({ s with dev := (d.setFld A.accStatus 32 8 code.toNat).setFld A.accStatus 40 8 0 }).flashAttempt (!l.slot) true code
  else if l.src = 1 then
    { s with dev := (d.setFld A.accStatus 40 8 code.toNat).enterNoAccord }
  else { s with dev := ((d.setFld A.accStatus 32 8 code.toNat).setFld A.accStatus 40 8 0).enterNoAccord }

/-- ACCORD_LOAD_FAIL (R40). -/
def execAccordLoadFail (s : State) : Host.Outcome State Fault Refusal :=
  stNext s (match s.dev.loader.verdict with
    | some (.fail c) => if s.dev.loader.active then s.loadFail c else s
    | _ => s)

/-- SOURCE_TIMEOUT (R39). -/
def execSourceTimeout (s : State) : Host.Outcome State Fault Refusal :=
  stNext s (if s.dev.loader.pushOpen && s.dev.loader.verdict.isNone then s.loadFail 16 else s)

/-- FLASH_TIMEOUT (R40): where the life cycle lets no Accord load, the attempt has failed before it reads. -/
def execFlashTimeout (s : State) : Host.Outcome State Fault Refusal :=
  stNext s (if s.dev.loader.active && s.dev.loader.src = 1 && !s.fuses.noLoad then s.loadFail 16 else s)

/-! ### Pushes -/

/-- PUSH_CTL.READY (R39, R42): the loader waits for a push. -/
def Dev.pushReady (d : Dev) : Bool :=
  let l := d.loader
  d.on && (if l.active then l.src ≠ 1 && !l.pushOpen && l.verdict.isNone else d.noAccord)

/-- A push opens (R39, R345): source 2 is VC M, 3 is I3C; the other than the selected one only in the no-Accord state. -/
def State.pushOpen (s : State) (src : BitVec 3) : State :=
  let d := s.dev
  let selected := d.noAccord || d.bootsel = (if src = 2 then 1 else 2)
  if d.pushReady && selected then s.pushAttempt src true else s

/-- Image bytes append to the open push of source `src`; those beyond the image are discarded (R39). -/
def State.pushBytes (s : State) (src : BitVec 3) (bs : List Byte) : State :=
  let l := s.dev.loader
  if l.pushOpen && l.src = src && l.verdict.isNone then
    let b := l.push ++ bs
    { s with dev := { s.dev with loader := { l with push := b, verdict := loadVerdict s.fuses b } } }
  else s

/-- A write of ACCORD.PUSH_CTL. -/
def State.pushCtlWrite (s : State) (v : Word) : State := if bit v 0 then s.pushOpen 2 else s

/-- A write of an ACCORD.PUSH_DATA register: six bytes, [7:0] first. -/
def State.pushDataWrite (s : State) (v : Word) : State := s.pushBytes 2 (leBytes 6 v.toNat)

/-- PUSH_START (R39). -/
def execPushStart (_m : Master) (v : Word) (s : State) : Host.Outcome State Fault Refusal := stNext s (s.pushCtlWrite v)

/-- PUSH_DATA (R39). -/
def execPushData (_m : Master) (v : Word) (s : State) : Host.Outcome State Fault Refusal := stNext s (s.pushDataWrite v)

/-! ### The apply step: live values that sections set -/

def Dev.noteCfg (d : Dev) (n off len : Nat) : Nat := d.cfgLe Sec.notes (16 * n + off) len

/-- PRIO of a note entry; a reserved value is one of the three levels, which one is free (Table 5.5). -/
def Dev.notePrioCfg (d : Dev) (n : Nat) : Nat :=
  let v := d.noteCfg n 0 1
  if v ≤ 3 then v else 1 + Config.freeNat (v * 16 + n) % 3

/-- The note table (R142). -/
def Dev.applyNotes (d : Dev) : Dev :=
  Dev.each (fun n x =>
    let fl := BitVec.ofNat 8 (d.noteCfg n 1 1)
    ((x.setReg (A.noteR n) (pack [(28, d.noteCfg n 7 1), (20, d.noteCfg n 6 1), (12, d.noteCfg n 5 1), (4, d.noteCfg n 4 1),
      (3, b2n (bit fl 1)), (2, b2n (bit fl 0)), (0, d.notePrioCfg n)])).setReg (A.noteTgt n)
      (BitVec.ofNat 48 (d.noteCfg n 8 4))).setReg (A.noteMon n)
      (pack [(16, d.noteCfg n 0x0E 2), (0, d.noteCfg n 0x0C 2)])) (List.range 16) d

/-- Watermarks, headroom margin, tier thresholds (Tables 5.6, 3.10, 9.7). -/
def Dev.applyThresholds (d : Dev) : Dev :=
  let d1 := Dev.each (fun p x => x.setReg (A.wmark p.val)
    (pack [(16, d.schedCfg p 0 2 % 512), (0, d.schedCfg p 2 2 % 512)])) allPorts d
  let t := fun off n => BitVec.ofNat 48 (d.cfgLe Sec.tiers off n)
  ((((d1.setReg A.headroom (BitVec.ofNat 48 (d.cfgLe Sec.link 0x30 2))).setReg A.warn (t 0x2C 4)).setReg A.low (t 0x30 4)).setReg
    A.high (t 0x34 4)).setReg A.migr (pack [(16, d.cfgLe Sec.tiers 0x2A 2), (0, d.cfgLe Sec.tiers 0x28 2)])

/-- Fault configuration (R302). -/
def Dev.applyFaults (d : Dev) : Dev :=
  let f := fun off n => d.cfgLe Sec.faults off n
  Dev.each (fun s x => x.setReg (A.srcCfg s)
      (pack [(32, f (0x42 + 8 * s) 2), (24, f (0x41 + 8 * s) 1), (0, f (0x40 + 8 * s) 1 % 128)]))
    (List.range 192) (d.setReg A.faultCfg (pack [(8, f 1 1 % 64), (0, f 0 1 % 8)]))

/-- Retention mask, markers, wake timer and test policy (Tables 6.4, 12.10, R335). -/
def Dev.applyPower (d : Dev) : Dev :=
  let r := fun p => d.refrCfg p 0x20 1
  ((d.setReg A.policy (BitVec.ofNat 48 (d.cfgLe Sec.testPolicy 0 1 % 4))).setReg A.ret (pack (allPorts.flatMap (fun p => [(4 * p.val, r p % 16), (16 + p.val, r p / 16 % 2)])))).setFld A.wake 16 32
    (d.cfgLe Sec.power 4 4)

/-! ### Delays and READY (R186) -/

def Dev.dlyCfg (d : Dev) (t : Fin 16) (off n : Nat) : Nat := d.cfgLe Sec.delays (256 * t.val + off) n

/-- VALID of a DELAYS record; a reserved value is a free choice (R45). -/
def Dev.dlyValid (d : Dev) (t : Fin 16) : Bool :=
  let v := d.dlyCfg t 0 1
  if v = 0 then false else if v = 1 then true else Config.freeBool (v * 16 + t.val)

/-- The tile takes its DELAYS record (Table 7.5). -/
def Dev.dlyTake (d : Dev) (t : Fin 16) : Dev :=
  let c := d.dlyCfg t
  Dev.each (fun k x =>
    let o := 0x10 + 16 * k
    (x.setReg (A.sliceT t.val k) (pack [(24, c (o + 4) 2 % 4096), (12, c (o + 2) 2 % 4096), (0, c o 2 % 4096)])).setReg
      (A.sliceB t.val k) (pack [(24, c (o + 10) 1 % 128), (18, c (o + 9) 1 % 64), (12, c (o + 8) 1 % 64),
        (6, c (o + 7) 1 % 64), (0, c (o + 6) 1 % 64)])) (List.range 13)
    (d.setReg (A.dlyTile t.val) (pack [(20, c 6 2 % 1024), (10, c 4 2 % 1024), (0, c 2 2 % 1024)]))

/-- All delays of the tile are zero. -/
def Dev.dlyZero (d : Dev) (t : Fin 16) : Dev :=
  Dev.each (fun k x => (x.setReg (A.sliceT t.val k) 0).setReg (A.sliceB t.val k) 0) (List.range 13)
    (d.setReg (A.dlyTile t.val) 0)

/-- Delays, READY and SOURCE of a tile, in the order of R186. -/
def Dev.applyDelays (d : Dev) (t : Fin 16) : Dev :=
  let rdy := b2n (d.present t)
  if d.dlyValid t then (d.dlyTake t).setReg (A.dlyState t.val) (pack [(1, 1), (0, rdy)])
  else if d.rst.wasReady.getLsbD t.val then d.setReg (A.dlyState t.val) (pack [(1, 2), (0, rdy)])
  else (d.dlyZero t).setReg (A.dlyState t.val) 0

/-! ### Tiles (R150, R152, R176, R177) -/

/-- The tile at the apply step: a new one is powered, a retained one leaves self-refresh, its changed MR_INIT due. -/
def Dev.applyTile (d : Dev) (t : Fin 16) : Dev :=
  let d0 := d.modTile t (fun x => { x with owed := 0, hot := d.present t, coolPolls := 0, refUnit := false, geyser := false })
  if !d.present t then d0
  else if (d.tiles[t]).powered then
    (d0.modTile t (fun x => { x with mrDue := x.inSr })).modPort (tilePort t) (fun x =>
      if (d.tiles[t]).inSr && !d.subFenced (tileSub t) then { x with sr := .stopped, srArrived := true } else x)
  else
    { d0 with mrShadow := d0.mrShadow.filter (fun e => e.1 / 2048 ≠ t.val) }.tilePowerOn t

/-- DRAM_RESET_N of a port none of whose tiles was powered is low until its tiles are initialised (R176, R177). -/
def Dev.applyDramReset (d : Dev) (p : Fin 4) : Dev :=
  if (portTiles p).any (fun t => (d.tiles[t]).powered) then d
  else { d with pins := { d.pins with dramResetN := putBit d.pins.dramResetN p.val false } }

/-! ### Regions, tiers, protection -/

/-- Each region's epoch (R230): its Caldera copy when it is used and the copy valid, the Accord's otherwise. -/
def Dev.applyEpochs (d : Dev) : Dev :=
  let d1 := Dev.each (fun r x =>
    if regionUsed d.cfg r && d.crypt.epochValid.getLsbD r then x
    else x.setReg (A.epoch r) (BitVec.ofNat 48 (regionEpoch d.cfg r))) (List.range 64) d
  { d1 with crypt := { d1.crypt with epochValid := BitVec.ofNat 64 (bitsOf ((List.range 64).map (regionUsed d.cfg))) } }

/-- A pool as DRAM powers up (R240): each block free, a frame or a tier block, which is free. -/
def freePool (ctr n : Nat) : List (Nat × Blk) :=
  (List.range n).filterMap (fun b =>
    match Config.freeNat (ctr + 2 * b) % 3 with
    | 0 => none
    | 1 => some (b, .frame)
    | _ => some (b, .tier (BitVec.ofNat 8 (Config.freeNat (ctr + 2 * b + 1)))))

/-- The pool at the first apply since power-on (R240): with INIT elastic requests wait; without it nothing is known. -/
def Dev.applyTier (d : Dev) : Dev :=
  if d.side.accordSeen then d
  else if bit (BitVec.ofNat 8 (d.cfgLe Sec.tiers 0x3A 1)) 0 then d.modTier (fun t => { t with initWait := true, initP := 0, initLeft := 0 })
  else
    { d with freeCtr := d.freeCtr + 2 * d.poolBlocks + 2 }.modTier (fun t =>
      { t with pool := freePool (d.freeCtr + 2) d.poolBlocks, free := Config.freeNat d.freeCtr % 2 ^ 33,
               frag := Config.freeNat (d.freeCtr + 1) % 2 ^ 36 })

/-- Reinstatement (R209): a row move that the reset kept ends with the table it was to change (DEDUCED, log 52). And, at the first apply since power-on, the fill (R216). -/
def Dev.applyProt (d : Dev) (build : BitVec 64) (s : Fin 8) : Dev :=
  let fl := BitVec.ofNat 8 (d.protCfg s 0x0D 1)
  let d1 := if bit fl 0 && !d.side.accordSeen then d.modProt s (fun x => { x with fillDue := true }) else d
  if bit fl 1 && (d.prots[s]).reinstate ≠ build then
    (Dev.each (fun j x => x.setReg (A.remap s.val j) 0) (List.range 128)
      ((d1.modProt s (fun x => { x with dead := 0, rebuild := false, frozen := false, spareUsed := false, spareFor := 0, p := 0,
                                        reinstate := build, rowOp := none })).setFld (A.remapCmd s.val) 6 1 0)).journalStart
  else d1

/-! ### Engines (R250, R265) -/

/-- Words of 6 bytes, [7:0] first. -/
def wordsOf : List Byte → List Word
  | a :: b :: c :: e :: f :: g :: r => BitVec.ofNat 48 (leNat [a, b, c, e, f, g]) :: wordsOf r
  | _ => []

/-- Words at rising addresses, zeros left out. -/
def wordStore (bs : List Byte) (n : Nat) : List (Nat × Word) :=
  ((((wordsOf bs).take n).zipIdx.filter (fun e => e.1 ≠ 0)).map (fun e => (e.2, e.1)))

/-- Engine `e` takes its role record and its image, and a role engine starts with reason APPLY. An image that overruns the
engine's memories is unpredictable (R45): the model cuts it to 4096 and 16384 words (DESIGN CHOICE, log 10). -/
def Dev.applyEngine (d : Dev) (e : Fin 72) : Dev :=
  let rc := d.roleCfg e.val
  let role := d.roleOf e.val
  let img := rc 1 1 % 16
  let at0 := cfgKey Sec.engines (0x2580 + d.imgOff img)
  let il := d.imgILen img
  let dl := d.imgDLen img
  let base : Engine := { Engine.off with role := BitVec.ofNat 8 role, fromE := BitVec.ofNat 7 e.val }
  if role = 0 then d.modEng e (fun _ => { Engine.off with fromE := BitVec.ofNat 7 e.val })
  else if role = 6 then d.modEng e (fun _ => { base with run := .idle, unusedSpare := true })
  else
    let held := { base with
      run := .idle, image := BitVec.ofNat 4 img, imem := wordStore (memSlice 0 d.cfg at0 il) 4096,
      dmem := wordStore (memSlice 0 d.cfg (at0 + il) dl) 16384 }
    let d1 := d.modEng e (fun _ => held)
    if held.isRoleEngine then d1.startRole e 0 0 else d1

/-! ### The step -/

/-- IDENT.CAPS (R26, R50). -/
def Dev.applyCaps (d : Dev) : Dev :=
  let tiles := allTiles.map d.present
  let roles := allEngs.map (fun e => d.roleOf e.val)
  d.setReg A.caps (pack [(27, (roles.filter (· = 6)).length % 16), (20, (roles.filter isRole).length % 128),
    (16, bitsOf (allPorts.map (fun p => (portTiles p).any d.present))), (0, bitsOf tiles)])

/-- Calibration (R192, R194): effective trims under the new limits; DUE while no run has ended DONE. -/
def Dev.applyCal (d : Dev) (p : Fin 4) : Dev :=
  let d1 := (d.trimSet p 0).trimSet p 1
  if !(d.cals[p]).everDone && (portTiles p).any d.present && !bit (d.reg (A.calStatus p.val)) 16 then
    (d1.setFld (A.calStatus p.val) 16 1 1).raiseAttn 1
  else d1

/-- ACCORD.STATUS and its companions (R50, R369). -/
def Dev.applyStatus (d : Dev) (l : Loader) (build : BitVec 64) (secver : BitVec 16) : Dev :=
  let a := A.accStatus
  let first := if l.second then l.firstCode.toNat else 0
  (((((((((d.setFld a 40 8 0).setFld a 32 8 first).setFld a 27 1 (b2n (l.src = 1 && l.slot))).setFld a 24 3 l.src.toNat).setFld
    a 20 4 2).bump a 0 16).setReg A.buildLo (build.setWidth 48)).setReg A.buildHi ((build >>> 48).setWidth 48)).setFld
    A.secver 0 16 secver.toNat).budgetSums

/-- The link reset that follows the apply (R59): it raises no ATTN 8 and is not counted. In a full reset the RESYNC after it
carries RST = 1, also where a push had the link up under the default profile (R117). -/
def Dev.applyLink (d : Dev) : Dev :=
  if d.rst.step = 5 then
    let d1 := ({ d with rst := { d.rst with step := 6 } }.sillReset 5).linkDownCore false false
    (d1.modLink (fun l => { l with rstUp := true })).startTraining 0
  else d.linkDown false false 0

/-- Apply a verified Accord (R50). -/
def Dev.applyAccord (d : Dev) (cfg : Memory) (build : BitVec 64) (secver : BitVec 16) : Dev :=
  let l := d.loader
  let d0 := { (if d.noAccord then d.raiseAttn 11 else d) with
    cfg := cfg, applied := true, noAccord := false, loader := .idle, shadow := [], cg := Vector.replicate 9 .following,
    qos := Vector.replicate 16 (0, false) }
  let d1 := (((d0.applyNotes).applyThresholds).applyFaults).applyPower
  let d2 := Dev.each (fun t x => x.applyDelays t) allTiles d1
  let d3 := Dev.each (fun p x => x.applyDramReset p) allPorts d2
  let d4 := Dev.each (fun t x => x.applyTile t) allTiles d3
  let d5 := Dev.each (fun s x => x.applyProt build s) allSubs d4.applyEpochs
  let d6 := Dev.each (fun e x => x.applyEngine e) allEngs d5.applyTier
  let d7 := (((Dev.each (fun p x => x.applyCal p) allPorts d6).applyCaps).applyStatus l build secver).sillAccord
  let d8 := if d7.rst.attn7 then { d7.raiseAttn 7 with rst := { d7.rst with attn7 := false } } else d7
  ({ d8 with side := { d8.side with accordSeen := true } }).applyLink

/-- ACCORD_APPLY (R50). -/
def execAccordApply (s : State) : Host.Outcome State Fault Refusal :=
  devNext s (match s.dev.loader.verdict with
    | some (.ok cfg build secver) =>
      if s.dev.loader.active then s.dev.applyAccord cfg build secver else s.dev
    | _ => s.dev)

/-- TILE_REMOVE_POWER_OFF (R177): RANKPWR_EN of a removed tile goes low. -/
def execTileRemovePowerOff (t : Fin 16) (s : State) : Host.Outcome State Fault Refusal :=
  let d := s.dev
  devNext s (if d.applied && !d.present t && (d.tiles[t]).powered && (d.tiles[t]).inSr then d.tilePowerOff t else d)

/-- TILE_RAMP_DONE (R167, R176, R177). -/
def execTileRampDone (t : Fin 16) (s : State) : Host.Outcome State Fault Refusal := devNext s (s.dev.tileInit t)

/-! ### Commit groups -/

/-- CG_WRITE (R53, R54). -/
def execCgWrite (_m : Master) (a : BitVec 24) (v : Word) (s : State) : Host.Outcome State Fault Refusal :=
  devNext s (s.dev.cgWrite a.toNat v)

/-- CG_COMMIT (R53, R54). -/
def execCgCommit (_m : Master) (v : Word) (s : State) : Host.Outcome State Fault Refusal :=
  devNext s (s.dev.cgCommitWrite (putBit v 16 false))

/-- CG_ABORT (R54). -/
def execCgAbort (_m : Master) (v : Word) (s : State) : Host.Outcome State Fault Refusal :=
  devNext s (s.dev.cgCommitWrite (putBit v 16 true))

/-- CG_LAND (R52 to R54). -/
def execCgLand (g : Fin 9) (i : Fin 16) (s : State) : Host.Outcome State Fault Refusal :=
  devNext s (if i.val < groupSize g.val then s.dev.cgLand g.val i.val else s.dev)

/-- CG_IDLE_HOLD (R52): acceptance into the instance's queues stops until the commit lands. -/
def execCgIdleHold (g : Fin 9) (i : Fin 16) (s : State) : Host.Outcome State Fault Refusal :=
  let d := s.dev
  let x := d.cg[g]
  devNext s
    (if (g = 2 || g = 4) && i.val < 4 && x.waits i.val ≠ 0 then
      d.modCg g (fun y => { y with hold := putBit y.hold i.val true })
    else d)

end Sys2Proof.Machine
end

