-- ==== Sys2Proof/Machine/ResetOps.lean ====
section
/-! DEFINITION. Shared operations of power-on and of the steps of a full reset (Table 12.4), and of hub flash operations that
break off (R347). -/

namespace Sys2Proof.Machine

/-! ### Flash operations that break off -/

/-- A sector's first byte (R346: 4 KiB sectors). -/
def sectorOf (a : Nat) : Nat := a / 4096 * 4096

/-- Flash bytes that a hub operation was changing: each is a free value (R347: "partly erased or programmed"). -/
def flashTorn (ctr : Nat) (m : Memory) : Option (BitVec 2 × BitVec 32 × BitVec 6) → Memory
  | some (1, a, _) =>
    memWriteList m (sectorOf a.toNat) ((List.range 4096).map (fun i => (Config.freeWord (ctr + i)).setWidth 8))
  | some (2, a, n) =>
    memWriteList m a.toNat ((List.range n.toNat).map (fun i => (Config.freeWord (ctr + i)).setWidth 8))
  | _ => m

/-- A hub operation under way ends with ERROR (R347). -/
def State.flashBreak (s : State) : State :=
  match s.dev.side.flashOp with
  | none => s
  | some o =>
    { s with
      flash := flashTorn s.dev.freeCtr s.flash (some o),
      dev := ({ s.dev with freeCtr := s.dev.freeCtr + 4096, side := { s.dev.side with flashOp := none } }.setFld
        A.flashCmd 8 2 3).setFld A.flashCmd 7 1 0 }

/-! ### Core reset (Table 12.4 step 4) -/

/-- What Caldera keeps of the register file. -/
def calderaRf (rf : RegMap) : RegMap :=
  (rf.map (fun (e : Nat × Word) => (e.1, (e.2 &&& calderaMask e.1) ||| (regReset e.1 &&& ~~~ calderaMask e.1)))).filter
    (fun e => e.2 ≠ regReset e.1)

/-- A subchannel's protection state (Table 8.4, R209, R216). A row move goes on, since its entry and pointer are kept
(DESIGN CHOICE, log 52); a PPR ends. -/
def Prot.kept (x : Prot) : Prot :=
  { x with
    rowOp := match x.rowOp with
      | some o => if o.kind = 1 || o.kind = 2 then some o else none
      | none => none,
    fillDue := x.fillDue || x.filling, filling := false, injCount := 0 }

def Cal.kept (x : Cal) : Cal := { Cal.idle with codes := x.codes, everDone := x.everDone }
def Tile.kept (x : Tile) : Tile :=
  { Tile.off with powered := x.powered, ramping := x.ramping, ramped := x.ramped, inSr := x.inSr }
def Tier.kept (x : Tier) : Tier := { Tier.empty with pool := x.pool, free := x.free, frag := x.frag, initWait := x.initWait }
def Crypt.kept (x : Crypt) : Crypt := { Crypt.empty with slots := x.slots, epochValid := x.epochValid }
def Link.kept (x : Link) : Link :=
  { Link.initial with rxLanes := laneBase x.rxLanes, txLanes := laneBase x.txLanes, rstUp := x.rstUp }

/-- All logic is reset but Caldera, the retention paths, the pins and the spare journal's record under way. -/
def Dev.coreReset (d : Dev) : Dev :=
  let d1 : Dev :=
    { Dev.reset with
      on := d.on, freeCtr := d.freeCtr, rf := calderaRf d.rf, link := d.link.kept,
      txn := { Txn.empty with epoch := d.txn.epoch },
      ports := Vector.ofFn (fun (p : Fin 4) =>
        { Port.empty with cyc := (d.ports[p]).cyc, nextQ := (d.ports[p]).nextQ,
                          sr := if (portTiles p).any (fun t => (d.tiles[t]).inSr) then .stopped else .run }),
      tiles := d.tiles.map Tile.kept, cals := d.cals.map Cal.kept, prots := d.prots.map Prot.kept, journal := d.journal,
      mrShadow := d.mrShadow, crypt := d.crypt.kept, tier := d.tier.kept, sill := d.sill, rst := d.rst,
      side := { Side.idle with accordSeen := d.side.accordSeen, flashOk := d.side.flashOk, zeroFresh := d.side.zeroFresh }, pins := d.pins }
  let d2 := Dev.each (fun s x => if (x.prots[s]).rowOp.isSome then x.setFld (A.remapCmd s.val) 6 1 1 else x) allSubs d1
  if d.attnValue = 0 then d2 else d2.sillPush 3 0 0 0

/-- Step 4 begins. -/
def State.coreReset (s : State) : State :=
  let s1 := s.flashBreak
  let d := s1.dev.coreReset
  let d1 := { d with rst := { d.rst with step := 4, waitRise := false } }
  { s1 with dev := if s.dev.side.flashOp.isSome then d1.setFld A.flashCmd 8 2 3 else d1 }

/-- Step 5 begins (R308, R345): BOOTSEL is sampled; for a push the link trains under the default profile (R59). -/
def State.reload (s : State) (boot : BitVec 2) : State :=
  let d := s.dev.setFld A.lc 4 2 boot.toNat
  let d1 := { d with rst := { d.rst with step := 5, waitRise := false } }
  ({ s with dev := if d1.bootsel = 0 then d1 else d1.startTraining 3 }).loaderStart

/-! ### Drain (Table 12.4 step 2, R309) -/

/-- The drain discards the entry: its subchannel is fenced, its tile is not in service, or its data is uncorrectable. -/
def Dev.discards (d : Dev) (ue : List (Fin 4 × Nat)) (p : Fin 4) (w : WrEnt) : Bool :=
  d.subFenced w.s || !d.ready (locTile w.loc) || ue.contains (p, w.q)

/-- A read that the drain cannot complete, or that belongs to a discarded entry. -/
def Dev.readMoot (d : Dev) (ue : List (Fin 4 × Nat)) (p : Fin 4) (r : RdEnt) : Bool :=
  d.subFenced r.s || !d.ready (locTile r.loc) || (d.ports[p]).wrq.any (fun w => r.op = .merge w.q && d.discards ue p w)

/-- Nothing is left that the drain path can write (R309, Table 9.6). -/
def Dev.drained (d : Dev) (ue : List (Fin 4 × Nat)) : Bool :=
  allPorts.all (fun p => (d.ports[p]).wrq.all (d.discards ue p) && (d.ports[p]).rdq.all (d.readMoot ue p)) &&
    allSubs.all (fun s => (d.phys[s]).inflight.all (fun i => i.drop)) && d.tier.claims = 0 && d.txn.held = [] &&
    d.tier.ops.all (fun o => o.phase = .switched) && d.tier.moves.all (fun m => m.isNone) &&
    d.jobs.all (fun j => j.left = 0) && d.tier.pmc.all (fun e => !e.2.dirty)

/-- The space of a tier operation that the drain ends: the old one once its entry has changed, otherwise the new one that it had
taken (R239; DEDUCED for an operation that the drain's limit cuts off, log 52). -/
def Dev.drainSpace (d : Dev) (o : TierOp) : Dev :=
  if o.phase = .switched then d.freeOld o
  else if entPtr o.newEntry ≠ 0 && entPtr o.newEntry ≠ entPtr o.oldEntry then d.freeExtent o.newEntry
  else d

/-- Step 2 ends: what is left is discarded and counted; an admitted tier write left over counts as one entry. -/
def Dev.drainFinish (d : Dev) : Dev :=
  let n := (allPorts.map (fun p => (d.ports[p]).wrq.length)).foldl (· + ·) 0 +
    (d.tier.ops.filter (fun o => o.phase ≠ .switched && o.h.op.isWrite && o.move.isNone)).length
  let tot := d.rst.discarded + n
  let d0 := Dev.each (fun o x => x.drainSpace o) d.tier.ops d
  let d1 := { d0 with
    ports := d.ports.map (fun (p : Port) => { p with rdq := [], wrq := [], batch := [], locks := [], drain := 0 }),
    phys := d.phys.map (fun (f : Phy) => { f with inflight := [] }), jobs := [],
    txn := { d.txn with held := [] },
    tier := { d0.tier with ops := [], claims := 0, pmc := [], moves := Vector.replicate 4 none },
    rst := { d.rst with step := 3, discarded := tot } }
  ((d1.setFld A.reset 0 1 (b2n (n = 0 && !d.rst.drainBad))).setFld A.reset 16 16 (min tot 65535)).sillReset 2

/-! ### Retain (Table 12.4 step 3, R310) -/

/-- Every bank of every layer of tile `t` is flagged LOST (R170). -/
def Dev.loseTile (d : Dev) (t : Fin 16) : Dev :=
  Dev.each (fun c x => x.setFld (A.lost (tilePort t).val (t.val % 4 * 8 + c)) 0 32 (2 ^ 32 - 1))
    (List.range (d.stack t)) d

/-- The retention path of a tile (Table 12.4 step 3): a refresh unit under way completes, the tile is precharged, one REFab for
each layer pays each interval still owed, and SRE goes to every layer. -/
def Dev.retainTile (d : Dev) (t : Fin 16) : Dev :=
  let d1 := (if (d.tiles[t]).refUnit then d.unitFinish t else d).prechargeTile t
  let d2 := Dev.each (fun (_ : Nat) x => x.layerSend t .refAb 0 0) (List.range (d1.tiles[t]).owed) d1
  (d2.sreTile t 0).modTile t (fun y => { y with owed := 0, refUnit := false })

/-- The retention paths take every powered tile into self-refresh but those named. -/
def Dev.retain (d : Dev) (failed : BitVec 16) : Dev :=
  let bad := fun (t : Fin 16) => (d.tiles[t]).powered && !(d.tiles[t]).inSr && failed.getLsbD t.val
  let d1 := Dev.each (fun t x =>
    if !(d.tiles[t]).powered || (d.tiles[t]).inSr then x
    else if bad t then x.loseTile t
    else x.retainTile t) allTiles d
  let any := allTiles.any bad
  (({ d1 with rst := { d1.rst with attn7 := d1.rst.attn7 || any } }).setFld A.reset 1 1
    (b2n (!any && !d.rst.retainBad))).sillReset 3

/-! ### Power-on -/

/-- Power-on: everything at its reset value; the fuses and the journal are read, the link trains under the default profile
and the loader starts (R307, R332, R337, R345, R218). -/
def State.powerUp (s : State) (boot : BitVec 2) (sfdp : Bool) : State :=
  let d : Dev := { Dev.reset with
    on := true, freeCtr := s.dev.freeCtr + 1, pins := { s.dev.pins with resetN := true, dramResetN := 0 },
    side := { Side.idle with flashOk := sfdp } }
  let d1 := ((d.setReg A.nonce (Config.nonceDraw s.dev.freeCtr)).setFld A.lc 4 2 boot.toNat).journalLoad s.flash
  ({ s with fuses := s.cells, dev := d1.startTraining 3 }).loaderStart

/-- A loss of all supplies (R328): everything but the fuses and the flash is gone; a journal record under way is whole or
not, a free choice. -/
def State.powerGone (s : State) : State :=
  let ok := Config.freeBool s.dev.freeCtr
  let s1 := { s with dev := s.dev.tickFree }.flashBreak
  let s2 := if s.dev.journal.busy && ok then s1.journalEnd true else s1
  { s2 with dev := { Dev.reset with freeCtr := s2.dev.freeCtr } }

end Sys2Proof.Machine
end

