-- ==== Sys2Proof/Machine/Resets.lean ====
section
/-! DEFINITION. The commands of power-on and of full resets (R307 to R312, R27). -/

namespace Sys2Proof.Machine

/-- POWER_ON: RESET_N rises with the supplies up. -/
def execPowerOn (found : PowerUp) (s : State) : Host.Outcome State Fault Refusal :=
  .next (if s.dev.on then s else s.powerUp found.bootsel found.sfdp)

/-- RESET_N_FALL (R307). -/
def execResetNFall (s : State) : Host.Outcome State Fault Refusal :=
  let d := s.dev
  devNext s (if d.pins.resetN then { d with pins := { d.pins with resetN := false } }.fullReset 1 else d)

/-- DRAIN_END (R309). -/
def execDrainEnd (ue : List (Fin 4 × Nat)) (s : State) : Host.Outcome State Fault Refusal :=
  let d := s.dev
  devNext s (if d.rst.step = 2 && !d.pwr.toReset && d.drained ue then d.drainFinish else d)

/-- DRAIN_TIMEOUT (R309): what is still queued is discarded. -/
def execDrainTimeout (s : State) : Host.Outcome State Fault Refusal :=
  let d := s.dev
  devNext s (if d.rst.step = 2 && !d.pwr.toReset then d.drainFinish else d)

/-- RETAIN_END (R308, R310): every powered tile is in self-refresh; step 4 begins. -/
def execRetainEnd (s : State) : Host.Outcome State Fault Refusal :=
  stNext s (if s.dev.rst.step = 3 then { s with dev := s.dev.retain 0 }.coreReset else s)

/-- RETAIN_TIMEOUT (R310): the tiles named failed to enter self-refresh. -/
def execRetainTimeout (failed : BitVec 16) (s : State) : Host.Outcome State Fault Refusal :=
  stNext s (if s.dev.rst.step = 3 then { s with dev := s.dev.retain failed }.coreReset else s)

/-- CORE_RESET_END (R308): the Adroth stays at the end of step 4 while RESET_N is low. -/
def execCoreResetEnd (bootsel : BitVec 2) (s : State) : Host.Outcome State Fault Refusal :=
  let d := s.dev
  stNext s
    (if d.rst.step ≠ 4 || d.rst.waitRise then s
     else
      let d1 := d.sillReset 4
      if d.pins.resetN then { s with dev := d1 }.reload bootsel
      else { s with dev := { d1 with rst := { d1.rst with waitRise := true } } })

/-- RESET_N_RISE (R308). -/
def execResetNRise (bootsel : BitVec 2) (s : State) : Host.Outcome State Fault Refusal :=
  let s1 := { s with dev := { s.dev with pins := { s.dev.pins with resetN := true } } }
  stNext s (if s.dev.rst.step = 4 && s.dev.rst.waitRise then s1.reload bootsel else s1)

/-- IDENT_FULL_RESET (R27): only the hub's write of 0x5A3C counts. -/
def execIdentFullReset (m : Master) (v : Word) (s : State) : Host.Outcome State Fault Refusal :=
  devNext s (if m = .hub && fld v 0 16 = 0x5A3C then s.dev.fullReset 3 else s.dev)

end Sys2Proof.Machine
end

