-- ==== Sys2Proof/Machine/PowerEntry.lean ====
section
/-! DEFINITION. Power-state entries, wakes, power failure and the thermal limits (R314 to R328, R361 to R363). -/

namespace Sys2Proof.Machine

/-! ### Who marks and checks retained tiles (R166, R275) -/

/-- A retained tile of a port with MARKERS set. -/
def Dev.markedTile (d : Dev) (t : Fin 16) : Bool :=
  bit (d.reg A.ret) t.val && bit (d.reg A.ret) (16 + (tilePort t).val)

/-- A SCRUB engine in service with such a tile in its SCOPE. -/
def Dev.marks (d : Dev) (e : Fin 72) : Bool :=
  d.engs[e].role = 2 && d.engs[e].inService && allTiles.any (fun t => d.markedTile t && d.inScope e (tileSub t))

/-- Every marking engine is in the list. -/
def Dev.allMarked (d : Dev) (done : List (Fin 72)) : Bool := allEngs.all (fun e => !d.marks e || done.contains e)

/-! ### Stop points (Table 12.7) -/

/-- The engine has no access outstanding and no LSTEP under way. -/
def Engine.quiet (x : Engine) : Bool :=
  x.busy = 0 && x.ended = [] && (match x.wait with
    | .atom _ => false
    | .pois _ => false
    | .step _ => false
    | _ => true)

/-- Block `k` (0 engines to 4 link) refuses at once. -/
def Dev.pollRefuse (d : Dev) (k : Nat) : Bool :=
  match k with
  | 0 => d.txn.rx.any (fun m => m.vc = .k)
  | 2 => d.cals.any (fun c => c.pause)
  | 4 => d.txn.rx ≠ []
  | _ => false

/-- Block `k` is at its stop point for an entry to state `t`. The page map cache is written back as the tiers agree. -/
def Dev.pollReady (d : Dev) (t k : Nat) : Bool :=
  match k with
  | 0 =>
    d.kq = [] && d.engs.all (fun e => !e.isKernel || (e.run ≠ .running && e.run ≠ .waiting)) &&
      d.engs.all (fun e => !e.isRoleEngine || e.run = .fenced || e.quiet) && (t ≠ 3 || d.allMarked d.pwr.markDone)
  | 1 =>
    d.tier.moves.all (fun m => m.isNone) && d.tier.claims = 0 &&
      d.tier.ops.all (fun o => o.phase = .waitEntry || o.phase = .switched || !(o.h.op.isWrite || o.move.isSome))
  | 2 =>
    d.txn.held.all (fun h => !h.isInner) &&
      (if t = 1 then allPorts.all (fun p => !d.portBusy p)
       else allPorts.all (fun p => (d.ports[p]).sr = .stopped || !(portTiles p).any (fun i => d.srTile i)))
  | 3 => d.phys.all (fun f => f.alert ≠ .low && f.due = [] && f.test.isNone && f.inflight = [])
  | _ =>
    d.link.replay = [] && d.txn.outP = [] && d.txn.outM = [] && !bit (d.reg A.resync) 17 && d.link.req.isNone &&
      d.link.reqWait = [] && d.link.announce.isNone && d.link.laneTest.isNone

def Dev.pollUs (d : Dev) : Nat := d.cfgLe Sec.power 2 2

/-- Block `k` is polled: it refuses at once on its condition, or when POLL_US is zero and it is not at its stop point.
Schedulers start Table 6.3 for P2 and P3. -/
def Dev.pollStart (d : Dev) (k : Nat) : Dev :=
  let t := d.pwrTarget
  let d1 := { d with pwr := { d.pwr with poll := k } }
  let d2 := if k = 2 && 2 ≤ t then
      Dev.each (fun p x =>
        if (portTiles p).any (fun i => x.srTile i) then
          x.modPort p (fun y => { y with sr := if y.sr = .run then .drain else y.sr, srPower := true, srArrived := false })
        else x) allPorts d1
    else d1
  if d2.pollRefuse k || (d2.pollUs = 0 && !d2.pollReady t k) then d2.refuseEntry (k + 1) else d2

/-! ### The save list and the commit (R320, R325) -/

/-- The bits of a register that are saturating counters. -/
def counterMask (a : Nat) : Word :=
  let x := idxOf a
  let all := ones 47 0
  match fnOf a with
  | 0x02 => if x = 5 then all else if x = 9 then ones 39 8 else 0
  | 0x03 => if x = 2 then all else 0
  | 0x04 => if within 0x80 0x8F x then all else 0
  | 0x05 => if x = 1 || x = 2 then all else if x = 4 then ones 31 0 else 0
  | 0x06 => if x = 4 then ones 27 4 else if x = 8 then all else 0
  | 0x08 => if x = 1 then ones 47 32 ||| ones 15 8 else 0
  | 0x09 =>
    if x = 0x18 then all else if within 0x20 0x2C x then ones 47 24 else if x = 0x30 then ones 47 34
    else if x = 0x31 then ones 23 0 else if x = 0x32 then ones 47 16 else if x = 0xC0 then ones 7 0 else 0
  | 0x0A => if instOf a < 8 && x = 0 then all else 0
  | 0x0B => if instOf a < 8 && x = 0 then all else if instOf a = 8 && within 8 9 x then all else 0
  | 0x0C => if x = 5 then all else if x = 0x10 then ones 23 0 else if x = 0x11 then ones 47 40 else 0
  | 0x0D => if a = A.cmp then ones 15 0 else 0
  | 0x0E => if x = 2 then ones 39 0 else 0
  | _ => 0

/-- The bits of a register that outlast P3 (R325, DESIGN CHOICE log 45: the registers hold their saved values themselves):
the save list, Caldera, the live delays, the applied configuration, REFR[0].RET.MARKERS among it (R165), and PWR itself. -/
def p3Mask (counters : Bool) (a : Nat) : Word :=
  let sp := (regSpec a).getD .ro
  let saved := if inSaveList a then sp.rw &&& ~~~ sp.hide ||| sp.cg else 0
  let counts := if counters then counterMask a else 0
  let own := if fnOf a ≤ 1 || fnOf a = 0x07 || a = A.first || (fnOf a = 0x0E && idxOf a ≠ 2) then ones 47 0 else 0
  saved ||| counts ||| own ||| calderaMask a ||| (if a = A.ret then ones 19 16 else 0)

def p3Rf (counters : Bool) (rf : RegMap) : RegMap :=
  (rf.map (fun (e : Nat × Word) => (e.1, (e.2 &&& p3Mask counters e.1) ||| (regReset e.1 &&& ~~~ p3Mask counters e.1)))).filter
    (fun e => e.2 ≠ regReset e.1)

/-- Engines at a P2 or P3 commit (R317): slots read zero; in P3 data words from `n` on do too. -/
def Engine.powerDown (x : Engine) (n : Option Nat) : Engine :=
  { x with
    slots := [], busy := 0, stat := [], ended := [], events := 0, wait := .none, gen := x.gen + 1,
    run := if x.run = .waiting then .running else x.run,
    dmem := match n with
      | some k => x.dmem.filter (fun c => c.1 < k)
      | none => x.dmem }

/-- The core switched off (P3): what is not retained is lost; tiles that RET.MASK does not select lose power and contents
(R167, R169, R315). -/
def Dev.p3Off (d : Dev) : Dev :=
  let counters := bit (BitVec.ofNat 8 (d.cfgLe Sec.power 1 1)) 0
  let d1 := Dev.each (fun t x =>
    if x.present t && !bit (d.reg A.ret) t.val then
      (x.loseTile t).modTile t (fun y => { y with powered := false, ramping := false, inSr := false, trackers := [], pens := [] })
    else x.modTile t (fun y => { y with trackers := [], pens := [] })) allTiles d
  let d2 := { d1 with
    rf := p3Rf counters d1.rf, shadow := [], cg := Vector.replicate 9 .following, link := d1.link.kept,
    txn := { Txn.empty with epoch := d1.txn.epoch },
    ports := d1.ports.map (fun (p : Port) => { Port.empty with
      cyc := p.cyc, nextQ := p.nextQ, locks := p.locks, sr := p.sr, srPower := p.srPower }),
    phys := Vector.replicate 8 .idle, qos := Vector.replicate 16 (0, false),
    tier := { d1.tier with pmc := [] }, cals := d1.cals.map Cal.kept,
    engs := Vector.ofFn (fun (e : Fin 72) => d1.engs[e].powerDown (some (d1.protWords e))) }
  if d2.attnValue = d.attnValue then d2 else d2.sillPush 3 0 0 (pack [(4, d2.attnPending), (0, d2.attnValue)])

/-- Phase 3, first wake step of the state (Table 12.8); a P3 wake powers the tiles that were not retained (R323). -/
def Dev.startWake (d : Dev) (ev : BitVec 3) : Dev :=
  let st := d.pwrState
  let d1 := { d.setFld A.pwrStatus 4 4 3 with
    pwr := { d.pwr with wakeEvents := ev, wakeStep := if st = 1 then 3 else if st = 2 then 2 else 1, latched := 0,
                        checkDone := [], timerOn := false } }
  let d2 := if st = 3 then
      Dev.each (fun t x => if x.present t && !(x.tiles[t]).powered then x.tilePowerOn t else x) allTiles d1
    else d1
  d2.sillPower 4 st 0 ev.toNat

/-- All five blocks have agreed (R320): the state is entered; a latched wake event starts its wake at once (R321). -/
def Dev.commit (d : Dev) : Dev :=
  let t := d.pwrTarget
  let d1 := match t with
    | 1 => d.modLink (fun l => { l with standby := true })
    | 2 => { d with engs := d.engs.map (fun (x : Engine) => x.powerDown none) }.modLink (fun l => { l with standby := true })
    | _ => d.p3Off
  let d2 := ((d1.setFld A.pwrStatus 0 4 t).setFld A.pwrStatus 4 4 0).setFld A.pwrStatus 12 4 1
  let d3 := { d2 with pwr := { d2.pwr with poll := 0, timerOn := d2.fldR A.wake 16 32 ≠ 0 } }.sillPower 2 t 0 0
  if d.pwr.latched = 0 then d3 else d3.startWake d.pwr.latched

/-! ### Entry (R318, R319) -/

/-- PERMIT of the POWER section. -/
def Dev.permits (d : Dev) (t : Nat) : Bool := bit (BitVec.ofNat 8 (d.cfgLe Sec.power 0 1)) (t - 1)

/-- An entry starts (R318). -/
def Dev.startEntry (d : Dev) (t : Nat) : Dev :=
  if d.pwrState ≠ 0 || d.pwrPhase ≠ 0 || d.rst.step ≠ 0 then d
  else
    let d1 := d.setFld A.pwrStatus 8 4 t
    if !d.permits t || d.flt.fatal || d.noAccord then d1.setFld A.pwrStatus 12 4 3
    else if 2 ≤ t && (d.journal.busy || d.cgBusy) then d1.setFld A.pwrStatus 12 4 4
    else
      let d2 := d1.setFld A.pwrStatus 4 4 1
      let d3 := { d2 with pwr := { d2.pwr with latched := 0, markDone := [], toReset := false } }.sillPower 1 t 0 0
      let d4 := if t = 3 then
          (d3.setReg A.retCnt (d3.reg A.retCnt + 1)).eventWhere 6 (fun e _ => d3.marks e)
        else d3
      d4.pollStart 0

/-- A write of PWR.CTL.ENTER: it counts only from an MWR; reserved codes do nothing (log 10). -/
def Dev.enterCmd (d : Dev) (m : Master) (t : Nat) : Dev := if m = .hub && within 1 3 t then d.startEntry t else d

/-- ENTER_P1 (R318). -/
def execEnterP1 (m : Master) (s : State) : Host.Outcome State Fault Refusal := devNext s (s.dev.enterCmd m 1)
/-- ENTER_P2 (R318). -/
def execEnterP2 (m : Master) (s : State) : Host.Outcome State Fault Refusal := devNext s (s.dev.enterCmd m 2)
/-- ENTER_P3 (R318, R326). -/
def execEnterP3 (m : Master) (s : State) : Host.Outcome State Fault Refusal := devNext s (s.dev.enterCmd m 3)

/-- The polled block agrees if it is at its stop point, and refuses on its condition (R319). -/
def Dev.agree (d : Dev) : Dev :=
  let k := d.pwr.poll
  let t := d.pwrTarget
  if d.pwrPhase ≠ 1 then d
  else if d.pollRefuse k then d.refuseEntry (k + 1)
  else if !d.pollReady t k then d
  else
    let d1 := if k = 1 && 2 ≤ t then d.pmcFlush.enterQueues else d
    if k = 4 then d1.commit else d1.pollStart (k + 1)

/-- BLOCK_AGREE (R319, R320). -/
def execBlockAgree (s : State) : Host.Outcome State Fault Refusal := devNext s s.dev.agree

/-- POLL_TIMEOUT (R319, R320): the polled block refuses; requests that waited go on. -/
def execPollTimeout (s : State) : Host.Outcome State Fault Refusal :=
  let d := s.dev
  devNext s (if d.pwrPhase = 1 then (d.refuseEntry (d.pwr.poll + 1)).enterQueues else d)

/-! ### Wake (R321 to R324) -/

/-- Wake event `b` (0 WAKE_N, 1 link, 2 timer): it starts a wake in P1 to P3, and is latched during an entry. -/
def Dev.wakeEvent (d : Dev) (b : Nat) : Dev :=
  if d.pwrPhase = 1 then { d with pwr := { d.pwr with latched := putBit d.pwr.latched b true } }
  else if d.pwrState ≠ 0 && d.pwrPhase = 0 then d.startWake (BitVec.ofNat 3 (2 ^ b))
  else d

/-- WAKE_N_FALL (R322). -/
def execWakeNFall (s : State) : Host.Outcome State Fault Refusal := devNext s (s.dev.wakeEvent 0)

/-- KRX_SIGNAL_WAKE (R322): in P1 and P2. During an entry the lanes carry the link's own flits and are no event
(DESIGN CHOICE, log 46). -/
def execKrxSignalWake (s : State) : Host.Outcome State Fault Refusal :=
  let d := s.dev
  devNext s (if (d.pwrState = 1 || d.pwrState = 2) && d.pwrPhase = 0 then d.wakeEvent 1 else d)

/-- WAKE_TIMER (R322): when TIMER was not zero at the commit. -/
def execWakeTimer (s : State) : Host.Outcome State Fault Refusal :=
  let d := s.dev
  devNext s (if d.pwr.timerOn && d.pwrPhase = 0 then d.wakeEvent 2 else d)

/-- The step of Table 12.8 that follows step `k` on a wake from state `st`. -/
def wakeNext (st k : Nat) : Nat :=
  match k with
  | 1 => 2
  | 2 => 3
  | 3 => if st = 3 then 4 else 5
  | 4 => 5
  | 5 => 6
  | 6 => if st = 3 then 7 else 8
  | _ => 8

/-- A wake step begins: SRX follows at step 6, the link's relock or training at step 8. -/
def Dev.wakeBegin (d : Dev) (k : Nat) : Dev :=
  let d1 := { d with pwr := { d.pwr with wakeStep := k } }
  match k with
  | 6 => { d1 with ports := d1.ports.map (fun (p : Port) => if p.sr = .stopped then { p with srArrived := true } else p) }
  | 8 => if d.pwrState = 3 then d1.startTraining 0 else d1
  | _ => d1

/-- After step 6 of a wake from P2 or P3 the role engines start with reason WAKE (R317, R265); P3 has retained tiles
checked (R169). -/
def Dev.wakeEngines (d : Dev) : Dev :=
  let st := d.pwrState
  if st < 2 then d
  else
    let d1 := Dev.each (fun e x =>
      if x.engs[e].isRoleEngine && x.engs[e].inService then x.startRole e 3 0 else x) allEngs d
    if st = 3 then d1.eventWhere 7 (fun e _ => d1.marks e) else d1

/-- The report of a source by an event code alone. -/
def codeReport (ev : Nat) : Report :=
  { event := BitVec.ofNat 8 ev, addr := 0, akind := 0, coord := 0, master := none, access := 0 }

/-- A full reset that waits for wake steps 1 to 3 goes on at step 4 (R312). -/
def State.wakeToReset (s : State) : State :=
  { s with dev := { s.dev with pwr := { s.dev.pwr with toReset := false } } }.coreReset

/-- The wake fails (R324): source `src` reports, and a full reset runs from step 4 with cause 4 and both flags set; a full
reset already under way goes on (R307). -/
def State.failWake (s : State) (src ev : Nat) : State :=
  let d := (s.dev.fault src (codeReport ev)).setFld A.pwrStatus 12 4 5
  let d1 := d.sillPower 6 d.pwrState 0 d.pwr.wakeEvents.toNat
  if d1.pwr.toReset then { s with dev := d1 }.wakeToReset
  else
    let d2 := (((d1.setFld A.reset 32 16 (satAdd 16 (d1.fldR A.reset 32 16) 1)).setFld A.reset 5 3 4).setFld A.reset 0 2 3).setFld
      A.reset 16 16 0
    let r := { d2.rst with
      waitRise := false, drainBad := false, retainBad := false, discarded := 0,
      wasReady := BitVec.ofNat 16 (bitsOf (allTiles.map (fun t => d2.ready t))) }
    let d3 := { d2 with rst := r }.modLink (fun l => { l with rstUp := true })
    { s with dev := d3 }.wakeToReset

/-- The monitor source of a wake step (Table 11.2): the PLL's, the save SRAM's, else one of the clock monitors, which one
the spec leaves open. -/
def stepMonitor (k free : Nat) : Nat × Nat :=
  if k = 2 then (131, 2) else if k = 4 then (159, 1) else (130 + free % 8, 1 + free / 8 % 2)

/-- WAKE_FAIL (R324): the running step of steps 1 to 7 is unfinished. -/
def execWakeFail (s : State) : Host.Outcome State Fault Refusal :=
  let d := s.dev
  let m := stepMonitor d.pwr.wakeStep (Config.freeNat d.freeCtr)
  stNext s (if d.pwrPhase = 3 && within 1 7 d.pwr.wakeStep then { s with dev := d.tickFree }.failWake m.1 m.2 else s)

/-- The work of the running step is done (Table 12.8). -/
def Dev.wakeStepDone (d : Dev) : Bool :=
  match d.pwr.wakeStep with
  | 6 => d.portsRun || d.pwrState = 1
  | 7 => d.allMarked d.pwr.checkDone
  | 8 => false
  | _ => true

/-- WAKE_STEP_END (R323, R325); step 8 ends at link-up. -/
def execWakeStepEnd (crcOk : Bool) (s : State) : Host.Outcome State Fault Refusal :=
  let d := s.dev
  let k := d.pwr.wakeStep
  stNext s
    (if d.pwrPhase ≠ 3 || k = 0 || !d.wakeStepDone then s
     else if k = 3 && d.pwr.toReset then s.wakeToReset
     else if k = 4 && !crcOk then s.failWake 159 1
     else
       let d1 := if k = 6 then d.wakeEngines else d
       { s with dev := d1.wakeBegin (wakeNext d.pwrState k) })

/-- Step 8 ends: STATE is P0 and ingress is released (R323). -/
def Dev.wakeDone (d : Dev) : Dev :=
  let ev := d.pwr.wakeEvents
  let d1 := ((d.setFld A.pwrStatus 0 4 0).setFld A.pwrStatus 4 4 0).setFld A.wake 0 3 ev.toNat
  ({ d1 with pwr := { d1.pwr with wakeStep := 0 } }.sillPower 5 0 0 ev.toNat).enterQueues

/-! ### Power failure and loss (R327, R328, R219) -/

/-- PWRFAIL (R219, R327): a record whose body is not complete is abandoned, which the spec leaves to the instant: a free
choice; its slot is to be erased again before the next record. A hub erase or program ends with ERROR (R347). -/
def State.pwrfailLow (s : State) : State :=
  let low := { s.dev.tickFree with pins := { s.dev.pins with pwrfailN := false } }
  let j := if low.journal.busy && Config.freeBool s.dev.freeCtr then
      { low with journal := { busy := false, dirty := true, eraseDue := true, image := [] } }.setFld A.journal 14 1 0
    else low
  let s1 := { s with dev := j.sillPower 7 j.pwrState 0 0 }
  match s1.dev.side.flashOp with
  | some (3, _, _) => s1
  | _ => s1.flashBreak

/-- PWRFAIL. -/
def execPwrfail (s : State) : Host.Outcome State Fault Refusal :=
  stNext s (if s.dev.pins.pwrfailN then s.pwrfailLow else s)

/-- PWRFAIL_RISE (R327): an erase and a record that waited start. -/
def execPwrfailRise (s : State) : Host.Outcome State Fault Refusal :=
  stNext s { s with dev := { s.dev with pins := { s.dev.pins with pwrfailN := true } } }.journalGo

/-! ### Thermal limits (R361 to R363) -/

def sensorOf (temps : List Byte) (k : Nat) : Nat := (temps.getD k 0).toNat

/-- The highest sensor, the first of equals. -/
def hottest (temps : List Byte) : Nat :=
  (List.range 8).foldl (fun b k => if sensorOf temps b < sensorOf temps k then k else b) 0

/-- THROTTLE of the CLOCK section. -/
def Dev.throttleAt (d : Dev) : Nat := d.cfgLe Sec.clock 1 1

/-- Sensors that have passed 125 °C (189) since they were read last: their sources report OVER_LIMIT together (R284, R361). -/
def Dev.overOccs (d : Dev) (temps : List Byte) : List Occ :=
  (List.range 8).filterMap (fun k =>
    if 189 < sensorOf temps k && !(d.srcAt (145 + k)).pres then
      some { src := 145 + k, r := codeReport 1, level := true, inA := true, inB := true } else none)

/-- ATTN 6 follows a sensor over its limit; a sensor back below it is quiet (R361). -/
def Dev.overLimit (d : Dev) (k v : Nat) : Dev :=
  let src := 145 + k
  let was := (d.srcAt src).pres
  if 189 < v then (if was then d else d.raiseAttn 6)
  else if was then d.setSrc src { d.srcAt src with presA := false, presB := false, cur := none }
  else d

/-- A calibration is due when the die has moved by more than 10 °C since the last one (R194). -/
def Dev.calByTemp (d : Dev) (die : Nat) (p : Fin 4) : Dev :=
  let st := d.reg (A.calStatus p.val)
  let last := fld st 24 8
  if (d.cals[p]).everDone && (die + 10 < last || last + 10 < die) && !bit st 16 then
    (d.setFld (A.calStatus p.val) 16 1 1).raiseAttn 1
  else d

/-- Throttle levels rise (R362): level 1 at T, level 2 at T + 4, each with ATTN 6; in P0 only. -/
def Dev.throttleUp (d : Dev) (die : Nat) : Dev :=
  let t := d.throttleAt
  let lvl := d.fldR A.therm 18 2
  let up := if t = 0 || !d.applied || d.pwrState ≠ 0 then 0 else if t + 4 ≤ die then 2 else if t ≤ die then 1 else 0
  if lvl < up then (d.setFld A.therm 18 2 up).raiseAttn 6 else d

/-- SENSOR_READ (R361, R362, R194). -/
def execSensorRead (temps : List Byte) (s : State) : Host.Outcome State Fault Refusal :=
  let h := hottest temps
  let die := sensorOf temps h
  let d := s.dev
  let d1 := Dev.each (fun k x => x.setReg (A.temp k) (pack ((List.range 4).map (fun j => (8 * j, sensorOf temps (4 * k + j))))))
    [0, 1] d
  let d2 := (d1.setFld A.therm 32 8 die).setFld A.therm 21 3 h
  let d3 := (Dev.each (fun k x => x.overLimit k (sensorOf temps k)) (List.range 8) d2).faultSet (d2.overOccs temps)
  let d4 := if d.applied then Dev.each (fun p x => x.calByTemp die p) allPorts d3 else d3
  devNext s (d4.throttleUp die)

/-- THROTTLE_STEP_DOWN (R362): the die has stayed at or below the level's start minus 3 °C for 1 ms. -/
def execThrottleStepDown (s : State) : Host.Outcome State Fault Refusal :=
  let d := s.dev
  let lvl := d.fldR A.therm 18 2
  let start := d.throttleAt + if lvl = 2 then 4 else 0
  devNext s (if lvl ≠ 0 && d.dieTemp + 3 ≤ start then d.setFld A.therm 18 2 (lvl - 1) else d)

/-- THERMTRIP (R363): the pin latches low, and every clock domain but Caldera stops. -/
def execThermtrip (s : State) : Host.Outcome State Fault Refusal :=
  devNext s { s.dev with pins := { s.dev.pins with thermtripN := false } }

end Sys2Proof.Machine
end

