-- ==== Sys2Proof/Machine/SideOps.lean ====
section
/-! DEFINITION. Shared operations of the sideband block: tokens (R336 to R344), zeroisation (R342), hub flash operations
(R347), TAP access (R333, R334). -/

namespace Sys2Proof.Machine

/-! ### Tokens -/

/-- The bytes of a token. -/
def tokBytes (t : TokenBytes) : List Byte := leBytes 256 t.toNat

/-- `n` bytes at an offset, little-endian. -/
def tokLe (t : TokenBytes) (off n : Nat) : Nat := (t.toNat >>> (8 * off)) % 2 ^ (8 * n)

def tokBe (t : TokenBytes) (off n : Nat) : Nat := beNat (slice (tokBytes t) off n)

def tokType (t : TokenBytes) : Nat := tokLe t 4 1
def tokKey (t : TokenBytes) : Nat := tokLe t 5 1
def tokArg (t : TokenBytes) : Nat := tokLe t 6 2

/-- Types with a BODY. -/
def tokHasBody (ty : Nat) : Bool := ty = 1 || ty = 3 || ty = 4

/-- Check 1 of R339: "LCTK", a defined TYPE, zeros where Table 13.5 and R336 require them. -/
def tokFormat (t : TokenBytes) : Bool :=
  let ty := tokType t
  tokLe t 0 4 = 0x4B54434C && within 1 11 ty &&
    (tokHasBody ty || (tokLe t 0x40 96 = 0 && tokLe t 0x20 32 = 0)) && (ty ≠ 4 || tokLe t 0x60 64 = 0)

/-- Check 2: the state allows TYPE (Table 13.5). `armed`: RET_ARMED. -/
def tokState (st : Nat) (armed : Bool) (ty : Nat) : Bool :=
  match ty with
  | 1 => st = 0
  | 2 => st = 0
  | 3 => st = 1
  | 4 => st = 1
  | 5 => st = 1
  | 6 => st = 1
  | 7 => st = 1 || st = 2
  | 8 => st = 1 || st = 2
  | 9 => st = 2
  | 10 => st = 2 && armed
  | 11 => st ≠ 4
  | _ => false

/-- The token needs no signer (Table 13.5). -/
def tokUnsigned (st ty : Nat) : Bool := ty = 1 || ty = 2 || (ty = 11 && st = 0)

def vendorKeyNo (k : Nat) : Bool := k ≤ 3
def ownerKeyNo (k : Nat) : Bool := within 4 7 k

/-- The signer's group (Table 13.5). -/
def tokGroup (st ty arg k : Nat) : Bool :=
  match ty with
  | 3 => vendorKeyNo k
  | 4 => ownerKeyNo k
  | 5 => ownerKeyNo k
  | 6 => vendorKeyNo k
  | 7 => k ≠ arg && ((vendorKeyNo k && vendorKeyNo arg) || (ownerKeyNo k && ownerKeyNo arg))
  | 8 => if st = 1 then k ≤ 7 else ownerKeyNo k
  | 9 => ownerKeyNo k
  | 10 => vendorKeyNo k
  | 11 => if st = 2 then ownerKeyNo k else vendorKeyNo k
  | _ => false

/-- Check 5: BODYHASH and the signature. -/
def tokSigOk (f : Fuses) (st : Nat) (t : TokenBytes) : Bool :=
  (!tokHasBody (tokType t) || sha384First32 (slice (tokBytes t) 0x40 96) = tokBe t 0x20 32) &&
    (tokUnsigned st (tokType t) ||
      ecdsaVerify f.keys[Fin.ofNat 8 (tokKey t)] (sha384 (slice (tokBytes t) 0 64)) (tokBe t 0xA0 48) (tokBe t 0xD0 48))

/-- Some usable key of `arg`'s group is left once `arg` is revoked. -/
def Fuses.keyLeft (f : Fuses) (arg : Nat) : Bool :=
  (List.finRange 8).any (fun k => k.val ≠ arg && vendorKeyNo k.val = vendorKeyNo arg && f.usable k)

/-- Check 6: the type's own condition (Table 13.5, R339, R344). `active`: ACCORD.SECVER.ACTIVE. -/
def tokOwn (f : Fuses) (active : Nat) (t : TokenBytes) : Bool :=
  let arg := tokArg t
  match tokType t with
  | 1 => vendorKeyNo arg && !f.provisioned (Fin.ofNat 8 arg)
  | 2 => f.provisioned 0
  | 3 => ownerKeyNo arg && !f.provisioned (Fin.ofNat 8 arg)
  | 4 => f.kwk = 0
  | 5 => (List.finRange 8).any (fun k => ownerKeyNo k.val && f.provisioned k) && f.kwkOk
  | 7 => f.keyLeft arg
  | 8 => f.floor.toNat < arg && arg ≤ active && f.floorUsed < 32
  | _ => true

/-- The result of checks 1 to 6: 1 when all pass (Table 13.11). -/
def tokCheck (f : Fuses) (d : Dev) (t : TokenBytes) : Nat :=
  let st := f.state
  let k := tokKey t
  if !tokFormat t then 2
  else if !tokState st (bit (d.reg A.lc) 15) (tokType t) then 3
  else if !(tokUnsigned st (tokType t) ||
      (k < 8 && tokGroup st (tokType t) (tokArg t) k && f.usable (Fin.ofNat 8 k))) then 4
  else if tokLe t 8 12 ≠ f.uid.toNat || tokLe t 0x18 8 ≠ (d.reg A.nonce).toNat then 5
  else if !tokSigOk f st t then 6
  else if !tokOwn f (d.fldR A.secver 0 16) t then 7
  else 1

/-- Fuses only ever gain blown bits (R331). -/
def Fuses.blowKey (f : Fuses) (k : Fin 8) (v : BitVec 768) : Fuses := { f with keys := f.keys.set k (f.keys[k] ||| v) }

/-- What a token programs (Table 13.5); `n` is the floor entry that is next. -/
def Fuses.program (f : Fuses) (n : Nat) (t : TokenBytes) : Fuses :=
  let arg := tokArg t
  match tokType t with
  | 1 => f.blowKey (Fin.ofNat 8 arg) (BitVec.ofNat 768 (tokBe t 0x40 96))
  | 2 => { f with lcVendor := f.lcVendor ||| 0xFF }
  | 3 => f.blowKey (Fin.ofNat 8 arg) (BitVec.ofNat 768 (tokBe t 0x40 96))
  | 4 => { f with kwk := f.kwk ||| BitVec.ofNat 256 (tokBe t 0x40 32) }
  | 5 => { f with lcField := f.lcField ||| 0xFF }
  | 7 => { f with revoked := f.revoked ||| BitVec.ofNat 8 (2 ^ arg) }
  | 8 =>
    let i : Fin 32 := Fin.ofNat 32 n
    { f with floors := f.floors.set i (f.floors[i] ||| BitVec.ofNat 16 arg) }
  | 10 => { f with lcReturned := f.lcReturned ||| 0xFF }
  | 11 => { f with lcVoid := f.lcVoid ||| 0xFF, kwk := f.kwk ||| ~~~ 0 }
  | _ => f

/-- The cells after a programming that did not read back: any of the bits between may be blown, a free value each. -/
def Fuses.blend (a b : Fuses) (ctr : Nat) : Fuses :=
  let w := fun (i : Nat) => Config.freeLine (ctr + i)
  { a with
    lcVendor := a.lcVendor ||| (b.lcVendor &&& (w 0).setWidth 8), lcField := a.lcField ||| (b.lcField &&& (w 1).setWidth 8),
    lcReturned := a.lcReturned ||| (b.lcReturned &&& (w 2).setWidth 8), lcVoid := a.lcVoid ||| (b.lcVoid &&& (w 3).setWidth 8),
    keys := Vector.ofFn (fun (k : Fin 8) =>
      a.keys[k] ||| (b.keys[k] &&& ((w (8 + 2 * k.val) ++ w (9 + 2 * k.val)).setWidth 768))),
    revoked := a.revoked ||| (b.revoked &&& (w 4).setWidth 8), kwk := a.kwk ||| (b.kwk &&& (w 5).setWidth 256),
    floors := Vector.ofFn (fun (i : Fin 32) => a.floors[i] ||| (b.floors[i] &&& (w (32 + i.val)).setWidth 16)) }

/-- Sillage LIFECYCLE record (R341). -/
def Dev.sillLife (d : Dev) (ev ty old new result : Nat) : Dev :=
  d.sillPush 9 0 0 (pack [(0, ev), (4, ty), (12, old), (15, new), (18, result)])

/-- The 32 key slots are zeroed. -/
def Dev.zeroSlots (d : Dev) : Dev := { d with crypt := { d.crypt with slots := Vector.replicate 32 none, busy := none } }

/-- Region epochs and rotation state clear (R230). -/
def Dev.zeroEpochs (d : Dev) : Dev :=
  let d1 := Dev.each (fun r x => ((x.setReg (A.epoch r) 0).setReg (A.rot r) 0).setReg (A.nextEpoch r) 0) (List.range 64) d
  { d1 with crypt := { d1.crypt with epochValid := 0 } }

/-- What a successful token does to the device (Table 13.5, R342, R343). -/
def Dev.tokEffect (d : Dev) (ty : Nat) : Dev :=
  match ty with
  | 6 => d.setFld A.lc 14 1 1
  | 9 => d.setFld A.lc 15 1 1
  | 10 => let d1 := d.zeroSlots.zeroEpochs
          { d1 with side := { d1.side with zeroFresh := true } }
  | 11 => d.zeroSlots
  | _ => d

/-- The types that program no fuse. -/
def tokNoFuse (ty : Nat) : Bool := ty = 6 || ty = 9

/-- A submission (R339, R337, R340): `blown` says that the fuses read back. -/
def State.submit (s : State) (t : TokenBytes) (blown : Bool) : State :=
  let d := s.dev
  let ty := tokType t
  let c := tokCheck s.fuses d t
  let res := if c = 1 && !blown && !tokNoFuse ty then 8 else c
  let n := s.fuses.floorUsed
  let f := if res = 1 then s.fuses.program n t else s.fuses
  let cells := if res = 1 then s.cells.program n t
    else if res = 8 then s.cells.blend (s.cells.program n t) d.freeCtr else s.cells
  let d1 := if res = 1 then d.tokEffect ty else d.fault 128 (codeReport 1)
  let d2 := d1.sillLife 1 ty s.fuses.state f.state res
  let d3 := if s.fuses.state = f.state then d2 else d2.sillLife 2 ty s.fuses.state f.state res
  let d4 := Dev.each (fun j x => x.setReg (A.tokenData j) 0) (List.range 43) d3
  let d5 := (d4.setReg A.tokenCmd (pack [(8, ty), (3, res)])).setReg A.nonce (Config.nonceDraw d.freeCtr)
  { s with fuses := f, cells := cells, dev := { d5 with freeCtr := d5.freeCtr + 64 } }

/-- The token that TOKEN_DATA holds (Table 13.10). -/
def Dev.tokenHeld (d : Dev) : TokenBytes :=
  BitVec.ofNat 2048 (((List.range 43).map (fun j => (d.reg (A.tokenData j)).toNat <<< (48 * j))).foldl (· ||| ·) 0)

/-- A write of TOKEN_DATA[j] or TOKEN_CMD counts only from an MWR (R339). -/
def Dev.tokenDataWrite (d : Dev) (m : Master) (j : Nat) (v : Word) : Dev :=
  if m = .hub then d.setReg (A.tokenData j) v else d

/-- SUBMIT through the register: whether the fuses read back is a free choice. -/
def State.tokenCmdWrite (s : State) (m : Master) (v : Word) : State :=
  if m = .hub && bit v 0 then
    { s with dev := s.dev.tickFree }.submit s.dev.tokenHeld (Config.freeBool s.dev.freeCtr)
  else s

/-! ### Zeroisation (R342) -/

/-- Where the field fault log lies (Table 13.6). -/
def faultLogAt : Nat := 0x810000
def faultLogEnd : Nat := 0x821000

/-- The ring's records, oldest first. -/
def Sill.records (x : Sill) : List (BitVec 128) :=
  let ent := fun i => sget (0 : BitVec 128) x.ring i
  if x.wraps = 0 then (List.range x.next.toNat).map ent
  else (List.range 4096).map (fun i => ent ((x.next.toNat + i) % 4096))

/-- The bytes of the field fault log: "FLOG", the count and the CRC-32C in 4 B each (DESIGN CHOICE, log 56). -/
def Sill.faultLog (x : Sill) : List Byte :=
  let rs := x.records
  let body := rs.flatMap (fun r => leBytes 16 r.toNat)
  [0x46, 0x4C, 0x4F, 0x47] ++ leBytes 4 rs.length ++ leBytes 4 (crc32c body) ++ leBytes 4 0 ++ body

/-- The area begins with a valid log. -/
def faultLogValid (m : Memory) : Bool :=
  let h := memSlice flashErased m faultLogAt 16
  let n := leNat ((h.drop 4).take 4)
  h.take 4 = [0x46, 0x4C, 0x4F, 0x47] && 1 ≤ n && n ≤ 4096 &&
    crc32c (memSlice flashErased m (faultLogAt + 16) (16 * n)) = leNat ((h.drop 8).take 4)

/-- Owner keys, their revocation bits and the KWK are blown. -/
def Fuses.blowOwner (f : Fuses) : Fuses :=
  { f with
    keys := Vector.ofFn (fun (k : Fin 8) => if 4 ≤ k.val then f.keys[k] ||| ~~~ 0 else f.keys[k]),
    revoked := f.revoked ||| 0xF0, kwk := f.kwk ||| ~~~ 0 }

/-- Step 3 of R342. -/
def State.zeroLog (s : State) : State :=
  if s.dev.side.zeroFresh || !faultLogValid s.flash then
    { s with flash := memWriteList (memErase s.flash faultLogAt faultLogEnd) faultLogAt s.dev.sill.faultLog }
  else s

/-- Steps 2 to 6 of R342. -/
def State.zeroise (s : State) : State :=
  let s1 := s.zeroLog
  let d := s1.dev.zeroSlots.zeroEpochs
  { s1 with
    flash := memErase s1.flash 0 0x800000,
    fuses := { s1.fuses.blowOwner with zdone := s1.fuses.zdone ||| 0xFF },
    cells := { s1.cells.blowOwner with zdone := s1.cells.zdone ||| 0xFF },
    dev := { d with side := { d.side with zeroFresh := false } }.sillLife 3 0 3 3 0 }

/-- What a loss of power leaves of a zeroisation under way: how far it had come is a free choice. -/
def State.zeroTorn (s : State) : State :=
  if !s.fuses.zeroising then s
  else
    let k := Config.freeNat s.dev.freeCtr % 4
    let s1 := if 1 ≤ k then s.zeroLog else s
    let s2 := if 2 ≤ k then { s1 with flash := memErase s1.flash 0 0x800000 } else s1
    let s3 := if 3 ≤ k then { s2 with cells := s2.cells.blowOwner } else s2
    { s3 with dev := s3.dev.tickFree }

/-! ### Flash commands (R347) -/

/-- ERASE and PROGRAM that are rejected: outside the Accord slots, with PWRFAIL_N low, or in VOID. -/
def State.flashRejected (s : State) (op a n : Nat) : Bool :=
  op ≠ 3 && ((if op = 1 then 0x800000 ≤ a else 0x800000 < a + n) || !s.dev.pins.pwrfailN || s.fuses.state = 4)

/-- A write of FLASH_CMD (Table 13.15). -/
def State.flashCmdWrite (s : State) (m : Master) (v : Word) : State :=
  let d := s.dev
  if m ≠ .hub || d.side.flashOp.isSome then s
  else
    let d1 := d.setFld A.flashCmd 10 6 (fld v 10 6)
    let op := fld v 0 2
    let a := d.fldR A.flashAddr 0 32
    let n := fld v 10 6
    let dev :=
      if op = 0 then d1
      else if op = 2 && n = 0 then d1.setFld A.flashCmd 8 2 1
      else if s.flashRejected op a n then d1.setFld A.flashCmd 8 2 2
      else
        let o := (BitVec.ofNat 2 op, BitVec.ofNat 32 a, BitVec.ofNat 6 n)
        { d1 with side := { d1.side with flashOp := some o } }.setFld A.flashCmd 7 1 1
    { s with dev := dev }

/-- The 48 bytes of FLASH_DATA. -/
def Dev.flashBytes (d : Dev) : List Byte := (List.range 8).flatMap (fun j => leBytes 6 (d.reg (A.flashData j)).toNat)

/-- A PROGRAM that R347 covers: at most 48 bytes within one page of 256. -/
def progPlain (a n : Nat) : Bool := n ≤ 48 && a % 256 + n ≤ 256

/-- The hub operation completes (R347). A PROGRAM over a page's end or of more than 48 bytes leaves free values in its
pages (log 10). -/
def State.flashDone (s : State) (ok : Bool) : State :=
  match s.dev.side.flashOp with
  | none => s
  | some o =>
    if !ok then s.flashBreak
    else
      let a := o.2.1.toNat
      let n := o.2.2.toNat
      let d := (({ s.dev with side := { s.dev.side with flashOp := none } }).setFld A.flashCmd 8 2 1).setFld A.flashCmd 7 1 0
      if o.1 = 1 then { s with flash := memErase s.flash (sectorOf a) (sectorOf a + 4096), dev := d }
      else if o.1 = 2 && progPlain a n then
        { s with flash := memWriteList s.flash a (s.dev.flashBytes.take n), dev := d }
      else if o.1 = 2 then
        { s with
          flash := memWriteList s.flash (a / 256 * 256)
            ((List.range 512).map (fun i => (Config.freeWord (d.freeCtr + i)).setWidth 8)),
          dev := { d with freeCtr := d.freeCtr + 512 } }
      else
        let b := memReadList s.flash a 48
        let d1 := Dev.each (fun j x => x.setReg (A.flashData j) (BitVec.ofNat 48 (leNat (slice b (6 * j) 6)))) (List.range 8) d
        { s with dev := d1 }

/-! ### The TAP (R333, R334, Table 13.2) -/

/-- Boundary scan, AC test and TAP debug are open in the life-cycle state. `k`: 0, 1, 2. -/
def State.tapOpen (s : State) (k : Nat) : Bool :=
  match s.fuses.state with
  | 0 => true
  | 1 => bit (s.dev.reg A.lc) 14
  | 2 => k < 2 && bit (s.dev.reg A.policy) k
  | 3 => true
  | _ => k < 2

/-- A closed access at the TAP: source 128 reports TEST_DENIED, with its LIFECYCLE record. -/
def State.tapDenied (s : State) : State :=
  let st := s.fuses.state
  let d := if s.dev.live then (s.dev.fault 128 (codeReport 2)).sillLife 4 0 st st 0 else s.dev
  { s with dev := d.modSide (fun x => { x with tapBypass := true }) }

/-- A boundary-scan instruction: it takes effect while RESET_N is low, and is BYPASS otherwise. -/
def State.tapScan (s : State) (k : Nat) (f : Side → Side) : State :=
  if !s.tapOpen k then s.tapDenied
  else if s.dev.pins.resetN then { s with dev := s.dev.modSide (fun x => { x with tapBypass := true }) }
  else { s with dev := s.dev.modSide (fun x => f { x with tapBypass := false }) }

/-- IDCODE (R334). -/
def idcodeValue : Word := BitVec.ofNat 48 (Config.stepMajor.toNat % 16 * 2 ^ 28 + 0xAB48 * 2 ^ 12 + 0x74B * 2 + 1)

end Sys2Proof.Machine
end

