-- ==== Sys2Proof/Machine/Sideband.lean ====
section
/-! DEFINITION. The commands of the sideband block but for the register accesses: tokens, flash, I3C pushes, the TAP's
boundary scan (R331 to R348). A token command is the submission of a token of its type. -/

namespace Sys2Proof.Machine

/-- The submission of a token whose TYPE is `ty`. -/
def State.submitOf (s : State) (ty : Nat) (t : TokenBytes) (blown : Bool) : State :=
  if tokType t = ty then s.submit t blown else s

/-- VENDOR_KEY. -/
def execVendorKey (tok : TokenBytes) (blown : Bool) (s : State) : Host.Outcome State Fault Refusal :=
  stNext s (s.submitOf 1 tok blown)

/-- ADVANCE. -/
def execAdvance (tok : TokenBytes) (blown : Bool) (s : State) : Host.Outcome State Fault Refusal :=
  stNext s (s.submitOf 2 tok blown)

/-- OWNER_KEY. -/
def execOwnerKey (tok : TokenBytes) (blown : Bool) (s : State) : Host.Outcome State Fault Refusal :=
  stNext s (s.submitOf 3 tok blown)

/-- OWNER_KWK. -/
def execOwnerKwk (tok : TokenBytes) (blown : Bool) (s : State) : Host.Outcome State Fault Refusal :=
  stNext s (s.submitOf 4 tok blown)

/-- ENTER_FIELD. -/
def execEnterField (tok : TokenBytes) (blown : Bool) (s : State) : Host.Outcome State Fault Refusal :=
  stNext s (s.submitOf 5 tok blown)

/-- TEST_UNLOCK. -/
def execTestUnlock (tok : TokenBytes) (blown : Bool) (s : State) : Host.Outcome State Fault Refusal :=
  stNext s (s.submitOf 6 tok blown)

/-- REVOKE. -/
def execRevoke (tok : TokenBytes) (blown : Bool) (s : State) : Host.Outcome State Fault Refusal :=
  stNext s (s.submitOf 7 tok blown)

/-- FLOOR (R344). -/
def execFloor (tok : TokenBytes) (blown : Bool) (s : State) : Host.Outcome State Fault Refusal :=
  stNext s (s.submitOf 8 tok blown)

/-- RETURN_OWNER. -/
def execReturnOwner (tok : TokenBytes) (blown : Bool) (s : State) : Host.Outcome State Fault Refusal :=
  stNext s (s.submitOf 9 tok blown)

/-- RETURN_VENDOR (R342). -/
def execReturnVendor (tok : TokenBytes) (blown : Bool) (s : State) : Host.Outcome State Fault Refusal :=
  stNext s (s.submitOf 10 tok blown)

/-- VOID (R343). -/
def execVoid (tok : TokenBytes) (blown : Bool) (s : State) : Host.Outcome State Fault Refusal :=
  stNext s (s.submitOf 11 tok blown)

/-- BADFORMAT (R339): a token that fails the format check. -/
def execBadformat (tok : TokenBytes) (s : State) : Host.Outcome State Fault Refusal :=
  stNext s (if tokFormat tok then s else s.submit tok true)

/-- POWER_LOSS (R328, R342). -/
def execPowerLoss (s : State) : Host.Outcome State Fault Refusal := .next (if s.dev.on then s.zeroTorn.powerGone else s)

/-- ZEROISE_DONE (R342). -/
def execZeroiseDone (s : State) : Host.Outcome State Fault Refusal :=
  stNext s (if s.fuses.zeroising then s.zeroise else s)

/-! ### Flash -/

/-- `v` with OP = `op`. -/
def withOp (v : Word) (op : Nat) : Word := put v 0 2 op

/-- FLASH_ERASE (R347). -/
def execFlashErase (m : Master) (v : Word) (s : State) : Host.Outcome State Fault Refusal :=
  stNext s (s.flashCmdWrite m (withOp v 1))

/-- FLASH_PROGRAM (R347). -/
def execFlashProgram (m : Master) (v : Word) (s : State) : Host.Outcome State Fault Refusal :=
  stNext s (s.flashCmdWrite m (withOp v 2))

/-- FLASH_READ (R347). -/
def execFlashRead (m : Master) (v : Word) (s : State) : Host.Outcome State Fault Refusal :=
  stNext s (s.flashCmdWrite m (withOp v 3))

/-- FLASH_OP_DONE (R347). -/
def execFlashOpDone (ok : Bool) (s : State) : Host.Outcome State Fault Refusal := stNext s (s.flashDone ok)

/-! ### I3C (R348) -/

/-- ENTDAA assigns the dynamic address. -/
def execI3cEntdaa (addr : BitVec 7) (s : State) : Host.Outcome State Fault Refusal :=
  devNext s (s.dev.modSide (fun x => { x with i3cAddr := some addr }))

/-- The target has its dynamic address, so that a private write reaches it. -/
def Dev.i3cOn (d : Dev) : Bool := d.side.i3cAddr.isSome

/-- Command 0x02: the record goes to the target's own buffer, [7:0] first. -/
def execI3cSillageRead (index : BitVec 16) (s : State) : Host.Outcome State Fault Refusal :=
  let d := s.dev
  let r := sget (0 : BitVec 128) d.sill.ring (index.toNat % 4096)
  devNext s (if d.i3cOn then d.modSide (fun x => { x with i3cBuf := r, i3cOut := leBytes 16 r.toNat }) else d)

/-- Command 0x50. -/
def execI3cPushOpen (s : State) : Host.Outcome State Fault Refusal :=
  stNext s (if s.dev.i3cOn then s.pushOpen 3 else s)

/-- Command 0x51. -/
def execI3cPushData (bytes : List Byte) (s : State) : Host.Outcome State Fault Refusal :=
  stNext s (if s.dev.i3cOn then s.pushBytes 3 bytes else s)

/-! ### The TAP -/

/-- IDCODE (R334): always open. -/
def execIdcode (s : State) : Host.Outcome State Fault Refusal :=
  .next { s with dev := s.dev.modSide (fun x => { x with tapOut := idcodeValue, tapBypass := false }) }

/-- EXTEST (R334): the boundary register drives the pins. -/
def execExtest (s : State) : Host.Outcome State Fault Refusal :=
  .next (s.tapScan 0 (fun x => { x with tapOut := x.tapBr }))

/-- SAMPLE (R334): the boundary register captures the pins. -/
def execSample (pins : Word) (s : State) : Host.Outcome State Fault Refusal :=
  .next (s.tapScan 0 (fun x => { x with tapBr := pins, tapOut := pins }))

/-- PRELOAD (R334): the boundary register is loaded. -/
def execPreload (bits : Word) (s : State) : Host.Outcome State Fault Refusal :=
  .next (s.tapScan 0 (fun x => { x with tapBr := bits }))

/-- The 1149.6 instructions (R334): the boundary register drives the AC pins. -/
def execAcTest (s : State) : Host.Outcome State Fault Refusal :=
  .next (s.tapScan 1 (fun x => { x with tapOut := x.tapBr }))

end Sys2Proof.Machine
end

