-- ==== Sys2Proof/Machine/RegBus.lean ====
section
/-! DEFINITION. The register space as masters see it (R10, R11, R23 to R25): what a read gives, register by register,
and what a write does; the accesses of MRD, MWR, engines, TAP and I3C. -/

namespace Sys2Proof.Machine

/-! ### Reading -/

/-- Bits of a list of 4 to 128 flags, [k] for the k-th. -/
def flags {α : Type} (l : List α) (c : α → Bool) : Nat := bitsOf (l.map c)

/-- A stored register as commit groups show it (R53): the shadow while the instance is open or pending. -/
def Dev.cgView (d : Dev) (sp : RegSpec) (a : Nat) : Word :=
  let g := d.cg[grpNo sp.grp]
  if sp.cg ≠ 0 && (g.isOpen sp.inst || g.isPend sp.inst) then
    let sh := (kvGet d.shadow a).getD (d.reg a)
    (d.reg a &&& ~~~ sp.cg) ||| (sh &&& sp.cg)
  else d.reg a

/-- Function IDENT (Tables 1.9 to 1.11, R26). -/
def State.readIdent (s : State) (x : Nat) (v : Word) : Word :=
  match x with
  | 0 => pack [(32, 0x61C7), (16, 0xAB48), (8, Config.stepMajor.toNat), (0, Config.stepMinor.toNat)]
  | 1 => s.fuses.uid.extractLsb' 0 48
  | 2 => s.fuses.uid.extractLsb' 48 48
  | 3 => put v 31 5 (min (s.dev.link.width .rx) (s.dev.link.width .tx))
  | _ => 0

/-- Function ACCORD (Tables 2.7 to 2.15). -/
def State.readAccord (s : State) (x : Nat) (v : Word) : Word :=
  if x = 3 then put v 16 16 s.fuses.floor.toNat
  else if x = 0x10 then pack [(1, b2n s.dev.pushReady)]
  else if within 0x41 0x48 x then
    let g := s.dev.cg[grpNo (x - 0x40)]
    put (put v 16 16 g.pend.toNat) 0 16 g.opened.toNat
  else v

/-- STATE of LINK.STATUS (Table 3.6). -/
def LinkSt.code : LinkSt → Nat
  | .down => 0
  | .training => 1
  | .up => 2

/-- One LANES register (Table 3.12). -/
def lanesWord (v : Vector Lane 22) : Word :=
  pack [(22, flags v.toList (fun x => x.isActive || x.isSpare)), (0, flags v.toList Lane.isActive)]

/-- Function LINK (Tables 3.6 to 3.14). HEADROOM is computed once RTT or MARGIN has changed from zero. -/
def Dev.readLink (d : Dev) (x : Nat) (v : Word) : Word :=
  let l := d.link
  match x with
  | 0 => pack [(20, l.st.code), (15, l.width .rx), (10, l.width .tx), (8, l.rate.toNat), (4, laneSpares l.rxLanes),
      (0, laneSpares l.txLanes)]
  | 2 =>
    if d.fldR A.linkRtt 0 8 = 0 && d.marginLive = 0 then v
    else put (put v 32 16 d.levelE) 16 16 d.levelH
  | 3 => pack [(34, b2n l.xoffM), (33, b2n l.xoffP), (32, b2n l.xoffQ), (0, d.freeQ)]
  | 6 => lanesWord l.rxLanes
  | 7 => lanesWord l.txLanes
  | _ => v

/-- Accepted requests of a VC whose response is not yet built (Table 4.12). -/
def Txn.notBuilt (x : Txn) (vc : Vc) : Nat := (x.track.filter (fun t => t.vc = vc && !t.built)).length

/-- Function TXN (Tables 4.11 to 4.15). -/
def Dev.readTxn (d : Dev) (x : Nat) (v : Word) : Word :=
  match x with
  | 0 => pack [(12, d.attnValue), (0, d.attnPending)]
  | 1 => pack [(28, d.txn.notBuilt .q), (19, d.txn.notBuilt .k), (14, d.txn.notBuilt .m)]
  | _ => v

/-- The lowest active drain cause (R132). -/
def drainCause (c : BitVec 5) : Nat := ((List.range 5).find? (fun i => c.getLsbD i)).getD 0

/-- Function SCHED (Tables 5.7 to 5.14). -/
def Dev.readSched (d : Dev) (p : Fin 4) (x : Nat) (v : Word) : Word :=
  match x with
  | 2 => pack [(41, b2n (d.draining p)), (38, drainCause (d.ports[p]).drain), (28, (d.rdUse p).length), (19, d.occupancy p)]
  | 3 => pack [(0, flags allNotes (fun n => d.overBudget p (BitVec.ofNat 4 n.val)))]
  | _ => v

/-- Tile `t` has a LOST bank (Table 6.11). -/
def Dev.tileLost (d : Dev) (t : Fin 16) : Bool :=
  (List.range 8).any (fun c => d.reg (A.lost (tilePort t).val (t.val % 4 * 8 + c)) ≠ 0)

/-- Function REFR (Tables 6.5 to 6.12). -/
def Dev.readRefr (d : Dev) (p : Fin 4) (x : Nat) (v : Word) : Word :=
  let ts := portTiles p
  match x with
  | 0 => pack ([(25, flags ts (fun t => (d.tiles[t]).hot)), (24, b2n (d.ports[p]).rtBurst),
      (20, flags ts (fun t => (d.tiles[t]).geyser))] ++ ts.map (fun t => (4 * (t.val % 4), min 15 (d.tiles[t]).owed)))
  | 4 => put (put v 36 4 (flags ts (fun t => (d.tiles[t]).inSr))) 32 4 (flags ts (fun t => (d.tiles[t]).powered))
  | 0x11 => put v 0 16 (flags allTiles d.tileLost)
  | _ => v

/-- Function CAL (Tables 7.19 to 7.23). -/
def Dev.readCal (d : Dev) (p : Fin 4) (x : Nat) (v : Word) : Word :=
  let c := d.cals[p]
  if x = 1 then put v 18 3 (bitsOf [c.pause, c.queued, c.pend.toList.any Option.isSome]) else v

/-- STEER (Table 8.9). -/
def Prot.steerWord (x : Prot) : Word :=
  let cur := if x.spareUsed then some x.spareFor.toNat else none
  let above := if x.rebuild then none else cur
  pack [(31, x.dead.toNat), (30, b2n x.rebuild), (29, b2n x.frozen), (28, b2n x.spareUsed), (24, x.spareFor.toNat),
    (22, x.mode cur), (20, x.mode above)]

/-- Function PROT (Tables 8.9 to 8.20). -/
def Dev.readProt (d : Dev) (s : Fin 8) (x : Nat) (v : Word) : Word :=
  if x = 0x10 then (d.prots[s]).steerWord
  else if x = 0x11 then (d.prots[s]).p.setWidth 48
  else if x = 0xC0 then put v 14 1 (b2n d.journal.busy)
  else v

/-- Function CRYPT, instance 8 (Table 9.11). -/
def Dev.readCrypt (d : Dev) (x : Nat) (v : Word) : Word :=
  if x = 9 then pack [(0, flags d.crypt.slots.toList Option.isSome)] else v

/-- Function TIER (Tables 9.15 to 9.23). -/
def Dev.readTier (d : Dev) (i x : Nat) (v : Word) : Word :=
  if i < 8 then (if x = 1 then pack [(0, d.unitLoad i)] else v)
  else if x = 0 then pack [(40, d.tier.claims), (0, d.tier.free)]
  else if x = 1 then pack [(0, d.tier.frag)]
  else v

/-- RUN of ENG.STATE (Table 10.14). -/
def Run.code : Run → Nat
  | .off => 0
  | .idle => 1
  | .running => 2
  | .waiting => 3
  | .halted => 4
  | .fenced => 5

/-- KRUN (Table 10.18). Between invocations what the fields below ACTIVE read is open: a free value (log 8). -/
def Dev.krunWord (d : Dev) (e : Fin 72) : Word :=
  match (d.engs[e]).inv with
  | some i => pack [(47, 1), (32, i.kidx.toNat), (28, i.window.toNat), (0, i.tag.toNat % 256)]
  | none =>
    if d.fldR (A.engCount e.val) 24 24 = 0 then 0
    else Config.freeWord ((d.freeCtr + 1) <<< 64 ||| A.krun e.val) &&& (ones 39 28 ||| ones 7 0)

/-- The engines of cluster `c`. -/
def clusterEngs (c : Nat) : List (Fin 72) := (List.range 9).map (fun k => Fin.ofNat 72 (9 * c + k))

/-- Function ENG (Tables 10.14 to 10.22). -/
def Dev.readEng (d : Dev) (i x : Nat) (v : Word) : Word :=
  if h : i < 72 then
    let e : Fin 72 := ⟨i, h⟩
    let g := d.engs[e]
    match x with
    | 0 => pack [(32, g.pc.toNat), (28, g.fenceCause.toNat), (24, g.trap.toNat), (20, g.run.code), (16, g.image.toNat),
        (12, g.role.toNat % 16), (0, g.fromE.toNat)]
    | 4 => d.krunWord e
    | _ => v
  else
    match x with
    | 0 =>
      let es := clusterEngs (i - 72)
      pack [(18, flags es (fun e => (d.engs[e]).run = .fenced)), (9, flags es (fun e => (d.engs[e]).unusedSpare)),
        (0, flags es (fun e => isRole (d.engs[e]).role.toNat))]
    | 0x10 => put v 24 9 d.kq.length
    | _ => v

/-- 48 sources of a bitmap register. -/
def Dev.srcBits (d : Dev) (k : Nat) (c : Src → Bool) : Word := pack [(0, flags (List.range 48) (fun b => c (d.srcAt (48 * k + b))))]

/-- Word `j` of the record of source `i` (Table 11.10). The fields of a record that a clear has invalidated are free
values (R288, log 8). -/
def Dev.recWord (d : Dev) (i j : Nat) : Word :=
  let x := d.srcAt i
  let lost := Config.freeWord ((d.freeCtr + 1) <<< 64 ||| ra 0x0D 2 (4 * i + j))
  match j, x.rcd with
  | 0, some r => r.addr
  | 1, some r => r.time
  | 2, some r => pack [(32, r.coord.toNat), (31, b2n r.master.isSome), (20, (r.master.getD 0).toNat), (16, r.access.toNat),
      (13, r.sev.toNat), (10, srcClass i), (2, r.event.toNat), (0, r.akind.toNat)]
  | 3, r => pack [(40, x.count.toNat), (32, x.wcount.toNat), (29, x.sevA.toNat), (28, b2n x.pendA), (27, b2n x.presA),
      (26, b2n (r.any (fun q => q.esc))), (25, b2n (r.any (fun q => q.promoted))), (24, b2n x.fenced), (23, b2n r.isSome),
      (22, b2n (r.isSome && d.flt.first = some (BitVec.ofNat 8 i)))]
  | _, _ => if x.stale then lost else 0

/-- Function FAULT (Tables 11.9 and 11.10). FAULT[0] and the record store show collector A, FAULT[1] collector B;
the device acts on the union of the two (R282, log 30). -/
def Dev.readFault (d : Dev) (i x : Nat) (v : Word) : Word :=
  if i = 2 then d.recWord (x / 4) (x % 4)
  else if i = 1 then
    (if within 4 7 x then d.srcBits (x - 4) (fun q => q.pendB)
     else if within 8 11 x then d.srcBits (x - 8) (fun q => q.presB) else v)
  else if x = 0 then pack [(23, b2n d.flt.fatal), (22, b2n d.errActive), (19, d.maxSev), (11, d.nPend)]
  else if x = 1 then put v 8 1 (b2n d.flt.first.isSome)
  else if within 4 7 x then d.srcBits (x - 4) (fun q => q.pendA)
  else if within 8 11 x then d.srcBits (x - 8) (fun q => q.presA)
  else if within 12 15 x then d.srcBits (x - 12) (fun q => q.fenced)
  else v

/-- Domain `k` has a unit in use (R306, Table 12.3). -/
def Dev.unitUsed (d : Dev) (k : Nat) : Bool :=
  let lane := fun (v : Vector Lane 22) i => (laneAt v i).isActive || (laneAt v i).isSpare
  if k < 72 then (d.engs[Fin.ofNat 72 k]).role ≠ 0
  else if within 80 101 k then lane d.link.rxLanes (k - 80)
  else if within 102 123 k then lane d.link.txLanes (k - 102)
  else if within 142 149 k then (subTiles (Fin.ofNat 8 (k - 142))).any d.present
  else if within 150 165 k then d.present (Fin.ofNat 16 (k - 150))
  else k < 212

/-- Power state `st` lets domain `k` run (Table 12.6). -/
def domainPower (st k : Nat) : Bool :=
  if st = 0 || k = 190 || k = 195 then true
  else if within 186 189 k then st ≤ 2
  else if within 130 133 k || within 142 165 k then st = 1
  else false

/-- Domain `k` runs (R306). Before an Accord applies no DOMAIN_EN is in force: every unit in use runs (DESIGN CHOICE,
log 31). -/
def Dev.domainRuns (d : Dev) (k : Nat) : Bool :=
  (!d.applied || bit (BitVec.ofNat 256 (d.cfgLe Sec.clock 8 32)) k || within 186 190 k || k = 195) && d.unitUsed k &&
    domainPower d.pwrState k

/-- Function PWR (Tables 12.13 to 12.19, 14.5, 14.6). -/
def Dev.readPwr (d : Dev) (x : Nat) (v : Word) : Word :=
  if x = 1 then put v 19 1 (b2n (!d.pins.pwrfailN))
  else if within 0x10 0x14 x then pack [(0, flags (List.range 48) (fun b => d.domainRuns (48 * (x - 0x10) + b)))]
  else if x = 0x20 then put v 24 8 d.throttleAt
  else v

/-- Function SILL (R296, R297). -/
def Dev.readSill (d : Dev) (x : Nat) (v : Word) : Word :=
  match x with
  | 0 => pack [(32, d.sill.wraps.toNat), (31, b2n d.sill.frozen), (0, d.sill.next.toNat)]
  | 8 => d.sill.time
  | _ => v

/-- Function SIDE (Tables 13.8 to 13.16). -/
def State.readSide (s : State) (x : Nat) (v : Word) : Word :=
  let f := s.fuses
  if x = 0 then put (put v 0 3 f.state) 13 1 (b2n f.zeroising)
  else if x = 0x41 then
    pack [(24, f.floorUsed), (16, b2n f.kwkOk), (8, f.revoked.toNat), (0, flags (List.finRange 8) f.provisioned)]
  else v

/-- What a read of word address `a` gives (R10); an address that no register occupies reads zero (R11), and so do WO
fields and reserved bits. -/
def State.readReg (s : State) (a : Nat) : Word :=
  match regSpec a with
  | none => 0
  | some sp =>
    let d := s.dev
    let v := d.cgView sp a &&& ~~~ sp.hide
    let i := instOf a
    let x := idxOf a
    match fnOf a with
    | 0x00 => s.readIdent x v
    | 0x01 => s.readAccord x v
    | 0x02 => d.readLink x v
    | 0x03 => d.readTxn x v
    | 0x04 => d.readSched (Fin.ofNat 4 i) x v
    | 0x05 => d.readRefr (Fin.ofNat 4 i) x v
    | 0x08 => d.readCal (Fin.ofNat 4 i) x v
    | 0x09 => d.readProt (Fin.ofNat 8 i) x v
    | 0x0A => if i = 8 then d.readCrypt x v else v
    | 0x0B => d.readTier i x v
    | 0x0C => d.readEng i x v
    | 0x0D => d.readFault i x v
    | 0x0E => d.readPwr x v
    | 0x0F => d.readSill x v
    | 0x10 => s.readSide x v
    | _ => v

/-! ### Writing -/

/-- A plain write: RW bits take the value, W1C bits written 1 clear (Types of 00_scope.md). -/
def Dev.plainWrite (d : Dev) (sp : RegSpec) (a : Nat) (v : Word) : Dev := d.setReg a (writeWord sp (d.reg a) v)

/-- A write of DIST_LAST (Table 6.8): VALID written 1 zeroes the register. -/
def Dev.distLastWrite (d : Dev) (a : Nat) (v : Word) : Dev := if bit v 0 then d.setReg a 0 else d

/-- A write of LOST[k] (R170): bits written 1 clear. -/
def Dev.lostWrite (d : Dev) (a : Nat) (v : Word) : Dev := d.setReg a (d.reg a &&& ~~~ (v &&& ones 31 0))

/-- Writes whose effect is on the device alone: function `fn`, instance `i`, index `x`. -/
def Dev.fnWrite (d : Dev) (sp : RegSpec) (m : Master) (a fn i x : Nat) (v : Word) : Dev :=
  let plain := d.plainWrite sp a v
  match fn with
  | 0x01 => if x = 0x20 then d.cgCommitWrite v else plain
  | 0x02 => if x = 9 then d.laneTestWrite v else if x = 8 then d.linkCtlStore v else plain
  | 0x03 => if x = 0 then d.attnAck v else if x = 4 then d.resyncAck v else plain
  | 0x05 => if x = 3 then d.distLastWrite a v else if within 0x40 0x5F x then d.lostWrite a v else plain
  | 0x07 => if x = 0x21 then d.readyWrite (Fin.ofNat 16 i) v else plain
  | 0x08 => if x = 0 then (if bit v 0 then d.calStart (Fin.ofNat 4 i) else d) else plain
  | 0x09 =>
    let s : Fin 8 := Fin.ofNat 8 i
    if x = 0x12 then d.declareWrite s v
    else if x = 0x31 then d.injectWrite s v
    else if x = 0x38 then d.remapWrite s v
    else if x = 0x39 then d.pprWrite s v
    else plain
  | 0x0A =>
    if i ≠ 8 then plain
    else if within 1 8 x then d.keyDataWrite m (x - 1) v
    else if x = 0x10 then d.rotWrite v
    else plain
  | 0x0B => if i = 8 && within 0x10 0x13 x then d.moveWrite m (Fin.ofNat 4 (x - 0x10)) v else plain
  | 0x0C =>
    if i < 72 && x = 1 then d.engCtlWrite m (Fin.ofNat 72 i) v
    else if i < 72 && x = 2 then d.mboxWrite m (Fin.ofNat 72 i) v
    else plain
  | 0x0D =>
    if i = 0 && within 4 7 x then d.pendingWrite m (x - 4) v
    else if i = 0 && x = 1 then d.firstWrite m v
    else plain
  | 0x0F => if x = 1 then d.sillCtlWrite v else plain
  | 0x10 => if within 0x10 0x3A x then d.tokenDataWrite m (x - 0x10) v else plain
  | _ => plain

/-- One register write as the arbiter applies it (R24). An address that no register occupies takes no write (R11). -/
def State.writeReg (s : State) (m : Master) (a : Nat) (v : Word) : State :=
  match regSpec a with
  | none => s
  | some sp =>
    let i := instOf a
    let x := idxOf a
    if sp.cg ≠ 0 then { s with dev := s.dev.cgWrite a v }
    else if fnOf a = 0x01 && x = 0x10 then s.pushCtlWrite v
    else if fnOf a = 0x01 && within 0x11 0x18 x then s.pushDataWrite v
    else if fnOf a = 0x06 && x ≤ 1 then
      (if s.testWriter m then
        { s with dev := if x = 0 then s.dev.testWrite (Fin.ofNat 8 i) v else s.dev.plainWrite sp a v }
       else s)
    else if a = A.keyCmd then { s with dev := s.keyCmdWrite m v }
    else if a = A.tokenCmd then s.tokenCmdWrite m v
    else if a = A.flashCmd then s.flashCmdWrite m v
    else { s with dev := s.dev.fnWrite sp m a (fnOf a) i x v }

/-- What a hub's write asks for once its completion has left (R27, R91, R318). -/
def afterOf (a : Nat) (v : Word) : Option AfterRsp :=
  if a = A.fullReset then (if fld v 0 16 = 0x5A3C then some .fullReset else none)
  else if a = A.linkCtl then (if bit v 0 then some .linkReset else none)
  else if a = A.pwrCtl then (let t := codeOf [0, 1, 2, 3] (fld v 0 3)
      if t = 0 then none else some (.enter (BitVec.ofNat 2 t)))
  else none

/-- What waited for a completion happens. -/
def Dev.runAfter (d : Dev) : AfterRsp → Dev
  | .fullReset => d.fullReset 3
  | .linkReset => d.linkCtlReset
  | .enter t => d.startEntry t.toNat

/-- Registers are served: the register space is off in P3, and in reset in step 4 of a full reset (Table 12.4, 12.6). -/
def Dev.regOpen (d : Dev) : Bool := d.pwrState ≠ 3 && d.rst.step ≠ 4

/-- A write from a master that waits for no completion. LINK.CTL.RESET acts for any master; the full reset and PWR.CTL
only for the hub. -/
def State.writeNow (s : State) (m : Master) (a : Nat) (v : Word) : State :=
  let s1 := s.writeReg m a v
  match afterOf a v with
  | some k => if m = .hub || k = .linkReset then { s1 with dev := s1.dev.runAfter k } else s1
  | none => s1

/-- REG_WRITE (R24). -/
def execRegWrite (m : Master) (a : BitVec 24) (v : Word) (s : State) : Host.Outcome State Fault Refusal :=
  stNext s (if s.dev.regOpen then s.writeNow m a.toNat v else s)

/-- LOST_CLEAR (R170). -/
def execLostClear (_m : Master) (p : Fin 4) (k : Fin 32) (v : Word) (s : State) : Host.Outcome State Fault Refusal :=
  devNext s (s.dev.lostWrite (A.lost p.val k.val) v)

/-! ### Requests on VC M (R23) -/

/-- A burst that R23 covers: at most 8 registers, none past 0xFF_FFFF. -/
def burstPlain (a n : Nat) : Bool := n ≤ 8 && a + n ≤ 2 ^ 24

/-- The registers of a burst read, all at once. -/
def State.readBurst (s : State) (a n : Nat) : List Word := (List.range n).map (fun k => s.readReg (a + k))

/-- The registers of a burst write, in rising order, and what they ask for once the completion has left. Each write of an
unpredictable burst may or may not take place (R2), but none of them changes the life-cycle state (R3). -/
def State.writeBurst (s : State) (plain : Bool) : List (Nat × Word) → State × List AfterRsp
  | [] => (s, [])
  | (a, v) :: r =>
    let b := a % 2 ^ 24
    let does := plain || (Config.freeBool s.dev.freeCtr && b ≠ A.tokenCmd)
    let s0 := if plain then s else { s with dev := s.dev.tickFree }
    let q := State.writeBurst (if does then s0.writeReg .hub b v else s0) plain r
    (q.1, if does then (afterOf b v).toList ++ q.2 else q.2)

/-- A STATUS that the Adroth may send, by number. -/
def statusOf (n : Nat) : Status :=
  match n with
  | 0 => .ok
  | 1 => .poison
  | 2 => .nospace
  | 3 => .opfault
  | 4 => .noop
  | _ => .lost

/-- The RSP_M of an unpredictable burst: its fields are free values (R2), none of them reserved (R6). -/
def rspMFree (tag : BitVec 12) (src : BitVec 10) (w : Bool) (ctr : Nat) : Nat → List Slot :=
  let n := Config.freeNat (ctr + 1) % 9
  rspM tag src (statusOf (Config.freeNat ctr % 6)) (BitVec.ofNat 4 n) w
    (if w then [] else (List.range n).map (fun k => Config.freeWord (ctr + 2 + k)))

/-- The response to an M request that asks for `n` registers from `a`. -/
def Dev.answerM (d : Dev) (r : Req) (w : Bool) (a : BitVec 24) (n : BitVec 4) (vals : List Word) : Dev :=
  if burstPlain a.toNat n.toNat then
    d.respond .m r.tag false (rspM r.tag r.src (if n = 0 then .noop else .ok) n w (if w then [] else vals))
  else { d.respond .m r.tag false (rspMFree r.tag r.src w d.freeCtr) with freeCtr := d.freeCtr + 10 }

/-- What a hub write asks for waits for its completion to leave; with the link down the completion is dropped, and it
happens at once (R27, R91), but an entry ends with it. -/
def Dev.afterWrites (d : Dev) (tag : BitVec 12) (after : List AfterRsp) : Dev :=
  if d.link.st = .up then d.modTxn (fun x => { x with afterRsp := x.afterRsp ++ after.map (fun k => (tag, k)) })
  else (after.filter (fun k => !(match k with | .enter _ => true | _ => false))).foldl Dev.runAfter d

/-- The access of one M request, and its response (R23): a COUNT of zero does nothing and completes NOOP (Table 4.5). -/
def State.accessM (s : State) (h : Held) : State :=
  let t : State := { s with dev := s.dev.unhold h }
  match h.op with
  | .mrd a n => { t with dev := t.dev.answerM h.r false a n (s.readBurst a.toNat n.toNat) }
  | .mwr a n vals =>
    let q := t.writeBurst (burstPlain a.toNat n.toNat) ((List.range n.toNat).map (fun k => (a.toNat + k, vals.getD k 0)))
    { q.1 with dev := (q.1.dev.answerM h.r true a n []).afterWrites h.r.tag q.2 }
  | _ => s

/-- M requests are accessed in their order of arrival (R97): the oldest ones accepted. -/
def State.serveM : Nat → State → State
  | 0, s => s
  | n + 1, s =>
    match s.dev.txn.held.find? (fun h => h.vc = .m) with
    | some h => if h.accepted && s.dev.regOpen then State.serveM n (s.accessM h) else s
    | none => s

/-- A request of VC M is decoded. -/
def Dev.decodeM (d : Dev) (r : Req) (op : Op) : Dev :=
  if d.decodes then d.tickRid.hold (mkHeld .m r op none d.txn.nextRid d.cc) else d

/-- MRD (R23, R99). -/
def execMrd (common : BitVec 72) (waddr : BitVec 24) (count : BitVec 4) (low : BitVec 28) (s : State) :
    Host.Outcome State Fault Refusal :=
  let h : Slot := common ++ waddr ++ count ++ low
  devNext s (s.dev.decodeM (reqPlain h) (mrdOp h))

/-- MWR (R23, R99). -/
def execMwr (common : BitVec 72) (waddr : BitVec 24) (count : BitVec 4) (low : BitVec 28) (data : List Slot) (s : State) :
    Host.Outcome State Fault Refusal :=
  let h : Slot := common ++ waddr ++ count ++ low
  devNext s (s.dev.decodeM (reqPlain h) (mwrOp h data))

/-! ### Kernel invocations (R266) -/

/-- An engine in service of the kernel pool holds image `i`. -/
def Dev.kernelHeld (d : Dev) (i : Nat) : Bool :=
  allEngs.any (fun e => (d.engs[e]).isKernel && (d.engs[e]).inService && (d.engs[e]).image.toNat = i % 16)

/-- The argument line passes R254 as a read in window `w`. -/
def Dev.argOk (d : Dev) (w : Nat) (l : LineAddr) : Bool :=
  d.winBase w ≤ l.toNat && l.toNat < d.winLimit w && (d.lookupRegion l).isSome

/-- The checks of R266 in the order of R103, in FATAL too: OPFAULT, NOOP, then POISON (R104, R269). -/
def Dev.decideK (d : Dev) (line : LineAddr) (kidx : BitVec 8) (window : BitVec 4) (length : BitVec 32) : Option Status :=
  let k := kidx.toNat
  let w := window.toNat
  let maxLen := d.kernCfg k 8 4
  let bad := d.noAccord || !d.kernFlag k 0 || !(d.kernCfg k 4 2).testBit w || d.winKind w ≠ 1 ||
    (d.kernFlag k 2 && !d.argOk w line) || (maxLen ≠ 0 && maxLen < length.toNat) || !d.kernelHeld (d.kernCfg k 1 1)
  if bad then some .opfault
  else if length = 0 then some .noop
  else if d.flt.fatal then some .poison
  else none

/-- An OPK is decoded (R266). Its NOTE is ignored (Table 4.3). -/
def Dev.decodeK (d : Dev) (r : Req) (kidx : BitVec 8) (window : BitVec 4) (length : BitVec 32) : Dev :=
  if d.decodes then
    d.tickRid.hold (mkHeld .k r (.opk kidx window length) (d.decideK r.line kidx window length) d.txn.nextRid d.cc)
  else d

/-- OPK (R99, R266). -/
def execOpk (mtag : BitVec 16) (source : BitVec 56) (kidx : BitVec 8) (window : BitVec 4) (length : BitVec 32)
    (low : BitVec 12) (s : State) : Host.Outcome State Fault Refusal :=
  let h : Slot := mtag ++ source ++ kidx ++ window ++ length ++ low
  devNext s (match opkOp h with
    | .opk k w n => s.dev.decodeK { reqOf h with note := 0 } k w n
    | _ => s.dev)

/-- The verdict of an OPK (R104, R267). One accepted in FATAL is not performed (R269). -/
def Dev.verdictK (d : Dev) (h : Held) (ok : Bool) : Dev :=
  if !ok then d.modTxn (fun x => { x with held := dropFirst (· = h) x.held })
  else
    let d1 := (d.openTrack .k h.r.tag).unhold h
    match h.decided, h.op with
    | some st, _ => d1.respondRefused .k h.r.tag st (rspK h.r.tag h.r.src st 0)
    | none, .opk kidx w len =>
      if d1.flt.fatal then d1.respondRefused .k h.r.tag .poison (rspK h.r.tag h.r.src .poison 0)
      else { d1 with kq := d1.kq ++ [{ kidx := kidx, window := w, tag := h.r.tag, src := h.r.src, line := h.r.line,
                                       length := len, pf := false, onE := none }] }
    | none, _ => d1

/-! ### Verdicts (R104, R110, R111) -/

/-- The verdict of the oldest request of `vc` and `tag` that has none. -/
def State.verdictAt (s : State) (vc : Vc) (tag : BitVec 12) (ok : Bool) : State :=
  let d := s.dev
  match d.txn.held.find? (fun h => h.vc = vc && h.r.tag = tag && h.isHub && !h.accepted && !h.taken) with
  | none => s
  | some h =>
    match vc with
    | .q => { s with dev := d.verdictQ h ok }
    | .k => { s with dev := d.verdictK h ok }
    | .m =>
      let d1 := if ok then
          (d.openTrack .m tag).modTxn (fun x => { x with held := modFirst (· = h) (fun y => { y with accepted := true }) x.held })
        else d.modTxn (fun x => { x with held := dropFirst (· = h) x.held })
      State.serveM d1.txn.held.length { s with dev := d1 }

/-- VERDICT (R104, R110, R111). -/
def execVerdict (vc : Vc) (tag : BitVec 12) (accepted : Bool) (s : State) : Host.Outcome State Fault Refusal :=
  stNext s (s.verdictAt vc tag accepted)

/-! ### Register accesses of engines (R263) -/

/-- The register address in [23:0] of a register. -/
def regAddr (v : Word) : Nat := fld v 0 24

/-- RRD (R263). -/
def execRrd (e : Fin 72) (rd ra : Fin 16) (s : State) : Host.Outcome State Fault Refusal :=
  s.engineRuns e (.rrd e rd ra) (
    let d := s.dev
    let x := d.engs[e]
    devNext s (if d.engIssues e then
      d.instrTrap e (!x.isRoleEngine) 3 (fun d => d.instrW e rd (fun y => s.readReg (regAddr (y.w ra)))) else d))

/-- FNMASK allows a role engine to write function `fn`. -/
def Dev.fnMask (d : Dev) (e : Fin 72) (fn : Nat) : Bool := fn ≤ 16 && (d.roleCfg d.engs[e].fromE.toNat 0x0C 4).testBit fn

/-- RWR (R263): the write, then the next instruction. -/
def execRwr (e : Fin 72) (ra rb : Fin 16) (s : State) : Host.Outcome State Fault Refusal :=
  s.engineRuns e (.rwr e ra rb) (
    let d := s.dev
    let x := d.engs[e]
    let a := regAddr (x.w ra)
    stNext s
      (if !d.engIssues e then s
       else if !x.isRoleEngine || !d.fnMask e (fnOf a) then { s with dev := d.trap e 3 }
       else { s with dev := d.modEng e (fun y => y.next) }.writeNow (.engine e) a (x.w rb)))

/-! ### The flit boundary and link-up -/

/-- FLIT_TX (R69 to R73): what waited for an RSP_M that left goes on (R27, R91, R318). -/
def execFlitTx (s : State) : Host.Outcome State Fault Refusal :=
  let q := s.dev.flitBoundary
  devNext s (q.2.foldl Dev.runAfter q.1)

/-- The link is up again after step 6 of a full reset: the sequence ends (Table 12.4). -/
def Dev.resumeEnd (d : Dev) : Dev :=
  if d.rst.step = 6 then ({ d with rst := { d.rst with step := 0 } }).sillReset 6 else d

/-- LINK_UP (R93): a training with lanes agreed, or the relock of a standby in wake step 8 (R316, R323). -/
def execLinkUp (s : State) : Host.Outcome State Fault Refusal :=
  let d := s.dev
  let waking := d.pwrPhase = 3 && d.pwr.wakeStep = 8
  devNext s
    (if d.link.standby then
      (if waking then (d.modLink (fun l => { l with standby := false })).wakeDone else d)
     else if d.link.st = .training && d.link.rate ≠ 0 then
      let d1 := d.linkUpCore.resumeEnd
      if waking then d1.wakeDone else d1
     else d)

/-! ### I3C and TAP accesses -/

/-- A register as I3C reads it (R25). -/
def State.i3cRead (s : State) (a : Nat) : Word := if i3cReadable a && s.dev.regOpen then s.readReg a else 0

/-- I3C_REG_READ (R348): N registers of 6 bytes, [7:0] first; another N has no meaning the spec gives (log 10). -/
def execI3cRegRead (a : BitVec 24) (n : BitVec 4) (s : State) : Host.Outcome State Fault Refusal :=
  let d := s.dev
  let vals := (List.range n.toNat).map (fun k =>
    if burstPlain a.toNat n.toNat then s.i3cRead (a.toNat + k) else Config.freeWord (d.freeCtr + k))
  devNext s (if d.i3cOn then
    { d.modSide (fun x => { x with i3cOut := vals.flatMap (fun (v : Word) => leBytes 6 v.toNat) }) with
      freeCtr := d.freeCtr + n.toNat } else d)

/-- TAP_REG_ACCESS (R333): the same registers as any master, while TAP debug is open. -/
def execTapRegAccess (a : BitVec 24) (w : Option Word) (s : State) : Host.Outcome State Fault Refusal :=
  .next
    (if !s.tapOpen 2 then s.tapDenied
     else if !s.dev.live || !s.dev.regOpen then s
     else match w with
       | some v => s.writeNow .tap a.toNat v
       | none => { s with dev := s.dev.modSide (fun x => { x with tapOut := s.readReg a.toNat, tapBypass := false }) })

end Sys2Proof.Machine
end

