-- ==== Sys2Proof/Machine/Dispatch.lean ====
section
/-! DEFINITION. One arm per command: which meaning it has. -/

namespace Sys2Proof.Machine

/-- The effect of a command on everything but the queue. -/
def exec (i : Instr) (s : State) : Host.Outcome State Fault Refusal :=
  match i with
  | .powerOn found => Sys2Proof.Machine.execPowerOn found s
  | .resetNFall => Sys2Proof.Machine.execResetNFall s
  | .drainEnd ue => Sys2Proof.Machine.execDrainEnd ue s
  | .drainTimeout => Sys2Proof.Machine.execDrainTimeout s
  | .retainEnd => Sys2Proof.Machine.execRetainEnd s
  | .coreResetEnd bootsel => Sys2Proof.Machine.execCoreResetEnd bootsel s
  | .resetNRise bootsel => Sys2Proof.Machine.execResetNRise bootsel s
  | .accordLoadFail => Sys2Proof.Machine.execAccordLoadFail s
  | .sourceTimeout => Sys2Proof.Machine.execSourceTimeout s
  | .flashTimeout => Sys2Proof.Machine.execFlashTimeout s
  | .accordApply => Sys2Proof.Machine.execAccordApply s
  | .tileRemovePowerOff t => Sys2Proof.Machine.execTileRemovePowerOff t s
  | .tileRampDone t => Sys2Proof.Machine.execTileRampDone t s
  | .pushStart m v => Sys2Proof.Machine.execPushStart m v s
  | .pushData m v => Sys2Proof.Machine.execPushData m v s
  | .cgWrite m a v => Sys2Proof.Machine.execCgWrite m a v s
  | .cgCommit m v => Sys2Proof.Machine.execCgCommit m v s
  | .cgAbort m v => Sys2Proof.Machine.execCgAbort m v s
  | .cgLand g code => Sys2Proof.Machine.execCgLand g code s
  | .cgIdleHold g code => Sys2Proof.Machine.execCgIdleHold g code s
  | .regWrite m a v => Sys2Proof.Machine.execRegWrite m a v s
  | .dataFlitRx lanes => Sys2Proof.Machine.execDataFlitRx lanes s
  | .flitTx => Sys2Proof.Machine.execFlitTx s
  | .nak seq => Sys2Proof.Machine.execNak seq s
  | .nakTimeout => Sys2Proof.Machine.execNakTimeout s
  | .ackTimeout => Sys2Proof.Machine.execAckTimeout s
  | .framingLoss => Sys2Proof.Machine.execFramingLoss s
  | .rttProbe stamp => Sys2Proof.Machine.execRttProbe stamp s
  | .rttEcho stamp cc => Sys2Proof.Machine.execRttEcho stamp cc s
  | .testResult lane pass errors => Sys2Proof.Machine.execTestResult lane pass errors s
  | .linkReset rate => Sys2Proof.Machine.execLinkReset rate s
  | .fullReset key => Sys2Proof.Machine.execFullReset key s
  | .laneLockLoss lane => Sys2Proof.Machine.execLaneLockLoss lane s
  | .laneMarginThresh lane => Sys2Proof.Machine.execLaneMarginThresh lane s
  | .laneWindowEnd => Sys2Proof.Machine.execLaneWindowEnd s
  | .laneSwap d lane => Sys2Proof.Machine.execLaneSwap d lane s
  | .laneDrop d lane => Sys2Proof.Machine.execLaneDrop d lane s
  | .laneAdd d lane => Sys2Proof.Machine.execLaneAdd d lane s
  | .laneTest d lane => Sys2Proof.Machine.execLaneTest d lane s
  | .laneTestStart m v => Sys2Proof.Machine.execLaneTestStart m v s
  | .laneTestDone errors => Sys2Proof.Machine.execLaneTestDone errors s
  | .linkCtlReset m v => Sys2Proof.Machine.execLinkCtlReset m v s
  | .trainingEnd passRx passTx => Sys2Proof.Machine.execTrainingEnd passRx passTx s
  | .trainingRetryTimer testRx testTx => Sys2Proof.Machine.execTrainingRetryTimer testRx testTx s
  | .linkUp => Sys2Proof.Machine.execLinkUp s
  | .resyncSend => Sys2Proof.Machine.execResyncSend s
  | .resyncRepeat => Sys2Proof.Machine.execResyncRepeat s
  | .resyncAck m v => Sys2Proof.Machine.execResyncAck m v s
  | .rd h => Sys2Proof.Machine.execRd h s
  | .wr h data => Sys2Proof.Machine.execWr h data s
  | .wrm h mask data => Sys2Proof.Machine.execWrm h mask data s
  | .atomAdd common fields operand => Sys2Proof.Machine.execAtomAdd common fields operand s
  | .atomSwap common fields operand => Sys2Proof.Machine.execAtomSwap common fields operand s
  | .atomCas common fields compare value => Sys2Proof.Machine.execAtomCas common fields compare value s
  | .flush common fields => Sys2Proof.Machine.execFlush common fields s
  | .opk mtag source kidx window length low => Sys2Proof.Machine.execOpk mtag source kidx window length low s
  | .mrd common waddr count low => Sys2Proof.Machine.execMrd common waddr count low s
  | .mwr common waddr count low data => Sys2Proof.Machine.execMwr common waddr count low data s
  | .verdict vc tag accepted => Sys2Proof.Machine.execVerdict vc tag accepted s
  | .schedPick p bad => Sys2Proof.Machine.execSchedPick p bad s
  | .readDataCapture sub burst => Sys2Proof.Machine.execReadDataCapture sub burst s
  | .flushDone tag => Sys2Proof.Machine.execFlushDone tag s
  | .writeAgeDrain p q => Sys2Proof.Machine.execWriteAgeDrain p q s
  | .pageTimeout b => Sys2Proof.Machine.execPageTimeout b s
  | .starvePromote p q => Sys2Proof.Machine.execStarvePromote p q s
  | .qosWindowEnd n => Sys2Proof.Machine.execQosWindowEnd n s
  | .attnAck m v => Sys2Proof.Machine.execAttnAck m v s
  | .refreshInterval t => Sys2Proof.Machine.execRefreshInterval t s
  | .refreshUnit t => Sys2Proof.Machine.execRefreshUnit t s
  | .refreshUnitDone t => Sys2Proof.Machine.execRefreshUnitDone t s
  | .trackerClear t => Sys2Proof.Machine.execTrackerClear t s
  | .tempPoll t hot => Sys2Proof.Machine.execTempPoll t hot s
  | .rtBurstEnd p => Sys2Proof.Machine.execRtBurstEnd p s
  | .geyserStart p => Sys2Proof.Machine.execGeyserStart p s
  | .penaltyEnd b => Sys2Proof.Machine.execPenaltyEnd b s
  | .srIdleEntry p => Sys2Proof.Machine.execSrIdleEntry p s
  | .srDrainDone p => Sys2Proof.Machine.execSrDrainDone p s
  | .srClockStop p => Sys2Proof.Machine.execSrClockStop p s
  | .srExit p => Sys2Proof.Machine.execSrExit p s
  | .srxDone p => Sys2Proof.Machine.execSrxDone p s
  | .lostClear m p k v => Sys2Proof.Machine.execLostClear m p k v s
  | .alertFall sub => Sys2Proof.Machine.execAlertFall sub s
  | .alertRise sub => Sys2Proof.Machine.execAlertRise sub s
  | .alertWinClose sub => Sys2Proof.Machine.execAlertWinClose sub s
  | .alertStuck sub => Sys2Proof.Machine.execAlertStuck sub s
  | .csSample m sub v => Sys2Proof.Machine.execCsSample m sub v s
  | .caSample m sub v => Sys2Proof.Machine.execCaSample m sub v s
  | .wlevel m sub v => Sys2Proof.Machine.execWlevel m sub v s
  | .rdPattern m sub v => Sys2Proof.Machine.execRdPattern m sub v s
  | .wrArray m sub v => Sys2Proof.Machine.execWrArray m sub v s
  | .rdCompare m sub v => Sys2Proof.Machine.execRdCompare m sub v s
  | .mrw m sub v => Sys2Proof.Machine.execMrw m sub v s
  | .mrr m sub v => Sys2Proof.Machine.execMrr m sub v s
  | .testOpDone sub sample bursts => Sys2Proof.Machine.execTestOpDone sub sample bursts s
  | .tileReadyWrite m t v => Sys2Proof.Machine.execTileReadyWrite m t v s
  | .calStart m p v => Sys2Proof.Machine.execCalStart m p v s
  | .calRefCheck p res vref => Sys2Proof.Machine.execCalRefCheck p res vref s
  | .calPauseEnd p codes0 codes1 => Sys2Proof.Machine.execCalPauseEnd p codes0 codes1 s
  | .calTrimLand sub => Sys2Proof.Machine.execCalTrimLand sub s
  | .calDueTimer p => Sys2Proof.Machine.execCalDueTimer p s
  | .deadWindowEnd sub => Sys2Proof.Machine.execDeadWindowEnd sub s
  | .declare m sub v => Sys2Proof.Machine.execDeclare m sub v s
  | .journalRecordDone ok => Sys2Proof.Machine.execJournalRecordDone ok s
  | .remapMove m sub v => Sys2Proof.Machine.execRemapMove m sub v s
  | .remapReturn m sub v => Sys2Proof.Machine.execRemapReturn m sub v s
  | .remapDone sub => Sys2Proof.Machine.execRemapDone sub s
  | .softPpr m sub v => Sys2Proof.Machine.execSoftPpr m sub v s
  | .hardPpr m sub v => Sys2Proof.Machine.execHardPpr m sub v s
  | .pprDone sub => Sys2Proof.Machine.execPprDone sub s
  | .fill sub => Sys2Proof.Machine.execFill sub s
  | .fillDone sub => Sys2Proof.Machine.execFillDone sub s
  | .selftest sub upset => Sys2Proof.Machine.execSelftest sub upset s
  | .injectArm m sub v => Sys2Proof.Machine.execInjectArm m sub v s
  | .keyLoad m v => Sys2Proof.Machine.execKeyLoad m v s
  | .keyLoadDone => Sys2Proof.Machine.execKeyLoadDone s
  | .keyClear m v => Sys2Proof.Machine.execKeyClear m v s
  | .rotationStart m v => Sys2Proof.Machine.execRotationStart m v s
  | .pmcMissFill idx line => Sys2Proof.Machine.execPmcMissFill idx line s
  | .tierWriteMerge idx lines => Sys2Proof.Machine.execTierWriteMerge idx lines s
  | .tierEntrySwitch idx => Sys2Proof.Machine.execTierEntrySwitch idx s
  | .granuleFree idx => Sys2Proof.Machine.execGranuleFree idx s
  | .promote ma m v => Sys2Proof.Machine.execPromote ma m v s
  | .demote ma m v => Sys2Proof.Machine.execDemote ma m v s
  | .repack ma m v => Sys2Proof.Machine.execRepack ma m v s
  | .moveDone m lines => Sys2Proof.Machine.execMoveDone m lines s
  | .nop e => Sys2Proof.Machine.execNop e s
  | .add e rd ra rb => Sys2Proof.Machine.execAdd e rd ra rb s
  | .sub e rd ra rb => Sys2Proof.Machine.execSub e rd ra rb s
  | .and e rd ra rb => Sys2Proof.Machine.execAnd e rd ra rb s
  | .or e rd ra rb => Sys2Proof.Machine.execOr e rd ra rb s
  | .xor e rd ra rb => Sys2Proof.Machine.execXor e rd ra rb s
  | .shl e rd ra rb => Sys2Proof.Machine.execShl e rd ra rb s
  | .shr e rd ra rb => Sys2Proof.Machine.execShr e rd ra rb s
  | .sar e rd ra rb => Sys2Proof.Machine.execSar e rd ra rb s
  | .mul e rd ra rb => Sys2Proof.Machine.execMul e rd ra rb s
  | .sltu e rd ra rb => Sys2Proof.Machine.execSltu e rd ra rb s
  | .addi e rd ra imm => Sys2Proof.Machine.execAddi e rd ra imm s
  | .andi e rd ra imm => Sys2Proof.Machine.execAndi e rd ra imm s
  | .ori e rd ra imm => Sys2Proof.Machine.execOri e rd ra imm s
  | .ldi e rd ra imm => Sys2Proof.Machine.execLdi e rd ra imm s
  | .lih e rd ra imm => Sys2Proof.Machine.execLih e rd ra imm s
  | .beq e ra rb target => Sys2Proof.Machine.execBeq e ra rb target s
  | .bne e ra rb target => Sys2Proof.Machine.execBne e ra rb target s
  | .blt e ra rb target => Sys2Proof.Machine.execBlt e ra rb target s
  | .bltu e ra rb target => Sys2Proof.Machine.execBltu e ra rb target s
  | .jmp e target => Sys2Proof.Machine.execJmp e target s
  | .call e target => Sys2Proof.Machine.execCall e target s
  | .jr e ra => Sys2Proof.Machine.execJr e ra s
  | .ldw e rd ra imm => Sys2Proof.Machine.execLdw e rd ra imm s
  | .stw e rs ra imm => Sys2Proof.Machine.execStw e rs ra imm s
  | .ext e rd rb slot off width => Sys2Proof.Machine.execExt e rd rb slot off width s
  | .ins e rd rb slot off width => Sys2Proof.Machine.execIns e rd rb slot off width s
  | .szero e slot => Sys2Proof.Machine.execSzero e slot s
  | .lget e ra slot => Sys2Proof.Machine.execLget e ra slot s
  | .lput e ra slot => Sys2Proof.Machine.execLput e ra slot s
  | .lineAccessDone e slot status line => Sys2Proof.Machine.execLineAccessDone e slot status line s
  | .lwait e rd slot all => Sys2Proof.Machine.execLwait e rd slot all s
  | .latomAdd e rd ra rb line => Sys2Proof.Machine.execLatomAdd e rd ra rb line s
  | .latomSwap e rd ra rb line => Sys2Proof.Machine.execLatomSwap e rd ra rb line s
  | .latomCas e rd ra rb line => Sys2Proof.Machine.execLatomCas e rd ra rb line s
  | .lpois e rd ra => Sys2Proof.Machine.execLpois e rd ra s
  | .lstepRebuild e rd ra line => Sys2Proof.Machine.execLstepRebuild e rd ra line s
  | .lstepScrub e rd ra line => Sys2Proof.Machine.execLstepScrub e rd ra line s
  | .lstepRotate e rd ra line => Sys2Proof.Machine.execLstepRotate e rd ra line s
  | .setwin e imm => Sys2Proof.Machine.execSetwin e imm s
  | .padd e rd ra rb => Sys2Proof.Machine.execPadd e rd ra rb s
  | .psub e rd ra rb => Sys2Proof.Machine.execPsub e rd ra rb s
  | .fadd e rd ra rb => Sys2Proof.Machine.execFadd e rd ra rb s
  | .fmin e rd ra rb => Sys2Proof.Machine.execFmin e rd ra rb s
  | .fmax e rd ra rb => Sys2Proof.Machine.execFmax e rd ra rb s
  | .send e ra => Sys2Proof.Machine.execSend e ra s
  | .markDone e v => Sys2Proof.Machine.execMarkDone e v s
  | .markFail e v => Sys2Proof.Machine.execMarkFail e v s
  | .checkDone e v => Sys2Proof.Machine.execCheckDone e v s
  | .waite e rd imm => Sys2Proof.Machine.execWaite e rd imm s
  | .halt e => Sys2Proof.Machine.execHalt e s
  | .beat e => Sys2Proof.Machine.execBeat e s
  | .tmr e ra => Sys2Proof.Machine.execTmr e ra s
  | .rrd e rd ra => Sys2Proof.Machine.execRrd e rd ra s
  | .rwr e ra rb => Sys2Proof.Machine.execRwr e ra rb s
  | .tmrExpire e => Sys2Proof.Machine.execTmrExpire e s
  | .ageTick => Sys2Proof.Machine.execAgeTick s
  | .mbox m e v => Sys2Proof.Machine.execMbox m e v s
  | .kernelDispatch line => Sys2Proof.Machine.execKernelDispatch line s
  | .kernelBudgetExceeded e => Sys2Proof.Machine.execKernelBudgetExceeded e s
  | .heartbeatMiss e => Sys2Proof.Machine.execHeartbeatMiss e s
  | .engineFence m e v => Sys2Proof.Machine.execEngineFence m e v s
  | .engineRestart m e v => Sys2Proof.Machine.execEngineRestart m e v s
  | .faultOccurrence sub r level inA inB => Sys2Proof.Machine.execFaultOccurrence sub r level inA inB s
  | .path sub => Sys2Proof.Machine.execPath sub s
  | .disagree => Sys2Proof.Machine.execDisagree s
  | .faultWindowEnd sub => Sys2Proof.Machine.execFaultWindowEnd sub s
  | .pendingClear m k v => Sys2Proof.Machine.execPendingClear m k v s
  | .firstClear m v => Sys2Proof.Machine.execFirstClear m v s
  | .wedged sub => Sys2Proof.Machine.execWedged sub s
  | .sillageWrite => Sys2Proof.Machine.execSillageWrite s
  | .timewrap => Sys2Proof.Machine.execTimewrap s
  | .sillageResume m v => Sys2Proof.Machine.execSillageResume m v s
  | .sillageLatch m v => Sys2Proof.Machine.execSillageLatch m v s
  | .identFullReset m v => Sys2Proof.Machine.execIdentFullReset m v s
  | .enterP1 m => Sys2Proof.Machine.execEnterP1 m s
  | .enterP2 m => Sys2Proof.Machine.execEnterP2 m s
  | .enterP3 m => Sys2Proof.Machine.execEnterP3 m s
  | .blockAgree => Sys2Proof.Machine.execBlockAgree s
  | .pollTimeout => Sys2Proof.Machine.execPollTimeout s
  | .wakeNFall => Sys2Proof.Machine.execWakeNFall s
  | .krxSignalWake => Sys2Proof.Machine.execKrxSignalWake s
  | .wakeTimer => Sys2Proof.Machine.execWakeTimer s
  | .wakeStepEnd crcOk => Sys2Proof.Machine.execWakeStepEnd crcOk s
  | .wakeFail => Sys2Proof.Machine.execWakeFail s
  | .pwrfail => Sys2Proof.Machine.execPwrfail s
  | .pwrfailRise => Sys2Proof.Machine.execPwrfailRise s
  | .powerLoss => Sys2Proof.Machine.execPowerLoss s
  | .sensorRead temps => Sys2Proof.Machine.execSensorRead temps s
  | .throttleStepDown => Sys2Proof.Machine.execThrottleStepDown s
  | .thermtrip => Sys2Proof.Machine.execThermtrip s
  | .vendorKey tok blown => Sys2Proof.Machine.execVendorKey tok blown s
  | .advance tok blown => Sys2Proof.Machine.execAdvance tok blown s
  | .ownerKey tok blown => Sys2Proof.Machine.execOwnerKey tok blown s
  | .ownerKwk tok blown => Sys2Proof.Machine.execOwnerKwk tok blown s
  | .enterField tok blown => Sys2Proof.Machine.execEnterField tok blown s
  | .testUnlock tok blown => Sys2Proof.Machine.execTestUnlock tok blown s
  | .revoke tok blown => Sys2Proof.Machine.execRevoke tok blown s
  | .floor tok blown => Sys2Proof.Machine.execFloor tok blown s
  | .returnOwner tok blown => Sys2Proof.Machine.execReturnOwner tok blown s
  | .returnVendor tok blown => Sys2Proof.Machine.execReturnVendor tok blown s
  | .void tok blown => Sys2Proof.Machine.execVoid tok blown s
  | .flashErase m v => Sys2Proof.Machine.execFlashErase m v s
  | .flashProgram m v => Sys2Proof.Machine.execFlashProgram m v s
  | .flashRead m v => Sys2Proof.Machine.execFlashRead m v s
  | .flashOpDone ok => Sys2Proof.Machine.execFlashOpDone ok s
  | .i3cEntdaa addr => Sys2Proof.Machine.execI3cEntdaa addr s
  | .i3cRegRead a n => Sys2Proof.Machine.execI3cRegRead a n s
  | .i3cSillageRead index => Sys2Proof.Machine.execI3cSillageRead index s
  | .i3cPushOpen => Sys2Proof.Machine.execI3cPushOpen s
  | .i3cPushData bytes => Sys2Proof.Machine.execI3cPushData bytes s
  | .idcode => Sys2Proof.Machine.execIdcode s
  | .extest => Sys2Proof.Machine.execExtest s
  | .sample pins => Sys2Proof.Machine.execSample pins s
  | .preload bits => Sys2Proof.Machine.execPreload bits s
  | .tapRegAccess a w => Sys2Proof.Machine.execTapRegAccess a w s
  | .sourceQuiet sub => Sys2Proof.Machine.execSourceQuiet sub s
  | .zeroiseDone => Sys2Proof.Machine.execZeroiseDone s
  | .tierInitDone => Sys2Proof.Machine.execTierInitDone s
  | .retainTimeout failed => Sys2Proof.Machine.execRetainTimeout failed s
  | .acTest => Sys2Proof.Machine.execAcTest s
  | .badformat tok => Sys2Proof.Machine.execBadformat tok s

end Sys2Proof.Machine
end

