-- ==== Sys2Proof/Safety.lean ====
section
/-! DEFINITION. What counts as a safe step, and the words in which the statements are made: when an engine executes an
instruction, what an instruction computes by Tables 10.8 and 10.9, and which parts of the state a command leaves alone. -/

namespace Sys2Proof.Machine

/-- The outcome is a next state. -/
def isNext (o : Host.Outcome State Fault Refusal) : Bool :=
  match o with
  | .next _ => true
  | .fault _ => false
  | .refused _ => false

/-! ### Engines -/

/-- Engine `e` executes instruction `i` next: the block works, the engine runs, and the word at its PC spells `i`. -/
def State.executes (s : State) (e : Fin 72) (i : Instr) : Prop :=
  s.dev.live = true ∧ s.dev.engRuns e = true ∧ s.dev.fetched e = some i

/-- The state with engine `e` changed and nothing else. -/
def State.withEng (s : State) (e : Fin 72) (x : Engine) : State :=
  { s with dev := { s.dev with engs := s.dev.engs.set e x } }

/-- `y` is `x` but for its general registers and its PC. -/
def Engine.sameButRegs (x y : Engine) : Prop := y = { x with regs := y.regs, pc := y.pc }

/-- The registers of `y` are those of `x` but for `rd`, which holds `v`; w0 stays zero (R255). -/
def Engine.writes (x y : Engine) (rd : Fin 16) (v : Word) : Prop :=
  ∀ k, y.w k = if k = rd ∧ k ≠ 0 then v else x.w k

/-- What the instructions of engine `e` that write one register compute (Table 10.8): the register and the value. -/
def aluResult (e : Fin 72) (x : Engine) : Instr → Option (Fin 16 × Word)
  | .add f rd ra rb => if f = e then some (rd, BitVec.ofNat 48 ((x.w ra).toNat + (x.w rb).toNat)) else none
  | .sub f rd ra rb => if f = e then some (rd, BitVec.ofInt 48 ((x.w ra).toNat - (x.w rb).toNat)) else none
  | .and f rd ra rb => if f = e then some (rd, BitVec.ofNat 48 ((x.w ra).toNat &&& (x.w rb).toNat)) else none
  | .or f rd ra rb => if f = e then some (rd, BitVec.ofNat 48 ((x.w ra).toNat ||| (x.w rb).toNat)) else none
  | .xor f rd ra rb => if f = e then some (rd, BitVec.ofNat 48 ((x.w ra).toNat ^^^ (x.w rb).toNat)) else none
  | .shl f rd ra rb =>
    if f = e then some (rd, BitVec.ofNat 48 ((x.w ra).toNat * 2 ^ ((x.w rb).toNat % 64))) else none
  | .shr f rd ra rb =>
    if f = e then some (rd, BitVec.ofNat 48 ((x.w ra).toNat / 2 ^ ((x.w rb).toNat % 64))) else none
  | .sar f rd ra rb =>
    if f = e then some (rd, BitVec.ofInt 48 ((x.w ra).toInt / 2 ^ ((x.w rb).toNat % 64))) else none
  | .mul f rd ra rb => if f = e then some (rd, BitVec.ofNat 48 ((x.w ra).toNat * (x.w rb).toNat)) else none
  | .sltu f rd ra rb => if f = e then some (rd, if (x.w ra).toNat < (x.w rb).toNat then 1 else 0) else none
  | .addi f rd ra imm => if f = e then some (rd, BitVec.ofInt 48 ((x.w ra).toInt + imm.toInt)) else none
  | .andi f rd ra imm => if f = e then some (rd, x.w ra &&& BitVec.ofInt 48 imm.toInt) else none
  | .ori f rd ra imm => if f = e then some (rd, x.w ra ||| BitVec.ofInt 48 imm.toInt) else none
  | .ldi f rd ra imm => if f = e ∧ ra = 0 then some (rd, BitVec.ofInt 48 imm.toInt) else none
  | .lih f rd ra imm =>
    if f = e ∧ ra = 0 then
      some (rd, BitVec.ofNat 48 ((x.w rd).toNat % 2 ^ 34 + imm.toNat % 2 ^ 14 * 2 ^ 34)) else none
  | .ldw f rd ra imm =>
    if f = e then some (rd, x.data ((BitVec.ofInt 48 ((x.w ra).toInt + imm.toInt)).toNat % 16384)) else none
  | _ => none

/-- The instructions of engine `e` on pairs, whose registers are even: destination and value. -/
def pairResult (e : Fin 72) (x : Engine) : Instr → Option (Fin 16 × BitVec 64)
  | .padd f rd ra rb =>
    if f = e ∧ rd.val % 2 = 0 ∧ ra.val % 2 = 0 ∧ rb.val % 2 = 0 then
      some (rd, BitVec.ofNat 64 ((x.pair ra).toNat + (x.pair rb).toNat)) else none
  | .psub f rd ra rb =>
    if f = e ∧ rd.val % 2 = 0 ∧ ra.val % 2 = 0 ∧ rb.val % 2 = 0 then
      some (rd, BitVec.ofInt 64 ((x.pair ra).toNat - (x.pair rb).toNat)) else none
  | .fadd f rd ra rb =>
    if f = e ∧ rd.val % 2 = 0 ∧ ra.val % 2 = 0 ∧ rb.val % 2 = 0 then some (rd, fpAdd (x.pair ra) (x.pair rb)) else none
  | .fmin f rd ra rb =>
    if f = e ∧ rd.val % 2 = 0 ∧ ra.val % 2 = 0 ∧ rb.val % 2 = 0 then some (rd, fpMin (x.pair ra) (x.pair rb)) else none
  | .fmax f rd ra rb =>
    if f = e ∧ rd.val % 2 = 0 ∧ ra.val % 2 = 0 ∧ rb.val % 2 = 0 then some (rd, fpMax (x.pair ra) (x.pair rb)) else none
  | _ => none

/-- The branches of engine `e`: the PC that follows. -/
def branchTarget (e : Fin 72) (x : Engine) : Instr → Option (BitVec 12)
  | .beq f ra rb t => if f = e then some (if x.w ra = x.w rb then t else x.pc + 1) else none
  | .bne f ra rb t => if f = e then some (if x.w ra = x.w rb then x.pc + 1 else t) else none
  | .blt f ra rb t => if f = e then some (if (x.w ra).toInt < (x.w rb).toInt then t else x.pc + 1) else none
  | .bltu f ra rb t => if f = e then some (if (x.w ra).toNat < (x.w rb).toNat then t else x.pc + 1) else none
  | .jmp f t => if f = e then some t else none
  | .jr f ra => if f = e then some (BitVec.ofNat 12 (x.w ra).toNat) else none
  | _ => none

/-- The pair of even register `rd` and the register after it holds `v` in `y`, bits [47:16] of the upper one zero; the
other registers are those of `x` (R255). -/
def Engine.writesPair (x y : Engine) (rd : Fin 16) (v : BitVec 64) : Prop :=
  ∀ k, y.w k = if k = 0 then 0 else if k = rd then v.setWidth 48 else if k = rd + 1 then (v >>> 48).setWidth 48 else x.w k

/-- The address of LDW and STW: base plus sign-extended immediate, modulo 16384 (Table 10.8). -/
def dataIndex (base : Word) (imm : BitVec 34) : Nat := (BitVec.ofInt 48 (base.toInt + imm.toInt)).toNat % 16384

/-- The field of a slot that EXT and INS name (R258): its first bit. -/
def fieldFrom (x : Engine) (off : BitVec 9) (rb : Fin 16) : Nat := (off.toNat + (x.w rb).toNat) % 512

/-- An EXT or INS that no rule makes trap: a width of 8 to 64, above 48 with an even register (R257, R258). -/
def fieldOk (rd : Fin 16) (width : BitVec 7) : Prop :=
  8 ≤ width.toNat ∧ width.toNat ≤ 64 ∧ (48 < width.toNat → rd.val % 2 = 0)

/-! ### What a command leaves alone -/

/-- Every register outside `l` reads in `y` as in `x`. -/
def Dev.regsBut (x y : Dev) (l : List Nat) : Prop := ∀ a, a ∉ l → y.reg a = x.reg a

/-- Nothing of the device but its register file, Sillage's queue and the registers' `l` differs. -/
def Dev.onlyRegs (x y : Dev) (l : List Nat) : Prop := y = { x with rf := y.rf, sill := y.sill } ∧ x.regsBut y l

/-- Bit `i` of every field of `f` that is blown is blown in `g`; UID and the reading of `f` are those of `g` (R331). -/
def Fuses.within (f g : Fuses) : Prop :=
  g.uid = f.uid ∧ g.unreadable = f.unreadable ∧
  f.lcVendor &&& g.lcVendor = f.lcVendor ∧ f.lcField &&& g.lcField = f.lcField ∧
  f.lcReturned &&& g.lcReturned = f.lcReturned ∧ f.lcVoid &&& g.lcVoid = f.lcVoid ∧
  (∀ k : Fin 8, f.keys[k] &&& g.keys[k] = f.keys[k]) ∧ f.revoked &&& g.revoked = f.revoked ∧ f.kwk &&& g.kwk = f.kwk ∧
  (∀ i : Fin 32, f.floors[i] &&& g.floors[i] = f.floors[i]) ∧ f.zdone &&& g.zdone = f.zdone

/-- Commands that reach the block through its TAP, which works without the core. -/
def isTap : Instr → Bool
  | .idcode => true
  | .extest => true
  | .sample _ => true
  | .preload _ => true
  | .acTest => true
  | .tapRegAccess _ _ => true
  | _ => false

/-- Commands that may change the fuses, the fuse cells or the flash. -/
def touchesStore : Instr → Bool
  | .powerOn _ => true
  | .powerLoss => true
  | .pwrfail => true
  | .pwrfailRise => true
  | .retainEnd => true
  | .retainTimeout _ => true
  | .wakeStepEnd _ => true
  | .wakeFail => true
  | .journalRecordDone _ => true
  | .regWrite _ _ _ => true
  | .verdict _ _ _ => true
  | .rwr _ _ _ => true
  | .tapRegAccess _ _ => true
  | .vendorKey _ _ => true
  | .advance _ _ => true
  | .ownerKey _ _ => true
  | .ownerKwk _ _ => true
  | .enterField _ _ => true
  | .testUnlock _ _ => true
  | .revoke _ _ => true
  | .floor _ _ => true
  | .returnOwner _ _ => true
  | .returnVendor _ _ => true
  | .void _ _ => true
  | .badformat _ => true
  | .zeroiseDone => true
  | .flashOpDone _ => true
  | _ => false

/-- Writes that count only from the hub: the master, for the commands that carry such a write. -/
def hubOnly : Instr → Option Master
  | .keyLoad m _ => some m
  | .keyClear m _ => some m
  | .flashErase m _ => some m
  | .flashProgram m _ => some m
  | .flashRead m _ => some m
  | .pendingClear m _ _ => some m
  | .firstClear m _ => some m
  | .engineFence m _ _ => some m
  | .engineRestart m _ _ => some m
  | .mbox m _ _ => some m
  | .identFullReset m _ => some m
  | .enterP1 m => some m
  | .enterP2 m => some m
  | .enterP3 m => some m
  | _ => none

/-! ### Engines: accesses and events -/

/-- No request, access, tier access or step is held anywhere. -/
def Dev.calm (d : Dev) : Prop := d.txn.held = [] ∧ d.tier.ops = [] ∧ d.jobs = []

/-- Nothing waits for entries, and the port of `loc` takes an access of note `n` to it at once: it runs, has an entry of
each kind, and holds nothing of the line; the line is neither locked nor fenced, and its subchannel is filled (R105, R130,
R216, R291). -/
def Dev.takes (d : Dev) (loc : Loc) (n : BitVec 4) : Prop :=
  d.calm ∧ d.ingress (locPort loc) = true ∧ d.rdFree (locPort loc) n = true ∧
  d.wrFree (locPort loc) n = true ∧ (d.ports[locPort loc]).locked loc = false ∧ (d.ports[locPort loc]).wrAt loc = none ∧
  (∀ r ∈ (d.ports[locPort loc]).rdq, r.loc ≠ loc) ∧ d.subFenced (locSub loc) = false ∧ d.fillHolds (locSub loc) = false

/-- The port takes an access as in `takes`, and holds the line in write entry `q`. -/
def Dev.takesAtEntry (d : Dev) (loc : Loc) (n : BitVec 4) (q : WrEnt) : Prop :=
  d.calm ∧ d.ingress (locPort loc) = true ∧ d.wrFree (locPort loc) n = true ∧ d.rdFree (locPort loc) n = true ∧
  (d.ports[locPort loc]).locked loc = false ∧ (d.ports[locPort loc]).wrAt loc = some q ∧
  (∀ r ∈ (d.ports[locPort loc]).rdq, r.loc ≠ loc) ∧ d.subFenced (locSub loc) = false ∧ d.fillHolds (locSub loc) = false

/-- Region, key and epoch under which the access's line is stored (R226, R253). -/
def Dev.heldKey (d : Dev) (h : Held) : KeyUse :=
  match h.fixed with
  | some x => x.2
  | none => d.directKey h.r.line

/-- The LATOM instructions: operation, engine and registers. -/
def latomOf : Instr → Option (BitVec 2 × Fin 72 × Fin 16 × Fin 16 × Fin 16)
  | .latomAdd e rd ra rb _ => some (1, e, rd, ra, rb)
  | .latomSwap e rd ra rb _ => some (2, e, rd, ra, rb)
  | .latomCas e rd ra rb _ => some (3, e, rd, ra, rb)
  | _ => none

/-- The word that an atomic stores over `old` (R100): ADD, SWAP, and a CAS that compares equal. -/
def atomNew (op : BitVec 2) (old compare value : BitVec 64) : Option (BitVec 64) :=
  if op = 1 then some (old + value)
  else if op = 2 then some value
  else if op = 3 ∧ old = compare then some value
  else none

/-- `y` is `x` after event `b` (R262, Table 10.9): the bit is set, and a WAITE whose mask has a pending event completes. -/
def Engine.getsEvent (x y : Engine) (b : Nat) : Prop :=
  let ev := putBit x.events b true
  match x.wait with
  | .event mask rd =>
    if ev &&& mask = 0 then y = { x with events := ev }
    else y.events = ev &&& ~~~ mask ∧ y.run = .running ∧ y.wait = .none ∧ y.pc = x.pc + 1 ∧
      x.writes y rd ((ev &&& mask).setWidth 48) ∧
      y = { x with events := y.events, run := y.run, wait := y.wait, pc := y.pc, regs := y.regs }
  | _ => y = { x with events := ev }

/-- The injection of subchannel `s` is disarmed (R221). -/
def Dev.injectOff (d : Dev) (s : Fin 8) : Prop := bit (d.reg (A.inject s.val)) 24 = false

/-- Instruction `i`, a pointer step of engine `e` on line `l`, has begun: the engine waits, the step holds the line's lock, and
its read is queued (R210, R261). -/
def Dev.stepWaits (x : Dev) (e : Fin 72) (rd : Fin 16) (i : Instr) (s : State) (kind : JobKind) (l : Loc) : Prop :=
  ∃ (d : Dev) (j : Job) (r : RdEnt), exec i s = .next { s with dev := d } ∧
    d.engs[e] = { x.engs[e] with run := .waiting, wait := .step rd } ∧ d.jobs = [j] ∧ j.kind = kind ∧ j.left = 1 ∧
    j.e = some (e, (x.engs[e]).gen) ∧ (d.ports[locPort l]).locked l = true ∧
    (d.ports[locPort l]).rdq = (x.ports[locPort l]).rdq ++ [r] ∧ r.loc = l ∧ r.acc.who = .job j.id 0

/-- What a pointer step of engine `e` leaves on the engine: outcome `v` in `rd`, the PC advanced. -/
def Dev.stepped (x y : Dev) (e : Fin 72) (rd : Fin 16) (v : Nat) : Prop :=
  (x.engs[e]).writes y.engs[e] rd (BitVec.ofNat 48 v) ∧ (y.engs[e]).pc = (x.engs[e]).pc + 1

/-! ### Requests -/

/-- The four data slots of a WR or WRM, as the line they carry: byte 0 is byte 0 of the first (Table 4.3, R28). -/
def dataLine (data : List Slot) : Line := lineOf ((data.take 4).flatMap slotBytes)

/-- The same of an ATOM of the first slot `h`. -/
def asksAtom (d : Dev) (h : Slot) (op : BitVec 2) (c v : BitVec 64) : Option (Vc × Req × Op × Option Status) :=
  let o : Op := .atom op (h.extractLsb' 51 3) c v
  some (.q, reqOf h, o, d.decideQ (reqOf h) o)

/-- What a request command asks for: VC, request, operation, and the status decided at decode (R98 to R104), the fields read
from the slots as Table 4.3 places them. -/
def asksFor (d : Dev) : Instr → Option (Vc × Req × Op × Option Status)
  | .rd h => some (.q, reqOf h, .rd, d.decideQ (reqOf h) .rd)
  | .wr h l => some (.q, reqOf h, .wr (dataLine l), d.decideQ (reqOf h) (.wr (dataLine l)))
  | .wrm h m l => some (.q, reqOf h, .wrm (m.extractLsb' 0 64) (dataLine l), d.decideQ (reqOf h) (.wrm (m.extractLsb' 0 64) (dataLine l)))
  | .atomAdd c f o => asksAtom d (c ++ f) 1 0 (o.extractLsb' 0 64)
  | .atomSwap c f o => asksAtom d (c ++ f) 2 0 (o.extractLsb' 0 64)
  | .atomCas c f x y => asksAtom d (c ++ f) 3 x y
  | .flush c f => some (.q, { reqOf (c ++ f) with note := 0, line := 0 }, .flush,
      if d.noAccord then some .opfault else if d.flt.fatal then some .poison else none)
  | .opk t b k w n z => some (.k, { reqOf (t ++ b ++ k ++ w ++ n ++ z) with note := 0 }, .opk k w n,
      d.decideK (b.extractLsb' 0 42) k w n)
  | .mrd c a n z => some (.m, { reqOf (c ++ a ++ n ++ z) with note := 0, line := 0 }, .mrd a n, none)
  | .mwr c a n z l => some (.m, { reqOf (c ++ a ++ n ++ z) with note := 0, line := 0 }, .mwr a n
      ((List.range n.toNat).map (mwrVal l)), none)
  | _ => none

/-- A request accepted and not yet executed is the only one tracked, and the link is up. -/
def Dev.tracksOnly (d : Dev) (vc : Vc) (tag : BitVec 12) : Prop :=
  d.link.st = .up ∧ d.txn.track = [{ vc := vc, tag := tag, executed := false, built := false, dead := false, seq := none }]

/-- `y`'s transaction unit has queued one message more than `x`'s for VC P: these slots for `tag`. -/
def Dev.queuesP (x y : Dev) (vc : Vc) (tag : BitVec 12) (slots : List Slot) : Prop :=
  y.txn.outP = x.txn.outP ++ [{ vc := vc, tag := tag, resync := false, started := false, slots := slots }]

/-- In this cycle nothing moves at port `p` but what its schedulers pick: nothing is held, no fill, row command, test
operation or refresh unit is under way, and no command waits for the bus. -/
def Dev.plainCycle (d : Dev) (p : Fin 4) : Prop :=
  d.calm ∧ d.rst.step = 0 ∧ d.tier.initWait = false ∧ (∀ t ∈ portTiles p, (d.tiles[t]).refUnit = false) ∧
  ∀ b ∈ portSubs p, (d.phys[b]).test = none ∧ (d.phys[b]).due = [] ∧ (d.prots[b]).filling = false ∧ (d.prots[b]).rowOp = none

/-- The test commands: master, subchannel, value, operation (Table 7.6). -/
def testOpOf : Instr → Option (Master × Fin 8 × Word × Nat)
  | .csSample m b v => some (m, b, v, 1)
  | .caSample m b v => some (m, b, v, 2)
  | .wlevel m b v => some (m, b, v, 3)
  | .rdPattern m b v => some (m, b, v, 4)
  | .wrArray m b v => some (m, b, v, 5)
  | .rdCompare m b v => some (m, b, v, 6)
  | .mrw m b v => some (m, b, v, 7)
  | .mrr m b v => some (m, b, v, 8)
  | _ => none

/-- The moves: port of the mover, value, operation (Table 9.23). -/
def moveOf : Instr → Option (Master × Fin 4 × Word × Nat)
  | .promote ma m v => some (ma, m, v, 1)
  | .demote ma m v => some (ma, m, v, 2)
  | .repack ma m v => some (ma, m, v, 3)
  | _ => none

/-- What a MOVE puts into its remap entry: MOVING, and the bank, row and spare it names (R212). -/
def moveEntry (v : Word) : Word :=
  pack [(46, 1), (43, fld v 36 3), (40, fld v 33 3), (38, fld v 31 2), (20, fld v 13 18), (14, fld v 7 6)]

/-- The remap entry that the PPR value `v` names: valid, not moving, of its bank and row (R214). -/
def Dev.pprNames (d : Dev) (b : Fin 8) (v : Word) : Prop :=
  ∃ x ∈ d.tileEntries b (64 * fld v 45 1), entValid x.2 = true ∧ entMoving x.2 = false ∧ fld x.2 43 3 = fld v 42 3 ∧
    fld x.2 40 3 = fld v 39 3 ∧ fld x.2 38 2 = fld v 37 2 ∧ fld x.2 20 18 = fld v 19 18

/-! ### Resets, power, link -/

/-- The triggers of a full reset that count in a state, with their cause (Table 12.18). -/
def resetBy (s : State) : Instr → Option Nat
  | .resetNFall => if s.dev.pins.resetN then some 1 else none
  | .fullReset key => if s.dev.link.st = .up ∧ key = 0x5A3C then some 2 else none
  | .identFullReset m v => if m = .hub ∧ fld v 0 16 = 0x5A3C then some 3 else none
  | _ => none

/-- The power entries: master and state. -/
def entryOf : Instr → Option (Master × Nat)
  | .enterP1 m => some (m, 1)
  | .enterP2 m => some (m, 2)
  | .enterP3 m => some (m, 3)
  | _ => none

/-- The wake events that count in power state `st`: their number (R322). -/
def wakeOf (d : Dev) : Instr → Option Nat
  | .wakeNFall => some 0
  | .krxSignalWake => if d.pwrState = 3 then none else some 1
  | .wakeTimer => if d.pwr.timerOn then some 2 else none
  | _ => none

/-- Steady in P0, and no full reset under way. -/
def Dev.steadyP0 (d : Dev) : Prop := d.pwrState = 0 ∧ d.pwrPhase = 0 ∧ d.rst.step = 0

/-- Every read and write entry of every port is gone. -/
def Dev.queuesEmpty (d : Dev) : Prop := ∀ p : Fin 4, (d.ports[p]).rdq = [] ∧ (d.ports[p]).wrq = []

/-- The lane changes that alter lanes: direction, lane, LCMD, and the lanes that follow (R85). -/
def laneMove (l : Link) : Instr → Option (Dir × Fin 22 × BitVec 3 × Vector Lane 22)
  | .laneSwap d k => some (d, k, 1, swapLane (l.lanes d) k.val)
  | .laneDrop d k => some (d, k, 2, dropLane (l.lanes d) k.val)
  | .laneAdd d k => some (d, k, 3, addLane (l.lanes d) k.val)
  | _ => none

/-- An occurrence of source `n` that has no fixed severity is MAJOR at most (R283, R284): it fences nothing. -/
def Dev.mild (d : Dev) (n : Nat) : Prop := d.srcBase n ≤ 3 ∧ d.srcCount n = 0 ∧ d.escMask n = false

/-- No full reset waits for a completion, so that a link-down trains again (R27, R90). -/
def Dev.noneAsked (d : Dev) : Prop := ∀ a ∈ d.txn.afterRsp, a.2 ≠ .fullReset

/-- The tokens by command: type, bytes, whether the fuses read back. -/
def tokenOf : Instr → Option (Nat × TokenBytes × Bool)
  | .vendorKey t b => some (1, t, b)
  | .advance t b => some (2, t, b)
  | .ownerKey t b => some (3, t, b)
  | .ownerKwk t b => some (4, t, b)
  | .enterField t b => some (5, t, b)
  | .testUnlock t b => some (6, t, b)
  | .revoke t b => some (7, t, b)
  | .floor t b => some (8, t, b)
  | .returnOwner t b => some (9, t, b)
  | .returnVendor t b => some (10, t, b)
  | .void t b => some (11, t, b)
  | _ => none

/-- What a submission of a token of type `ty` leaves in SIDE whatever its result: RESULT, LAST_TYPE, a fresh NONCE, no
token data (R339, R340). -/
def submitted (s t : State) (ty result : Nat) : Prop :=
  t.dev.fldR A.tokenCmd 3 4 = result ∧ t.dev.fldR A.tokenCmd 8 8 = ty ∧ t.dev.reg A.nonce = Config.nonceDraw s.dev.freeCtr ∧
  (∀ j, j < 43 → t.dev.reg (A.tokenData j) = 0) ∧ t.flash = s.flash

/-- The flash commands: master, value, operation (Table 13.15). -/
def flashOf : Instr → Option (Master × Word × Nat)
  | .flashErase m v => some (m, v, 1)
  | .flashProgram m v => some (m, v, 2)
  | .flashRead m v => some (m, v, 3)
  | _ => none

/-- The boundary-scan commands: the row of Table 13.2 they need, and what they do to the TAP (R334). -/
def scanOf : Instr → Option (Nat × (Side → Side))
  | .extest => some (0, fun x => { x with tapOut := x.tapBr })
  | .sample pins => some (0, fun x => { x with tapBr := pins, tapOut := pins })
  | .preload bits => some (0, fun x => { x with tapBr := bits })
  | .acTest => some (1, fun x => { x with tapOut := x.tapBr })
  | _ => none

end Sys2Proof.Machine
end

