-- ==== Sys2Proof/Certificates/Slice0/Obligations.lean ====
section
/-! DEFINITION. The statements about the block that are to be proved, one `Obligations.<Name>` each. -/

open Sys2Proof Sys2Proof.Machine

/-! ### The machine as a whole -/

/-- A step runs the command at the front of the queue with the queue's rest; on an empty queue the block idles (log 2). -/
def Obligations.StepRunsTheFrontCommand : Prop :=
  (∀ (s : State) (c : Instr) (rest : List Instr),
    step { s with pending := c :: rest } = exec c { s with pending := rest }) ∧
  (∀ s : State, s.pending = [] → step s = .next s)

/-- No command stops the machine: every one answers a next state, and leaves the queue of commands alone. -/
def Obligations.EveryCommandAnswersANextState : Prop :=
  ∀ (c : Instr) (s : State), ∃ t : State, exec c s = .next t ∧ t.pending = s.pending

/-- The machine after reset: no power, the queue empty, every register at its Reset column, no commit group open, the
flash in its canonical form, the queues empty, every engine off. -/
def Obligations.ResetState : Prop :=
  State.reset.pending = [] ∧ State.reset.dev.on = false ∧ (∀ a, State.reset.dev.reg a = regReset a) ∧
  Memory.wf State.reset.flash = true ∧ (∀ p : Fin 4, (State.reset.dev.ports[p]).rdq = [] ∧ (State.reset.dev.ports[p]).wrq = []) ∧
  (∀ e : Fin 72, (State.reset.dev.engs[e]).run = .off) ∧ (∀ g : Fin 9, (State.reset.dev.cg[g]).opened = 0) ∧
  State.reset.dev.link.st = .down ∧ State.reset.dev.flt.fatal = false ∧ (∀ s, State.reset.dev.srcAt s = Src.quiet)

/-- R331: fuse cells are one-time. Whatever the step, a blown bit stays blown. -/
def Obligations.FuseCellsAreOneTime : Prop :=
  ∀ s t : State, step s = .next t → s.cells.within t.cells

/-- The canonical form of the flash memory (addresses strictly rising, no erased byte listed) is kept by every step. -/
def Obligations.FlashKeepsItsForm : Prop :=
  ∀ s t : State, Memory.wf s.flash = true → step s = .next t → Memory.wf t.flash = true

/-- The life cycle never goes back: the fuses as read stay within the cells, and the life-cycle state does not fall. -/
def Obligations.LifeCycleNeverGoesBack : Prop :=
  ∀ s t : State, s.fuses.within s.cells → step s = .next t →
    t.fuses.within t.cells ∧ s.fuses.within t.fuses ∧ s.fuses.state ≤ t.fuses.state

/-- Without power, or after a thermal trip, only POWER_ON, POWER_LOSS, the two ticks of Caldera's clock and the TAP act;
without power POWER_LOSS and the ticks do not either. Writes that the spec counts only from an MWR on VC M have no effect
from any other master. -/
def Obligations.CommandsWithoutEffect : Prop :=
  (∀ (c : Instr) (s : State), s.dev.live = false → isTap c = false → (∀ f, c ≠ .powerOn f) → c ≠ .powerLoss →
    c ≠ .sillageWrite → c ≠ .timewrap → exec c s = .next s) ∧
  (∀ s : State, s.dev.on = false →
    exec .powerLoss s = .next s ∧ exec .sillageWrite s = .next s ∧ exec .timewrap s = .next s) ∧
  (∀ (s : State) (f : PowerUp), s.dev.on = true → exec (.powerOn f) s = .next s) ∧
  (∀ (c : Instr) (m : Master) (s : State), hubOnly c = some m → m ≠ .hub → exec c s = .next s)

/-- Only the commands of `touchesStore` change the fuses, the fuse cells or the flash. -/
def Obligations.StoresChangeOnlyByTheirCommands : Prop :=
  ∀ (c : Instr) (s t : State), touchesStore c = false → exec c s = .next t →
    t.fuses = s.fuses ∧ t.cells = s.cells ∧ t.flash = s.flash

/-- R11: an address that no register occupies reads zero, and a write to it has no effect, whoever asks. -/
def Obligations.UnoccupiedAddresses : Prop :=
  ∀ (s : State) (a : BitVec 24), regSpec a.toNat = none →
    s.readReg a.toNat = 0 ∧ ∀ (m : Master) (v : Word), exec (.regWrite m a v) s = .next s

/-! ### Engine words -/

/-- Decoding an encoded engine instruction gives it back, whatever its operands: every one whose word Table 10.8 spells. -/
def Obligations.DecodeOfEncodeIsTheInstruction : Prop :=
  ∀ (i : Instr) (w : Word), encodeEngine i = some w → ∃ e : Fin 72, decodeEngine e w = some i

/-- Words written out from Table 10.7: EXT, LGET, FADD, SEND, and a reserved OP. -/
def Obligations.EngineWordsDecode : Prop :=
  ∀ e : Fin 72,
    decodeEngine e 0x898000060000#48 = some (.ext e 6 0 0 0 48) ∧ decodeEngine e 0xA01802000000#48 = some (.lget e 6 1) ∧
    decodeEngine e 0xC91300000000#48 = some (.fadd e 4 4 12) ∧ decodeEngine e 0xE02800000000#48 = some (.send e 10) ∧
    decodeEngine e 0xFC0000000000#48 = none

/-! ### Engine instructions -/

/-- Table 10.8: the instructions that compute one register, or one pair (R255), write it, advance the PC, and change nothing
else. STW stores a register at base plus immediate; a word below DLEN / 6 is read-only and traps with cause 5 (R257). -/
def Obligations.EngineArithmetic : Prop :=
  (∀ (s : State) (e : Fin 72) (i : Instr) (rd : Fin 16) (v : Word),
      s.executes e i → aluResult e s.dev.engs[e] i = some (rd, v) →
      ∃ y : Engine, exec i s = .next (s.withEng e y) ∧ y.pc = s.dev.engs[e].pc + 1 ∧ s.dev.engs[e].writes y rd v ∧
        s.dev.engs[e].sameButRegs y) ∧
  (∀ (s : State) (e : Fin 72) (i : Instr) (rd : Fin 16) (v : BitVec 64),
      s.executes e i → pairResult e s.dev.engs[e] i = some (rd, v) →
      ∃ y : Engine, exec i s = .next (s.withEng e y) ∧ y.pc = s.dev.engs[e].pc + 1 ∧ s.dev.engs[e].writesPair y rd v ∧
        s.dev.engs[e].sameButRegs y) ∧
  (∀ (s : State) (e : Fin 72) (rs ra : Fin 16) (imm : BitVec 34), s.executes e (.stw e rs ra imm) →
      let x := s.dev.engs[e]
      let a := dataIndex (x.w ra) imm
      (s.dev.protWords e ≤ a → ∃ y : Engine, exec (.stw e rs ra imm) s = .next (s.withEng e y) ∧ y.pc = x.pc + 1 ∧
        (∀ b, y.data b = if b = a then x.w rs else x.data b) ∧ y = { x with dmem := y.dmem, pc := y.pc }) ∧
      (a < s.dev.protWords e → exec (.stw e rs ra imm) s = .next { s with dev := s.dev.trap e 5 }))

/-- Branches set the PC and nothing else; CALL links in w15. -/
def Obligations.EngineBranchesSetThePc : Prop :=
  (∀ (s : State) (e : Fin 72) (i : Instr) (t : BitVec 12), s.executes e i → branchTarget e s.dev.engs[e] i = some t →
    exec i s = .next (s.withEng e { s.dev.engs[e] with pc := t })) ∧
  (∀ (s : State) (e : Fin 72) (t : BitVec 12), s.executes e (.call e t) →
    ∃ y : Engine, exec (.call e t) s = .next (s.withEng e y) ∧ y.pc = t ∧
      s.dev.engs[e].writes y 15 ((s.dev.engs[e].pc + 1).setWidth 48) ∧ s.dev.engs[e].sameButRegs y)

/-- R258. EXT loads the field of a slot, zero-extended, into a register or a pair; INS stores it and leaves all other bits
and slots as before; bits beyond 511 read as zero and are discarded. Other widths trap with cause ENCODING. On a busy slot
EXT, INS and SZERO wait: the command changes nothing. -/
def Obligations.SlotFieldsFollowR258 : Prop :=
  (∀ (s : State) (e : Fin 72) (rd rb : Fin 16) (k : Fin 32) (off : BitVec 9) (width : BitVec 7),
    s.executes e (.ext e rd rb k off width) →
    let x := s.dev.engs[e]
    let v := ((x.slot k.val).toNat / 2 ^ fieldFrom x off rb) % 2 ^ width.toNat
    (fieldOk rd width → x.isBusy k.val = false →
      ∃ y : Engine, exec (.ext e rd rb k off width) s = .next (s.withEng e y) ∧ y.pc = x.pc + 1 ∧ x.sameButRegs y ∧
        (if width.toNat ≤ 48 then x.writes y rd (BitVec.ofNat 48 v) else x.writesPair y rd (BitVec.ofNat 64 v))) ∧
    (width.toNat < 8 ∨ 64 < width.toNat → exec (.ext e rd rb k off width) s = .next { s with dev := s.dev.trap e 1 }) ∧
    (fieldOk rd width → x.isBusy k.val = true → exec (.ext e rd rb k off width) s = .next s)) ∧
  (∀ (s : State) (e : Fin 72) (rd rb : Fin 16) (k : Fin 32) (off : BitVec 9) (width : BitVec 7),
    s.executes e (.ins e rd rb k off width) →
    let x := s.dev.engs[e]
    let v := if width.toNat ≤ 48 then (x.w rd).toNat else (x.pair rd).toNat
    let o := fieldFrom x off rb
    (fieldOk rd width → x.isBusy k.val = false →
      ∃ y : Engine, exec (.ins e rd rb k off width) s = .next (s.withEng e y) ∧ y.pc = x.pc + 1 ∧
        y = { x with slots := y.slots, pc := y.pc } ∧ (∀ j, j ≠ k.val → y.slot j = x.slot j) ∧
        ∀ i, i < 512 → (y.slot k.val).getLsbD i =
          if o ≤ i ∧ i < o + width.toNat then v.testBit (i - o) else (x.slot k.val).getLsbD i) ∧
    (width.toNat < 8 ∨ 64 < width.toNat → exec (.ins e rd rb k off width) s = .next { s with dev := s.dev.trap e 1 }) ∧
    (fieldOk rd width → x.isBusy k.val = true → exec (.ins e rd rb k off width) s = .next s)) ∧
  (∀ (s : State) (e : Fin 72) (k : Fin 32), s.executes e (.szero e k) →
    let x := s.dev.engs[e]
    (x.isBusy k.val = false → ∃ y : Engine, exec (.szero e k) s = .next (s.withEng e y) ∧ y.pc = x.pc + 1 ∧
      y = { x with slots := y.slots, pc := y.pc } ∧ ∀ j, y.slot j = if j = k.val then 0 else x.slot j) ∧
    (x.isBusy k.val = true → exec (.szero e k) s = .next s))

/-- LWAIT on free slots gives the status and goes on; on a busy one the engine waits where it is. -/
def Obligations.EngineWaitsForSlots : Prop :=
  (∀ (s : State) (e : Fin 72) (rd : Fin 16) (k : Fin 32), s.executes e (.lwait e rd k false) →
    let x := s.dev.engs[e]
    (x.isBusy k.val = false → ∃ y : Engine, exec (.lwait e rd k false) s = .next (s.withEng e y) ∧ y.pc = x.pc + 1 ∧
      x.writes y rd ((x.slotStat k.val).setWidth 48) ∧ x.sameButRegs y) ∧
    (x.isBusy k.val = true → exec (.lwait e rd k false) s =
      .next (s.withEng e { x with run := .waiting, wait := .slot k rd }))) ∧
  (∀ (s : State) (e : Fin 72) (rd : Fin 16) (k : Fin 32), s.executes e (.lwait e rd k true) →
    let x := s.dev.engs[e]
    (x.busy = 0 → ∃ (y : Engine) (v : BitVec 4), exec (.lwait e rd k true) s = .next (s.withEng e y) ∧ y.pc = x.pc + 1 ∧
      x.writes y rd (v.setWidth 48) ∧ x.sameButRegs y ∧ (v = 0 → ∀ i, i < 32 → x.slotStat i = 0) ∧
      (v ≠ 0 → ∃ i, i < 32 ∧ x.slotStat i = v ∧ ∀ j, j < i → x.slotStat j = 0)) ∧
    (x.busy ≠ 0 → exec (.lwait e rd k true) s = .next (s.withEng e { x with run := .waiting, wait := .allSlots rd })))

/-- The instructions that act on their engine alone: NOP and BEAT only advance; SETWIN selects a window of WINMASK; TMR
arms or cancels; HALT stops a role engine; WAITE takes pending events, waits without, and with no mask reads zero. -/
def Obligations.EngineControl : Prop :=
  (∀ (s : State) (e : Fin 72), s.executes e (.nop e) → exec (.nop e) s = .next (s.withEng e (s.dev.engs[e]).next)) ∧
  (∀ (s : State) (e : Fin 72), s.executes e (.beat e) → exec (.beat e) s = .next (s.withEng e (s.dev.engs[e]).next)) ∧
  (∀ (s : State) (e : Fin 72) (imm : BitVec 34), s.executes e (.setwin e imm) → (s.dev.engs[e]).isRoleEngine = true →
    (s.dev.roleCfg (s.dev.engs[e]).fromE.toNat 6 2).testBit (imm.toNat % 16) = true →
    exec (.setwin e imm) s = .next (s.withEng e
      { (s.dev.engs[e]).next with window := some (BitVec.ofNat 4 (imm.toNat % 16)) })) ∧
  (∀ (s : State) (e : Fin 72) (ra : Fin 16), s.executes e (.tmr e ra) →
    exec (.tmr e ra) s = .next (s.withEng e { (s.dev.engs[e]).next with tmr := decide ((s.dev.engs[e]).w ra ≠ 0) })) ∧
  (∀ (s : State) (e : Fin 72), s.executes e (.halt e) → (s.dev.engs[e]).isRoleEngine = true →
    exec (.halt e) s = .next (s.withEng e { s.dev.engs[e] with run := .halted })) ∧
  (∀ (s : State) (e : Fin 72) (rd : Fin 16) (imm : BitVec 34), s.executes e (.waite e rd imm) →
    let x := s.dev.engs[e]
    let mask : BitVec 16 := imm.setWidth 16
    (mask = 0 → ∃ y : Engine, exec (.waite e rd imm) s = .next (s.withEng e y) ∧ y.pc = x.pc + 1 ∧ x.writes y rd 0 ∧
      x.sameButRegs y) ∧
    (mask ≠ 0 → x.events &&& mask = 0 → exec (.waite e rd imm) s =
      .next (s.withEng e { x with run := .waiting, wait := .event mask rd })) ∧
    (x.events &&& mask ≠ 0 → ∃ y : Engine, exec (.waite e rd imm) s = .next (s.withEng e y) ∧ y.pc = x.pc + 1 ∧
      y.events = x.events &&& ~~~ mask ∧ x.writes y rd ((x.events &&& mask).setWidth 48) ∧
      y = { x with regs := y.regs, pc := y.pc, events := y.events, wait := .none, run := .running }))

/-- A role engine's SEND leaves the value in REPLY; service code 1 marks, 2 fails a bank with ATTN 7, 3 checks (R275). -/
def Obligations.EngineSends : Prop :=
  (∀ (s : State) (e : Fin 72) (ra : Fin 16), s.executes e (.send e ra) → (s.dev.engs[e]).isRoleEngine = true →
    fld ((s.dev.engs[e]).w ra) 40 8 ∉ [1, 2, 3] →
    ∃ d : Dev, exec (.send e ra) s = .next { s with dev := d } ∧ d = { (s.withEng e (s.dev.engs[e]).next).dev with rf := d.rf } ∧
      d.reg (A.reply e.val) = (s.dev.engs[e]).w ra ∧ s.dev.regsBut d [A.reply e.val]) ∧
  (∀ (s : State) (e : Fin 72) (ra : Fin 16) (v : Word), s.executes e (.send e ra) → (s.dev.engs[e]).isRoleEngine = true →
    ((s.dev.engs[e]).w ra = put v 40 8 1 → ∃ d : Dev, exec (.markDone e v) s = .next { s with dev := d } ∧
      e ∈ d.pwr.markDone ∧ d.reg (A.reply e.val) = put v 40 8 1 ∧ (d.engs[e]).pc = (s.dev.engs[e]).pc + 1) ∧
    ((s.dev.engs[e]).w ra = put v 40 8 3 → ∃ d : Dev, exec (.checkDone e v) s = .next { s with dev := d } ∧
      e ∈ d.pwr.checkDone ∧ d.reg (A.reply e.val) = put v 40 8 3 ∧ (d.engs[e]).pc = (s.dev.engs[e]).pc + 1) ∧
    ((s.dev.engs[e]).w ra = put v 40 8 2 → ∃ d : Dev, exec (.markFail e v) s = .next { s with dev := d } ∧
      d.bankLost (v.setWidth 37) = true ∧ d.fldR A.attn 7 1 = 1 ∧
      d.fldR A.retStat (16 + (locTile (v.setWidth 37)).val) 1 = 1 ∧ (d.engs[e]).pc = (s.dev.engs[e]).pc + 1))

/-- RRD reads any register; RWR of a function that FNMASK allows writes as an engine does, after the PC has advanced; a
kernel's access, or one that FNMASK forbids, traps with cause 3. -/
def Obligations.EngineRegisterAccess : Prop :=
  (∀ (s : State) (e : Fin 72) (rd ra : Fin 16), s.executes e (.rrd e rd ra) → s.dev.engIssues e = true →
    ((s.dev.engs[e]).isRoleEngine = true → ∃ y : Engine, exec (.rrd e rd ra) s = .next (s.withEng e y) ∧
      y.pc = (s.dev.engs[e]).pc + 1 ∧ (s.dev.engs[e]).writes y rd (s.readReg (((s.dev.engs[e]).w ra).toNat % 2 ^ 24)) ∧
      (s.dev.engs[e]).sameButRegs y) ∧
    ((s.dev.engs[e]).isRoleEngine = false → exec (.rrd e rd ra) s = .next { s with dev := s.dev.trap e 3 })) ∧
  (∀ (s : State) (e : Fin 72) (ra rb : Fin 16), s.executes e (.rwr e ra rb) → s.dev.engIssues e = true →
    let x := s.dev.engs[e]
    let a := (x.w ra).toNat % 2 ^ 24
    (x.isRoleEngine = true → s.dev.fnMask e (fnOf a) = true → a = A.ret →
      ∃ d : Dev, exec (.rwr e ra rb) s = .next { s with dev := d } ∧ d.fldR A.ret 0 16 = fld (x.w rb) 0 16 ∧
        d = { (s.withEng e x.next).dev with rf := d.rf } ∧ s.dev.regsBut d [A.ret]) ∧
    ((x.isRoleEngine = false ∨ s.dev.fnMask e (fnOf a) = false) →
      exec (.rwr e ra rb) s = .next { s with dev := s.dev.trap e 3 }))

/-- A word that no instruction has traps with cause ENCODING (R257), whatever instruction is commanded; the trap of a role
engine is counted and the engine stops, halted, or fenced where its severity says so (R264). -/
def Obligations.ReservedWordsTrap : Prop :=
  (∀ (s : State) (e : Fin 72), s.dev.live = true → s.dev.engRuns e = true → s.dev.fetched e = none →
    exec (.nop e) s = .next { s with dev := s.dev.trap e 1 } ∧
    ∀ rd ra rb, exec (.add e rd ra rb) s = .next { s with dev := s.dev.trap e 1 }) ∧
  (∀ (d : Dev) (e : Fin 72) (cause : Nat), (d.engs[e]).isRoleEngine = true → (d.engs[e]).run = .running →
    ((d.trap e cause).engs[e]).trap = BitVec.ofNat 4 cause ∧
    (((d.trap e cause).engs[e]).run = .halted ∨ ((d.trap e cause).engs[e]).run = .fenced))

/-- Accesses of a line that the port can take (R105, R253, R259). LGET: the slot is busy, the engine goes on, and one read
entry is queued, with the engine's note and master. LPUT: the slot's line stands in a write entry of the line. LPOIS writes
the line as poison, and rd holds STATUS OK once that is queued (Table 10.8). An access outside the window traps with cause 2
(R254, R264). -/
def Obligations.EngineLineAccesses : Prop :=
  (∀ (s : State) (e : Fin 72) (ra : Fin 16) (k : Fin 32) (t : Target) (loc : Loc),
      s.executes e (.lget e ra k) → s.dev.engIssues e = true → (s.dev.engs[e]).isBusy k.val = false →
      s.dev.winTarget e ((s.dev.engs[e]).w ra) false false = some t →
      let h := s.dev.engHeld e t .rd (.slot e k (s.dev.engs[e]).gen)
      s.dev.heldLoc h = some loc → s.dev.engLost h = false → s.dev.takes loc (s.dev.engNote e) →
      ∃ (d : Dev) (r : RdEnt), exec (.lget e ra k) s = .next { s with dev := d } ∧
        (d.engs[e]).isBusy k.val = true ∧ (d.engs[e]).pc = (s.dev.engs[e]).pc + 1 ∧
        (d.ports[locPort loc]).rdq = (s.dev.ports[locPort loc]).rdq ++ [r] ∧ r.loc = loc ∧ r.key = s.dev.heldKey h ∧
        r.op = .rd ∧ r.acc.who = h.who ∧ r.acc.note = s.dev.engNote e ∧ r.acc.master = masterEng e ∧
        (d.ports[locPort loc]).wrq = (s.dev.ports[locPort loc]).wrq) ∧
  (∀ (s : State) (e : Fin 72) (ra : Fin 16) (k : Fin 32) (t : Target) (loc : Loc),
      s.executes e (.lput e ra k) → s.dev.engIssues e = true → (s.dev.engs[e]).isBusy k.val = false →
      s.dev.winTarget e ((s.dev.engs[e]).w ra) true false = some t →
      let l := (s.dev.engs[e]).slot k.val
      let h := s.dev.engHeld e t (.wr l) (.slot e k (s.dev.engs[e]).gen)
      s.dev.heldLoc h = some loc → s.dev.takes loc (s.dev.engNote e) →
      ∃ (d : Dev) (w : WrEnt), exec (.lput e ra k) s = .next { s with dev := d } ∧ (d.engs[e]).isBusy k.val = true ∧
        (d.engs[e]).pc = (s.dev.engs[e]).pc + 1 ∧ (d.ports[locPort loc]).wrAt loc = some w ∧ w.key = s.dev.heldKey h ∧
        w.data = l ∧ w.mask = fullMask ∧ w.poison = false ∧ w.master = masterEng e ∧
        (d.ports[locPort loc]).rdq = (s.dev.ports[locPort loc]).rdq) ∧
  (∀ (s : State) (e : Fin 72) (rd ra : Fin 16) (t : Target) (loc : Loc),
      s.executes e (.lpois e rd ra) → s.dev.engIssues e = true →
      s.dev.winTarget e ((s.dev.engs[e]).w ra) true true = some t →
      let h := s.dev.engHeld e t .pois (.latom e (s.dev.engs[e]).gen)
      s.dev.heldLoc h = some loc → s.dev.takes loc (s.dev.engNote e) →
      ∃ (d : Dev) (w : WrEnt), exec (.lpois e rd ra) s = .next { s with dev := d } ∧
        (s.dev.engs[e]).writes d.engs[e] rd 0 ∧ (d.engs[e]).pc = (s.dev.engs[e]).pc + 1 ∧ (d.engs[e]).run = .running ∧
        (d.ports[locPort loc]).wrAt loc = some w ∧ w.poison = true ∧ w.mask = fullMask ∧ w.key = s.dev.heldKey h) ∧
  (∀ (s : State) (e : Fin 72) (ra : Fin 16) (k : Fin 32), s.executes e (.lget e ra k) → s.dev.engIssues e = true →
      (s.dev.engs[e]).isBusy k.val = false → s.dev.winTarget e ((s.dev.engs[e]).w ra) false false = none →
      exec (.lget e ra k) s = .next { s with dev := s.dev.trap e 2 })

/-- An access that has ended completes: the slot is free with its STATUS, and holds the line if it was a read; no other
engine changes. On a slot whose access has not ended nothing happens (R259). -/
def Obligations.EngineAccessCompletes : Prop :=
  ∀ (s : State) (e : Fin 72) (k : Fin 32), s.dev.live = true →
    (∀ (st : BitVec 4) (data : Option Line), (s.dev.engs[e]).ended = [(k.val, st, data)] →
      ∃ d : Dev, exec (.lineAccessDone e k () ()) s = .next { s with dev := d } ∧ (d.engs[e]).isBusy k.val = false ∧
        (d.engs[e]).slotStat k.val = st ∧ (d.engs[e]).slot k.val = data.getD ((s.dev.engs[e]).slot k.val) ∧
        (d.engs[e]).ended = [] ∧ ∀ f : Fin 72, f ≠ e → d.engs[f] = s.dev.engs[f]) ∧
    ((∀ x ∈ (s.dev.engs[e]).ended, x.1 ≠ k.val) → exec (.lineAccessDone e k () ()) s = .next s)

/-- LATOM (R100, R107, R260). On a line whose write entry is full, it is done at once: OLD in pair rd with STATUS OK, and
ADD, SWAP or an equal CAS puts the new word into the entry; with a placed note the result of a store waits for the pins
(R108); a CAS that differs leaves the entry. On a line without an entry
the engine waits, the line is locked, and its read is queued; the capture of a clean burst then gives the result and opens
the entry of the new line. -/
def Obligations.EngineAtomics : Prop :=
  (∀ (s : State) (i : Instr) (op : BitVec 2) (e : Fin 72) (rd ra rb : Fin 16) (t : Target) (loc : Loc),
    latomOf i = some (op, e, rd, ra, rb) → s.executes e i → s.dev.engIssues e = true → rd.val % 2 = 0 → rb.val % 2 = 0 →
    s.dev.winTarget e ((s.dev.engs[e]).w ra) true false = some t →
    let x := s.dev.engs[e]
    let w : BitVec 3 := (x.w ra).extractLsb' 3 3
    let h := s.dev.engHeld e t (.atom op w (x.pair rd) (x.pair rb)) (.latom e x.gen)
    s.dev.heldLoc h = some loc → s.dev.engLost h = false → (h.byMedia = true → s.dev.overlay (s.dev.heldKey h).media = none) →
    (∀ q : WrEnt, s.dev.takesAtEntry loc (s.dev.engNote e) q → q.mask = fullMask → q.poison = false →
      let o := lineWord q.data w.toNat
      let new := atomNew op o (x.pair rd) (x.pair rb)
      ∃ (d : Dev) (q' : WrEnt), exec i s = .next { s with dev := d } ∧ (d.ports[locPort loc]).wrAt loc = some q' ∧
        q'.mask = fullMask ∧ q'.poison = false ∧ (∀ v, new = some v → q'.data = putLineWord q.data w.toNat v) ∧
        (new = none → q'.data = q.data) ∧
        (s.dev.notePlaced (s.dev.engNote e) = false ∨ new = none →
          x.writesPair d.engs[e] rd o ∧ (d.engs[e]).pc = x.pc + 1 ∧ (d.engs[e]).run = .running) ∧
        (s.dev.notePlaced (s.dev.engNote e) = true → new.isSome = true →
          d.engs[e] = { x with run := .waiting, wait := .atom rd } ∧ ∃ c ∈ q'.comps, c.1.who = h.who ∧ c.2 = some o)) ∧
    (s.dev.takes loc (s.dev.engNote e) → ∃ (d : Dev) (r : RdEnt), exec i s = .next { s with dev := d } ∧
      d.engs[e] = { x with run := .waiting, wait := .atom rd } ∧ (d.ports[locPort loc]).locked loc = true ∧
      (d.ports[locPort loc]).rdq = (s.dev.ports[locPort loc]).rdq ++ [r] ∧ r.loc = loc ∧ r.acc.who = h.who ∧
      r.op = .atom op w (x.pair rd) (x.pair rb))) ∧
  (∀ (s : State) (b : Fin 8) (burst : List (BitVec 64)) (f : Inflight) (rest : List Inflight) (e : Fin 72) (rd : Fin 16)
      (op : BitVec 2) (w : BitVec 3) (c v n : BitVec 64), s.dev.live = true → s.dev.calm → s.dev.injectOff b →
    (s.dev.phys[b]).inflight = f :: rest → f.drop = false → f.op = .atom op w c v → f.ov = none →
    f.acc.who = .latom e (s.dev.engs[e]).gen → f.acc.placed = false → (s.dev.engs[e]).run = .waiting → (s.dev.engs[e]).wait = .atom rd →
    rd.val % 2 = 0 → (s.dev.ports[locPort f.loc]).wrAt f.loc = none → locPort f.loc = subPort b →
    (∀ r ∈ (s.dev.ports[locPort f.loc]).rdq, r.loc ≠ f.loc) →
    let z := decodeLine burst f.loc f.spare f.erased noInj
    z.outc = .clean → z.counted = [] →
    let l := s.dev.crypt1 f.key z.data
    atomNew op (lineWord l w.toNat) c v = some n →
    ∃ (d : Dev) (q : WrEnt), exec (.readDataCapture b burst) s = .next { s with dev := d } ∧
      (s.dev.engs[e]).writesPair d.engs[e] rd (lineWord l w.toNat) ∧ (d.engs[e]).pc = (s.dev.engs[e]).pc + 1 ∧
      (d.engs[e]).run = .running ∧ (d.ports[locPort f.loc]).wrAt f.loc = some q ∧ q.data = putLineWord l w.toNat n ∧
      q.mask = fullMask ∧ q.poison = false ∧ q.key = f.key)

/-- Pointer steps (R210, R215, R231, R261). With nothing to do they answer IDLE; at the sweep's end END; a line that a sweep
skips, one whose data stands in a full write entry (scrub), and a page without lines (rotation) complete at once, and the
pointer passes them. Any other line is locked and read, while the engine waits; when its last line is loaded, the pointer
advances and the engine goes on with the outcome; with the last unit of a rotation NEW becomes the region's epoch. -/
def Obligations.PointerSteps : Prop :=
  (∀ (s : State) (e : Fin 72) (rd ra : Fin 16), s.executes e (.lstepRebuild e rd ra ()) → s.dev.engIssues e = true →
    let b := stepSub ((s.dev.engs[e]).w ra)
    let p := (s.dev.prots[b]).p.toNat
    ((s.dev.prots[b]).rebuild = false → ∃ d : Dev, exec (.lstepRebuild e rd ra ()) s = .next { s with dev := d } ∧
      s.dev.stepped d e rd 0 ∧ d = { s.dev with engs := d.engs }) ∧
    ((s.dev.prots[b]).rebuild = true → (s.dev.prots[b]).frozen = false → s.dev.subFenced b = false →
      (s.dev.sweepFrom b p = none → ∃ d : Dev, exec (.lstepRebuild e rd ra ()) s = .next { s with dev := d } ∧
        s.dev.stepped d e rd 5 ∧ (d.prots[b]).rebuild = false ∧ (d.prots[b]).p = (s.dev.prots[b]).p ∧ d.fldR A.attn 5 1 = 1) ∧
      (∀ q n : Nat, s.dev.sweepFrom b p = some q → s.dev.sweepFrom b (q + 1) = some n →
        s.dev.stepWindow e (sweepLoc b q) = true → s.dev.sweepSkips (sweepLoc b q) = true →
        ∃ d : Dev, exec (.lstepRebuild e rd ra ()) s = .next { s with dev := d } ∧ s.dev.stepped d e rd 4 ∧
          (d.prots[b]).p = BitVec.ofNat 34 n ∧ (d.prots[b]).rebuild = true) ∧
      (∀ q : Nat, s.dev.sweepFrom b p = some q → s.dev.stepWindow e (sweepLoc b q) = true →
        s.dev.sweepSkips (sweepLoc b q) = false → s.dev.takes (s.dev.lineAt (sweepLoc b q)) (s.dev.engNote e) →
        s.dev.stepWaits e rd (.lstepRebuild e rd ra ()) s (.rebuild b) (s.dev.lineAt (sweepLoc b q))))) ∧
  (∀ (s : State) (e : Fin 72) (rd ra : Fin 16), s.executes e (.lstepScrub e rd ra ()) → s.dev.engIssues e = true →
    s.dev.throttled = false →
    let b := stepSub ((s.dev.engs[e]).w ra)
    s.dev.protCfg b 2 2 ≠ 0 → (s.dev.prots[b]).rebuild = false → s.dev.subFenced b = false →
    ∀ q n : Nat, s.dev.sweepFrom b (s.dev.fldR (A.scrub b.val) 0 34) = some q → s.dev.sweepFrom b (q + 1) = some n →
      s.dev.stepWindow e (sweepLoc b q) = true → s.dev.isMarkerRow (sweepLoc b q) = false →
      let l := s.dev.lineAt (sweepLoc b q)
      (s.dev.sweepSkips (sweepLoc b q) = true → ∃ d : Dev, exec (.lstepScrub e rd ra ()) s = .next { s with dev := d } ∧
        s.dev.stepped d e rd 4 ∧ d.fldR (A.scrub b.val) 0 34 = n % 2 ^ 34 ∧ s.dev.regsBut d [A.scrub b.val]) ∧
      (∀ w : WrEnt, s.dev.sweepSkips (sweepLoc b q) = false → s.dev.takesAtEntry l (s.dev.engNote e) w → w.mask = fullMask →
        ∃ d : Dev, exec (.lstepScrub e rd ra ()) s = .next { s with dev := d } ∧ s.dev.stepped d e rd 1 ∧
          d.fldR (A.scrub b.val) 0 34 = n % 2 ^ 34 ∧ d.jobs = [] ∧ (d.ports[locPort l]).wrq = (s.dev.ports[locPort l]).wrq) ∧
      (s.dev.sweepSkips (sweepLoc b q) = false → s.dev.takes l (s.dev.engNote e) →
        s.dev.stepWaits e rd (.lstepScrub e rd ra ()) s (.scrub b) l)) ∧
  (∀ (s : State) (e : Fin 72) (rd ra : Fin 16), s.executes e (.lstepRotate e rd ra ()) → s.dev.engIssues e = true →
    let r := ((s.dev.engs[e]).w ra).toNat % 64
    let p := s.dev.rotPtr r
    (s.dev.rotating r = false → ∃ d : Dev, exec (.lstepRotate e rd ra ()) s = .next { s with dev := d } ∧
      s.dev.stepped d e rd 0 ∧ d = { s.dev with engs := d.engs }) ∧
    (s.dev.rotating r = true → regionElastic s.dev.cfg r = false →
      let m : LineAddr := BitVec.ofNat 42 ((regionBase s.dev.cfg r + 64 * p) / 64)
      s.dev.winTarget e (BitVec.ofNat 48 (addrOf m)) true false = some (.addr m) →
      s.dev.takes (addrMap s.dev.cfg m) (s.dev.engNote e) →
      s.dev.stepWaits e rd (.lstepRotate e rd ra ()) s (.rotate (BitVec.ofNat 6 r)) (addrMap s.dev.cfg m)) ∧
    (∀ en : BitVec 128, s.dev.rotating r = true → regionElastic s.dev.cfg r = true → s.dev.calm →
      let m : LineAddr := BitVec.ofNat 42 ((regionBase s.dev.cfg r + 4096 * p) / 64)
      s.dev.winTarget e (BitVec.ofNat 48 (addrOf m)) true false = some (.addr m) →
      s.dev.pmcGet (pageIdx s.dev.cfg r m) = some en → entState en = 0 →
      ∃ d : Dev, exec (.lstepRotate e rd ra ()) s = .next { s with dev := d } ∧
        (p + 1 < regionSize s.dev.cfg r / 4096 → s.dev.stepped d e rd 1 ∧ d.rotPtr r = (p + 1) % 2 ^ 42 ∧ d.rotating r = true) ∧
        (regionSize s.dev.cfg r / 4096 ≤ p + 1 → s.dev.stepped d e rd 5 ∧ d.rotating r = false ∧
          d.reg (A.epoch r) = s.dev.reg (A.nextEpoch r) ∧ d.fldR A.attn 1 1 = 1))) ∧
  (∀ (d : Dev) (j : Job) (e : Fin 72) (rd : Fin 16), d.jobs = [j] → j.left = 1 → j.e = some (e, (d.engs[e]).gen) →
    (d.engs[e]).run = .waiting → (d.engs[e]).wait = .step rd →
    (∀ (b : Fin 8) (q n : Nat), j.kind = .rebuild b → (d.prots[b]).rebuild = true → (d.prots[b]).frozen = false →
      d.sweepFrom b (d.prots[b]).p.toNat = some q → d.sweepFrom b (q + 1) = some n →
      d.stepped (d.jobLoaded j.id) e rd j.worst ∧ (d.jobLoaded j.id).jobs = [] ∧
        ((d.jobLoaded j.id).prots[b]).p = BitVec.ofNat 34 n) ∧
    (∀ r : BitVec 6, j.kind = .rotate r → d.rotateUnits r.toNat ≤ d.rotPtr r.toNat + 1 →
      d.stepped (d.jobLoaded j.id) e rd 5 ∧ (d.jobLoaded j.id).jobs = [] ∧ (d.jobLoaded j.id).rotating r.toNat = false ∧
        (d.jobLoaded j.id).reg (A.epoch r.toNat) = d.reg (A.nextEpoch r.toNat)))

/-- Events (R262): a timer that expires, the tick of AGE_TICK, and a mailbox write by the hub set their bit on the engines in
service that they concern, and change nothing but the engines (and the mailbox register). -/
def Obligations.EngineEvents : Prop :=
  (∀ (s : State) (e : Fin 72), s.dev.live = true → (s.dev.engs[e]).tmr = true → (s.dev.engs[e]).run ≠ .fenced →
    ∃ y : Engine, exec (.tmrExpire e) s = .next (s.withEng e y) ∧ ({ s.dev.engs[e] with tmr := false }).getsEvent y 1) ∧
  (∀ s : State, s.dev.live = true → s.dev.cfgLe Sec.tiers 0x38 2 ≠ 0 →
    ∃ d : Dev, exec .ageTick s = .next { s with dev := d } ∧ d = { s.dev with engs := d.engs } ∧
      ∀ e : Fin 72, if (s.dev.engs[e]).run ≠ .off ∧ (s.dev.engs[e]).run ≠ .fenced then
        (s.dev.engs[e]).getsEvent d.engs[e] 4 else d.engs[e] = s.dev.engs[e]) ∧
  (∀ (s : State) (e : Fin 72) (v : Word), s.dev.live = true → (s.dev.engs[e]).run ≠ .off → (s.dev.engs[e]).run ≠ .fenced →
    ∃ (y : Engine) (d : Dev), exec (.mbox .hub e v) s = .next { s with dev := d } ∧ d = { (s.withEng e y).dev with rf := d.rf } ∧
      (s.dev.engs[e]).getsEvent y 0 ∧ d.reg (A.mbox e.val) = v ∧ s.dev.regsBut d [A.mbox e.val])

/-- KERNEL_DISPATCH (R267): the oldest OPK goes to the lowest-numbered idle engine with its image, which starts at ENTRY
with the invocation in w1 to w5; no other engine changes. With ARGLINE it waits until slot 0 holds the argument line, whose
read is queued under the kernel's note. -/
def Obligations.KernelsAreDispatched : Prop :=
  ∀ (s : State) (i : Inv) (rest : List Inv) (e : Fin 72), s.dev.live = true → s.dev.kq = i :: rest →
    s.dev.idleFor i = some e → s.dev.flt.fatal = false → s.dev.engPower = true → s.dev.throttled = false →
    s.dev.rst.step = 0 →
    let k := i.kidx.toNat
    let taken : Dev → Prop := fun d => d.kq = rest ∧ (d.engs[e]).pc = BitVec.ofNat 12 (s.dev.kernCfg k 2 2) ∧
      (d.engs[e]).w 1 = BitVec.ofNat 48 (addrOf i.line) ∧ (d.engs[e]).w 2 = i.length.setWidth 48 ∧
      (d.engs[e]).w 3 = i.kidx.setWidth 48 ∧ (d.engs[e]).w 4 = i.tag.setWidth 48 ∧ (d.engs[e]).w 5 = i.src.setWidth 48 ∧
      (d.engs[e]).window = some i.window ∧ (d.engs[e]).inv.isSome = true ∧ ∀ f : Fin 72, f ≠ e → d.engs[f] = s.dev.engs[f]
    (s.dev.kernFlag k 2 = false → ∃ d : Dev, exec (.kernelDispatch ()) s = .next { s with dev := d } ∧ taken d ∧
      (d.engs[e]).run = .running ∧ (d.engs[e]).busy = 0) ∧
    (∀ loc : Loc, s.dev.kernFlag k 2 = true → s.dev.linePort i.line = some (locPort loc) → loc = addrMap s.dev.cfg i.line →
      s.dev.bankLost loc = false → s.dev.takes loc (BitVec.ofNat 4 (s.dev.kernCfg k 6 1)) →
      ∃ (d : Dev) (r : RdEnt), exec (.kernelDispatch ()) s = .next { s with dev := d } ∧ taken d ∧ (d.engs[e]).run = .waiting ∧
        (d.engs[e]).wait = .start ∧ (d.engs[e]).busy = 1 ∧
        (d.ports[locPort loc]).rdq = (s.dev.ports[locPort loc]).rdq ++ [r] ∧ r.loc = loc ∧
        r.acc.who = .slot e 0 (d.engs[e]).gen)

/-- A kernel over its BUDGET traps with cause 4 and its invocation ends (R264, R268); a missed heartbeat and the hub's FENCE
fence the engine with causes 1 and 3 (R270, R271); RESTART starts a halted role engine with reason 1 (R265). -/
def Obligations.EnginesAreSupervised : Prop :=
  (∀ (s : State) (e : Fin 72) (i : Inv), s.dev.live = true → (s.dev.engs[e]).inv = some i →
    s.dev.kernCfg i.kidx.toNat 0x0C 4 ≠ 0 → (s.dev.engs[e]).isKernel = true → (s.dev.engs[e]).run ≠ .fenced →
    (s.dev.engs[e]).wait ≠ .start → ∃ d : Dev, exec (.kernelBudgetExceeded e) s = .next { s with dev := d } ∧ (d.engs[e]).trap = 4 ∧ (d.engs[e]).inv = none) ∧
  (∀ (s : State) (e : Fin 72), s.dev.live = true → s.dev.roleCfg (s.dev.engs[e]).fromE.toNat 8 2 ≠ 0 →
    (s.dev.engs[e]).beats = true →
    ∃ d : Dev, exec (.heartbeatMiss e) s = .next { s with dev := d } ∧ (d.engs[e]).run = .fenced ∧ (d.engs[e]).fenceCause = 1) ∧
  (∀ (s : State) (e : Fin 72) (v : Word), s.dev.live = true → (s.dev.engs[e]).run ≠ .fenced →
    ∃ d : Dev, exec (.engineFence .hub e v) s = .next { s with dev := d } ∧ (d.engs[e]).run = .fenced ∧
      (d.engs[e]).fenceCause = 3) ∧
  (∀ (s : State) (e : Fin 72) (v : Word), s.dev.live = true → (s.dev.engs[e]).run = .halted →
    (s.dev.engs[e]).isRoleEngine = true → s.dev.flt.fatal = false → bit v 1 = false →
    ∃ y : Engine, exec (.engineRestart .hub e v) s = .next (s.withEng e y) ∧ y.run = .running ∧
      y.pc = BitVec.ofNat 12 (s.dev.roleCfg (s.dev.engs[e]).fromE.toNat 2 2) ∧ y.w 1 = 1 ∧ ∀ k, k ≠ 1 → y.w k = 0)

/-! ### Requests, verdicts and the schedulers -/

/-- A request that is decoded, and not queued speculatively, waits in arrival order for its verdict with the status decided
(R103, R104). An accepted OPK joins the kernel queue; an accepted FLUSH waits for the writes accepted before it (R109); a
request that is turned down goes, unanswered; one whose status was decided is answered with it (R104, R111, R267). A FLUSH
with nothing left to cover is answered (R109). -/
def Obligations.RequestsAndVerdicts : Prop :=
  (∀ (s : State) (i : Instr) (vc : Vc) (r : Req) (op : Op) (st : Option Status), s.dev.live = true → s.dev.decodes = true →
      asksFor s.dev i = some (vc, r, op, st) →
      (vc = .q → op ≠ .flush → ∀ p, s.dev.linePort r.line = some p → (s.dev.ports[p]).sr = .run) →
      (op = .rd → s.dev.speculates r = false) →
      ∃ h : Held, exec i s = .next { s with dev := { s.dev with txn := { s.dev.txn with
          held := insertHeld h s.dev.txn.held, nextRid := s.dev.txn.nextRid + 1 } } } ∧
        h.vc = vc ∧ h.r = r ∧ h.op = op ∧ h.decided = st ∧ h.accepted = false ∧ h.taken = false ∧
        h.who = .hub r.tag r.src ∧ h.rid = s.dev.txn.nextRid) ∧
  (∀ (s : State) (h : Held) (k : BitVec 8) (w : BitVec 4) (n : BitVec 32), s.dev.live = true → s.dev.txn.held = [h] →
    h.vc = .k → h.isHub = true → h.accepted = false → h.taken = false → h.decided = none → h.op = .opk k w n →
    s.dev.flt.fatal = false → ∃ d : Dev, exec (.verdict .k h.r.tag true) s = .next { s with dev := d } ∧ d.txn.held = [] ∧
      d.kq = s.dev.kq ++ [{ kidx := k, window := w, tag := h.r.tag, src := h.r.src, line := h.r.line, length := n, pf := false,
                            onE := none }]) ∧
  (∀ (s : State) (h : Held), s.dev.live = true → s.dev.txn.held = [h] → h.vc = .q → h.isHub = true → h.accepted = false →
    h.taken = false → h.decided = none → h.op = .flush → s.dev.flt.fatal = false →
    ∃ d : Dev, exec (.verdict .q h.r.tag true) s = .next { s with dev := d } ∧ d.txn.held = [] ∧
      d.txn.flushes = s.dev.txn.flushes ++ [{ tag := h.r.tag, src := h.r.src, cover := s.dev.txn.writes, poison := false }]) ∧
  (∀ (s : State) (h : Held), s.dev.live = true → s.dev.txn.held = [h] → s.dev.tier.ops = [] → s.dev.jobs = [] → h.vc = .q →
    h.isHub = true → h.accepted = false → h.taken = false → (∀ p : Fin 4, (s.dev.ports[p]).rdq.any (RdEnt.specOf h.rid) = false) →
    exec (.verdict .q h.r.tag false) s = .next { s with dev := { s.dev with txn := { s.dev.txn with held := [] } } }) ∧
  (∀ (s : State) (h : Held) (st : Status), s.dev.live = true → s.dev.txn.held = [h] → h.vc = .q → h.who = .hub h.r.tag h.r.src →
    h.accepted = false → h.taken = false → h.op = .rd → h.decided = some st → s.dev.tracksOnly .q h.r.tag →
    ∃ d : Dev, exec (.verdict .q h.r.tag true) s = .next { s with dev := d } ∧ d.txn.held = [] ∧
      s.dev.queuesP d .q h.r.tag (rspD h.r.tag h.r.src st false false 0 s.dev.attnValue)) ∧
  (∀ (s : State) (f : FlushWait), s.dev.live = true → s.dev.txn.flushes = [f] → f.cover = [] → s.dev.tracksOnly .q f.tag →
    ∃ d : Dev, exec (.flushDone f.tag) s = .next { s with dev := d } ∧ d.txn.flushes = [] ∧
      s.dev.queuesP d .q f.tag (rspC f.tag f.src (if f.poison then .poison else .ok) s.dev.attnValue))

/-- Accepted MRD and MWR requests (R23): MRD answers the COUNT registers at consecutive addresses, as they read once the
request is tracked; MWR writes (shown on RET); COUNT 0 answers NOOP (R104). A request that is turned down goes, unanswered. -/
def Obligations.RegisterRequestsAreServed : Prop :=
  ∀ (s : State) (h : Held), s.dev.live = true → s.dev.regOpen = true → s.dev.txn.held = [h] → h.vc = .m → h.isHub = true →
    h.accepted = false → h.taken = false → h.decided = none → s.dev.txn.track = [] → s.dev.link.st = .up →
    let seen : State := { s with dev := s.dev.openTrack .m h.r.tag }
    let answers : Dev → List Slot → Prop := fun d r => d.txn.held = [] ∧
      d.txn.outM = s.dev.txn.outM ++ [{ vc := .m, tag := h.r.tag, resync := false, started := false, slots := r }]
    let rsp : Status → BitVec 4 → Bool → List Word → List Slot := fun st n w vals =>
      rspM h.r.tag h.r.src st n w vals s.dev.attnValue
    (∀ (a : BitVec 24) (n : BitVec 4), h.op = .mrd a n → n ≠ 0 → burstPlain a.toNat n.toNat = true →
      ∃ d : Dev, exec (.verdict .m h.r.tag true) s = .next { s with dev := d } ∧ d.rf = s.dev.rf ∧
        answers d (rsp .ok n false ((List.range n.toNat).map (fun k => seen.readReg (a.toNat + k))))) ∧
    (∀ v : Word, h.op = .mwr (BitVec.ofNat 24 A.ret) 1 [v] →
      ∃ d : Dev, exec (.verdict .m h.r.tag true) s = .next { s with dev := d } ∧ d.fldR A.ret 0 16 = fld v 0 16 ∧
        s.dev.regsBut d [A.ret] ∧ answers d (rsp .ok 1 true [])) ∧
    (∀ a : BitVec 24, h.op = .mrd a 0 →
      ∃ d : Dev, exec (.verdict .m h.r.tag true) s = .next { s with dev := d } ∧ d.rf = s.dev.rf ∧
        answers d (rsp .noop 0 false [])) ∧
    exec (.verdict .m h.r.tag false) s = .next { s with dev := { s.dev with txn := { s.dev.txn with held := [] } } }

/-- Status at decode (R42, R103, R104): OPFAULT without an Accord or a region, NOOP for an empty mask, LOST, POISON. -/
def Obligations.StatusIsDecidedInOrder : Prop :=
  ∀ (d : Dev) (r : Req) (op : Op),
    (d.noAccord = true → d.decideQ r op = some .opfault) ∧
    (d.noAccord = false → d.lookupRegion r.line = none → d.decideQ r op = some .opfault) ∧
    (∀ k l, d.noAccord = false → d.lookupRegion r.line = some k → op = .wrm 0 l → d.decideQ r op = some .noop) ∧
    (∀ k, d.noAccord = false → d.lookupRegion r.line = some k → op = .rd → regionElastic d.cfg k = false →
      d.bankLost (addrMap d.cfg r.line) = true → d.decideQ r op = some .lost) ∧
    (∀ k l, d.noAccord = false → d.lookupRegion r.line = some k → op = .wr l → d.flt.fatal = true →
      d.decideQ r op = some .poison) ∧
    (∀ k l, d.noAccord = false → d.lookupRegion r.line = some k → op = .wr l → d.flt.fatal = false →
      (regionElastic d.cfg k = true ∨ d.subFenced (locSub (addrMap d.cfg r.line)) = false) → d.decideQ r op = none)

/-- One core cycle of a port that can issue from one subchannel only (R134 to R141, R201): the picked ACT opens its row, a
picked PRE closes its bank, a picked read goes in flight, or waits, picked, for its verdict (R111), a picked write leaves its
queue; with nothing to pick the cycle only counts. -/
def Obligations.SchedulerIssuesItsPick : Prop :=
  ∀ (s : State) (p : Fin 4), s.dev.live = true → s.dev.plainCycle p →
    let b : Fin 8 := Fin.ofNat 8 (2 * p.val)
    s.dev.subServes p (Fin.ofNat 8 (2 * p.val + 1)) = false →
    (s.dev.subServes p b = false → exec (.schedPick p 0) s =
      .next { s with dev := s.dev.modPort p (fun x => { x with cyc := x.cyc + 1 }) }) ∧
    (∀ c, (∀ x ∈ s.dev.cands p b, x.penal = false) → s.dev.pick p b = some c →
      (c.cmd.kind = .act → ∃ d : Dev, exec (.schedPick p 0) s = .next { s with dev := d } ∧
        (bankAt d.ports[p] c.loc).row = some c.cmd.row ∧ (bankAt d.ports[p] c.loc).tAct = some (s.dev.now p) ∧
        (d.ports[p]).cyc = (s.dev.ports[p]).cyc + 1) ∧
      (c.cmd.kind = .pre → ∃ d : Dev, exec (.schedPick p 0) s = .next { s with dev := d } ∧
        (bankAt d.ports[p] c.loc).row = none ∧ (bankAt d.ports[p] c.loc).tPre = some (s.dev.now p) ∧
        (d.phys[b]).lastCmd = some c.cmd ∧ (d.ports[p]).cyc = (s.dev.ports[p]).cyc + 1) ∧
      (∀ r, c.cmd.kind = .rd → (s.dev.ports[p]).rdq.find? (fun x => x.q = c.q) = some r →
        r.specWait = false → ∃ (d : Dev) (i : Inflight), exec (.schedPick p 0) s = .next { s with dev := d } ∧
          (d.ports[p]).rdq = (s.dev.ports[p]).rdq.filter (fun x => x.q ≠ c.q) ∧
          (d.phys[r.s]).inflight = (s.dev.phys[r.s]).inflight ++ [i] ∧ i.loc = r.loc ∧ i.op = r.op ∧ i.acc = r.acc ∧
          i.drop = false) ∧
      (∀ r, c.cmd.kind = .rd → (s.dev.ports[p]).rdq.find? (fun x => x.q = c.q) = some r → r.specWait = true →
        ∃ d : Dev, exec (.schedPick p 0) s = .next { s with dev := d } ∧ d.phys = s.dev.phys ∧
          ∃ x ∈ (d.ports[p]).rdq, x.q = c.q ∧ x.picked = true) ∧
      (∀ w, c.cmd.kind = .wr → (s.dev.ports[p]).wrq.find? (fun x => x.q = c.q) = some w →
        ∃ d : Dev, exec (.schedPick p 0) s = .next { s with dev := d } ∧
          (d.ports[p]).wrq = (s.dev.ports[p]).wrq.filter (fun x => x.q ≠ c.q) ∧ (d.phys[w.s]).lastWr.isSome = true))

/-- READ_DATA_CAPTURE of a clean burst answers the hub's read with the line, decrypted (R101, R201, R202, R226); one whose
read was dropped is only taken (R291). -/
def Obligations.CapturedReadsAreAnswered : Prop :=
  (∀ (s : State) (b : Fin 8) (burst : List (BitVec 64)) (i : Inflight) (rest : List Inflight) (tag : BitVec 12) (src : BitVec 10),
    s.dev.live = true → s.dev.calm → (s.dev.phys[b]).inflight = i :: rest → i.drop = false → i.op = .rd →
    i.acc.who = .hub tag src → i.ov = none → s.dev.injectOff b → s.dev.tracksOnly .q tag →
    (s.dev.ports[subPort b]).wrAt i.loc = none →
    (decodeLine burst i.loc i.spare i.erased noInj).outc = .clean →
    (decodeLine burst i.loc i.spare i.erased noInj).counted = [] →
    ∃ d : Dev, exec (.readDataCapture b burst) s = .next { s with dev := d } ∧ (d.phys[b]).inflight = rest ∧
      s.dev.queuesP d .q tag (rspD tag src .ok false false
        (s.dev.crypt1 i.key (decodeLine burst i.loc i.spare i.erased noInj).data) s.dev.attnValue)) ∧
  (∀ (s : State) (b : Fin 8) (burst : List (BitVec 64)) (i : Inflight) (rest : List Inflight), s.dev.live = true → s.dev.calm →
    (s.dev.phys[b]).inflight = i :: rest → i.drop = true →
    exec (.readDataCapture b burst) s = .next { s with dev := s.dev.modPhy b (fun x => { x with inflight := rest }) })

/-- Timers of the schedulers and the acknowledgement of ATTN (R124, R132, R138, R141, R147). -/
def Obligations.SchedulerTimers : Prop :=
  (∀ (s : State) (p : Fin 4) (q : Nat), s.dev.live = true → s.dev.schedCfg p 0x0C 4 ≠ 0 →
    (∃ w ∈ (s.dev.ports[p]).wrq, w.q = q) →
    ∃ d : Dev, exec (.writeAgeDrain p q) s = .next { s with dev := d } ∧ (d.ports[p]).drain.getLsbD 3 = true ∧
      (d.ports[p]).wrq = (s.dev.ports[p]).wrq.map (fun (w : WrEnt) => if w.q = q then { w with aged := true } else w) ∧
      (d.ports[p]).rdq = (s.dev.ports[p]).rdq) ∧
  (∀ (s : State) (b : BankId), s.dev.live = true → s.dev.schedCfg (tilePort b.tile) 8 4 ≠ 0 →
    ∃ d : Dev, exec (.pageTimeout b) s = .next { s with dev := d } ∧
      ∀ k, sget Bank.closed (d.ports[tilePort b.tile]).banks k =
        let x := sget Bank.closed (s.dev.ports[tilePort b.tile]).banks k
        if k = bankIdPortKey b ∧ x.row.isSome then { x with due := true } else x) ∧
  (∀ (s : State) (p : Fin 4) (q : Nat), s.dev.live = true → s.dev.schedCfg p 0x10 4 ≠ 0 →
    ∃ d : Dev, exec (.starvePromote p q) s = .next { s with dev := d } ∧
      (d.ports[p]).rdq = (s.dev.ports[p]).rdq.map (fun (r : RdEnt) => if r.q = q then { r with promo := min 2 (r.promo + 1) } else r) ∧
      (d.ports[p]).wrq = (s.dev.ports[p]).wrq.map (fun (w : WrEnt) => if w.q = q then { w with promo := min 2 (w.promo + 1) } else w) ∧
      ∀ o : Fin 4, o ≠ p → d.ports[o] = s.dev.ports[o]) ∧
  (∀ (s : State) (n : BitVec 4), s.dev.live = true → s.dev.noteWindow n ≠ 0 →
    exec (.qosWindowEnd n) s = .next { s with dev := { s.dev with qos := s.dev.qos.set n.toNat (0, false) } }) ∧
  (∀ (s : State) (m : Master) (v : Word), s.dev.live = true →
    ∃ d : Dev, exec (.attnAck m v) s = .next { s with dev := d } ∧ s.dev.onlyRegs d [A.attn, A.sillLost] ∧
      ∀ c, c < 12 → d.attnPending.testBit c =
        if c = 0 then s.dev.attnPending.testBit 0
        else if c = 11 ∧ (s.dev.flt.fatal = true ∨ s.dev.noAccord = true) then true
        else s.dev.attnPending.testBit c && !bit v (16 + c))

/-! ### Refresh, disturbance, self-refresh -/

/-- Refresh (R150 to R156, R158, R159): intervals are owed and counted up to 15, units close what they refresh and settle one
interval, MR4 is polled, a Geyser takes every tile that owes. -/
def Obligations.RefreshIsOwedAndSettled : Prop :=
  (∀ (s : State) (t : Fin 16), s.dev.live = true → s.dev.refreshed t = true →
    ((s.dev.tiles[t]).owed < 15 → ∃ d : Dev, exec (.refreshInterval t) s = .next { s with dev := d } ∧
      d = { s.dev with tiles := d.tiles } ∧ (∀ u : Fin 16, u ≠ t → d.tiles[u] = s.dev.tiles[u]) ∧
      d.tiles[t] = { s.dev.tiles[t] with
        owed := (s.dev.tiles[t]).owed + 1,
        forced := (s.dev.tiles[t]).forced || decide ((if (s.dev.ports[tilePort t]).rtBurst then s.dev.forceLevel t
          else s.dev.issueLevel t) ≤ (s.dev.tiles[t]).owed + 1) }) ∧
    (15 ≤ (s.dev.tiles[t]).owed → exec (.refreshInterval t) s =
      .next { s with dev := s.dev.fault (116 + (tilePort t).val) (owedReport t) })) ∧
  (∀ (s : State) (t : Fin 16), s.dev.live = true → s.dev.unitAllowed t = true →
    ∃ d : Dev, exec (.refreshUnit t) s = .next { s with dev := d } ∧ (d.tiles[t]).refUnit = true ∧
      (s.dev.refMode (tilePort t) ≠ 2 →
        ∀ k, k / 256 = t.val % 4 → (sget Bank.closed (d.ports[tilePort t]).banks k).row = none) ∧
      (s.dev.refMode (tilePort t) = 2 → ∀ k, k / 256 = t.val % 4 →
        (sget Bank.closed (d.ports[tilePort t]).banks k).row =
          if k % 256 / 32 = 0 ∧ k % 4 = 0 then none else (sget Bank.closed (s.dev.ports[tilePort t]).banks k).row)) ∧
  (∀ (s : State) (t : Fin 16), s.dev.live = true → (s.dev.tiles[t]).refUnit = true → s.dev.caOpen (tileSub t) = true →
    ∃ d : Dev, exec (.refreshUnitDone t) s = .next { s with dev := d } ∧ (d.tiles[t]).refUnit = false ∧
      (d.tiles[t]).owed = (s.dev.tiles[t]).owed - 1 ∧ (d.tiles[t]).settled = (s.dev.tiles[t]).settled + 1 ∧
      d.fldR (A.refCount (tilePort t).val) 24 24 = min (s.dev.fldR (A.refCount (tilePort t).val) 24 24 + 1) (2 ^ 24 - 1) ∧
      ((s.dev.cg[grpNo 3]).waits t.val = 0 → s.dev.regsBut d [A.refCount (tilePort t).val]) ∧
      ∀ u : Fin 16, u ≠ t → d.tiles[u] = s.dev.tiles[u]) ∧
  (∀ (s : State) (t : Fin 16), s.dev.live = true → 8192 ≤ (s.dev.tiles[t]).settled → exec (.trackerClear t) s =
    .next { s with dev := s.dev.modTile t (fun x => { x with settled := x.settled - 8192, trackers := [] }) }) ∧
  (∀ (s : State) (t : Fin 16) (hot : Bool), s.dev.live = true → s.dev.ckDriven t = true →
    (s.dev.tiles[t]).inSr = false → s.dev.refrCfg (tilePort t) 0x1C 2 ≠ 0 →
    ∃ d : Dev, exec (.tempPoll t hot) s = .next { s with dev := d } ∧ d = { s.dev with tiles := d.tiles, phys := d.phys } ∧
      (∀ u : Fin 16, u ≠ t → d.tiles[u] = s.dev.tiles[u]) ∧
      (d.tiles[t]).hot = (hot || ((s.dev.tiles[t]).hot && decide ((s.dev.tiles[t]).coolPolls = 0))) ∧
      (s.dev.caOpen (tileSub t) = true →
        (d.phys[tileSub t]).lastCmd = some (layerCmd .mrrK t 4 (s.dev.stack t - 1)))) ∧
  (∀ (s : State) (p : Fin 4), s.dev.live = true → (s.dev.ports[p]).rtBurst = true → s.dev.rtQueued p = false →
    ∃ d : Dev, exec (.rtBurstEnd p) s = .next { s with dev := d } ∧ d = { s.dev with ports := d.ports, tiles := d.tiles } ∧
      d.ports[p] = { s.dev.ports[p] with rtBurst := false, burstEnded := true } ∧
      ∀ t ∈ portTiles p, s.dev.refMode p ≠ 0 → s.dev.issueLevel t ≤ (s.dev.tiles[t]).owed → (d.tiles[t]).forced = true) ∧
  (∀ (s : State) (p : Fin 4), s.dev.live = true → (s.dev.ports[p]).burstEnded = true → (s.dev.cals[p]).pause = false →
    (∃ t ∈ portTiles p, s.dev.refreshed t = true ∧ 1 ≤ (s.dev.tiles[t]).owed) →
    ∃ d : Dev, exec (.geyserStart p) s = .next { s with dev := d } ∧ (d.ports[p]).burstEnded = false ∧
      (∀ t ∈ portTiles p, s.dev.refreshed t = true → 1 ≤ (s.dev.tiles[t]).owed → (d.tiles[t]).geyser = true) ∧
      d.fldR (A.refCount p.val) 0 12 = min (s.dev.fldR (A.refCount p.val) 0 12 + 1) 4095) ∧
  (∀ (s : State) (b : BankId), s.dev.live = true →
    ∃ d : Dev, exec (.penaltyEnd b) s = .next { s with dev := d } ∧ kvGet (d.tiles[b.tile]).pens (bankIdKey b) = none ∧
      ∀ k, k ≠ bankIdKey b → kvGet (d.tiles[b.tile]).pens k = kvGet (s.dev.tiles[b.tile]).pens k)

/-- Self-refresh (Table 6.3, R161 to R164) from idleness to the first request after it, and the clear of LOST flags (R170). -/
def Obligations.SelfRefreshRunsItsSteps : Prop :=
  (∀ (s : State) (p : Fin 4), s.dev.live = true → s.dev.refrCfg p 0x18 4 ≠ 0 → (s.dev.ports[p]).sr = .run →
    s.dev.portBusy p = false → (s.dev.cals[p]).pause = false → s.dev.pwrState = 0 → s.dev.pwrPhase = 0 → s.dev.rst.step = 0 →
    (∃ t ∈ portTiles p, s.dev.srTile t = true) →
    exec (.srIdleEntry p) s =
      .next { s with dev := s.dev.modPort p (fun x => { x with sr := .drain, srPower := false, srArrived := false }) }) ∧
  (∀ (s : State) (p : Fin 4), s.dev.live = true → (s.dev.ports[p]).sr = .drain → s.dev.portQuiet p = true →
    (∀ t ∈ portTiles p, s.dev.refreshed t = true → (s.dev.tiles[t]).refUnit = false ∧ (s.dev.tiles[t]).owed = 0) →
    ∃ d : Dev, exec (.srDrainDone p) s = .next { s with dev := d } ∧ (d.ports[p]).sr = .sre ∧
      ∀ t ∈ portTiles p, s.dev.srTile t = true → (d.tiles[t]).inSr = true ∧
        ∀ k, k / 256 = t.val % 4 → (sget Bank.closed (d.ports[p]).banks k).row = none) ∧
  (∀ (s : State) (p : Fin 4), s.dev.live = true → (s.dev.ports[p]).sr = .sre →
    ∃ d : Dev, exec (.srClockStop p) s = .next { s with dev := d } ∧ (d.ports[p]).sr = .stopped ∧
      d.fldR (A.sr p.val) 0 16 = min (s.dev.fldR (A.sr p.val) 0 16 + 1) 65535 ∧ s.dev.regsBut d [A.sr p.val]) ∧
  (∀ (s : State) (p : Fin 4), s.dev.live = true → (s.dev.ports[p]).sr = .stopped → (s.dev.ports[p]).srArrived = true →
    ∃ d : Dev, exec (.srExit p) s = .next { s with dev := d } ∧ d.ports[p] = { s.dev.ports[p] with sr := .exiting } ∧
      d.tiles = s.dev.tiles ∧
      ∀ t ∈ portTiles p, s.dev.srTile t = true → (s.dev.tiles[t]).inSr = true → s.dev.caOpen (tileSub t) = true →
        ∃ c : Cmd, (d.phys[tileSub t]).lastCmd = some c ∧ c.kind = .srx) ∧
  (∀ (s : State) (p : Fin 4), s.dev.live = true → s.dev.calm → (s.dev.ports[p]).sr = .exiting → s.dev.pwrPhase = 0 →
    ∃ d : Dev, exec (.srxDone p) s = .next { s with dev := d } ∧ (d.ports[p]).sr = .run ∧
      ∀ t ∈ portTiles p, s.dev.srTile t = true → (s.dev.tiles[t]).inSr = true →
        (d.tiles[t]).inSr = false ∧ (d.tiles[t]).owed = 0 ∧ (d.tiles[t]).trackers = []) ∧
  (∀ (s : State) (m : Master) (p : Fin 4) (k : Fin 32) (v : Word), s.dev.live = true →
    ∃ d : Dev, exec (.lostClear m p k v) s = .next { s with dev := d } ∧ d = { s.dev with rf := d.rf } ∧
      d.reg (A.lost p.val k.val) = s.dev.reg (A.lost p.val k.val) &&& ~~~ (v.extractLsb' 0 32).setWidth 48 ∧
      s.dev.regsBut d [A.lost p.val k.val])

/-! ### The DRAM-side buffer -/

/-- Write CRC alerts (R179 to R182, R188): a fall stops issue and counts, or marks the test operation under way; the rise
resends what the retry buffer holds, a window's end frees its oldest burst, a stuck alert is reported. -/
def Obligations.AlertsResendWrites : Prop :=
  (∀ (s : State) (b : Fin 8), s.dev.live = true → (s.dev.phys[b]).alert = .idle →
    ∃ d : Dev, exec (.alertFall b) s = .next { s with dev := d } ∧
      d.fldR (A.crc b.val) 8 16 = min (s.dev.fldR (A.crc b.val) 8 16 + 1) 65535 ∧
      ((s.dev.phys[b]).testSent = false → (d.phys[b]).alert = .low ∧ d.caOpen b = false ∧ s.dev.regsBut d [A.crc b.val]) ∧
      ((s.dev.phys[b]).testSent = true → (d.phys[b]).alert = .lowTest ∧ d.fldR (A.testStat b.val) 44 1 = 1 ∧
        s.dev.regsBut d [A.crc b.val, A.testStat b.val])) ∧
  (∀ (s : State) (b : Fin 8) (u : Burst), s.dev.live = true → (s.dev.phys[b]).alert = .low →
    (s.dev.phys[b]).retry = [u] → u.resent < s.dev.cfgLe Sec.population 0 1 →
    ∃ d : Dev, exec (.alertRise b) s = .next { s with dev := d } ∧ (d.phys[b]).alert = .idle ∧
      (d.phys[b]).retry = [{ u with resent := u.resent + 1 }] ∧ (d.phys[b]).lastWr = some u.words ∧
      d.fldR (A.crc b.val) 24 24 = min (s.dev.fldR (A.crc b.val) 24 24 + 1) (2 ^ 24 - 1) ∧ s.dev.regsBut d [A.crc b.val]) ∧
  (∀ (s : State) (b : Fin 8), s.dev.live = true → (s.dev.phys[b]).alert = .stuck →
    exec (.alertRise b) s =
      .next { s with dev := s.dev.modPhy b (fun x => { x with riseAt := some (s.dev.now (subPort b)) }) }) ∧
  (∀ (s : State) (b : Fin 8), s.dev.live = true → (s.dev.phys[b]).alert ≠ .low → exec (.alertWinClose b) s =
    .next { s with dev := s.dev.modPhy b (fun x => { x with retry := x.retry.drop 1 }) }) ∧
  (∀ (s : State) (b : Fin 8), s.dev.live = true → (s.dev.phys[b]).alert = .low →
    let d := s.dev.modPhy b (fun x => { x with alert := .stuck, riseAt := none })
    exec (.alertStuck b) s = .next { s with dev := (d.fault (88 + b.val) (phyReport 1 (coordCtl 0x06 b.val))).caFlush b })

/-- Test operations (R184, R187 to R189): a permitted one is busy, and on a free subchannel whose tile is out of service its
command leaves at once; one that needs a tile out of service is rejected on a tile in service; no other master starts any. A
sample ends it; READY follows its write (R178). -/
def Obligations.TestOperations : Prop :=
  (∀ (s : State) (i : Instr) (m : Master) (b : Fin 8) (v : Word) (op : Nat), s.dev.live = true →
    testOpOf i = some (m, b, v, op) →
    (s.testWriter m = false → exec i s = .next s) ∧
    (s.testWriter m = true → (s.dev.phys[b]).test = none →
      (op ≤ 6 → s.dev.ready (testTile b v) = true → ∃ d : Dev, exec i s = .next { s with dev := d } ∧
        d.phys = s.dev.phys ∧ d.fldR (A.testStat b.val) 45 1 = 1 ∧ s.dev.regsBut d [A.testCmd b.val, A.testStat b.val]) ∧
      ((6 < op ∨ s.dev.ready (testTile b v) = false) → fld v 40 8 ≠ 0 → s.dev.subFenced b = false →
        ∃ d : Dev, exec i s = .next { s with dev := d } ∧ (d.phys[b]).test = some (put v 0 4 op) ∧
          d.fldR (A.testStat b.val) 47 1 = 1 ∧ d.reg (A.testErr b.val) = 0 ∧
          s.dev.regsBut d [A.testCmd b.val, A.testStat b.val, A.testErr b.val, A.testErrHi b.val] ∧
          (s.dev.ready (testTile b v) = false → (s.dev.phys[b]).testSent = false → s.dev.caOpen b = true →
            (s.dev.cals[subPort b]).pause = false → (s.dev.tiles[testTile b v]).inSr = false →
            (d.phys[b]).testSent = true ∧ (d.phys[b]).lastCmd = some (testCmdOf b (put v 0 4 op)))))) ∧
  (∀ (s : State) (b : Fin 8) (v : Word) (smp : BitVec 13), s.dev.live = true → (s.dev.phys[b]).test = some v →
    (s.dev.phys[b]).testSent = true → fld v 0 4 = 3 →
    ∃ d : Dev, exec (.testOpDone b smp []) s = .next { s with dev := d } ∧ (d.phys[b]).test = none ∧
      d.fldR (A.testStat b.val) 47 1 = 0 ∧ d.fldR (A.testStat b.val) 46 1 = 1 ∧
      d.fldR (A.testStat b.val) 26 13 = smp.toNat ∧ s.dev.regsBut d [A.testStat b.val]) ∧
  (∀ (s : State) (m : Master) (t : Fin 16) (v : Word), s.dev.live = true → s.dev.present t = true →
    ∃ d : Dev, exec (.tileReadyWrite m t v) s = .next { s with dev := d } ∧ d.ready t = bit v 0 ∧
      d = { s.dev with rf := d.rf } ∧ s.dev.regsBut d [A.dlyState t.val])

/-- Calibration (R190 to R194): a start pauses the port or waits for another, the reference check lets a good run go on, its
end counts and keeps the codes, the codes land at a quiet boundary, the timer makes a calibration due. -/
def Obligations.CalibrationRuns : Prop :=
  (∀ (s : State) (m : Master) (p : Fin 4) (v : Word), s.dev.live = true → bit v 0 = true → (s.dev.cals[p]).pause = false →
    (s.dev.cals[p]).queued = false → (s.dev.ports[p]).sr = .run → s.dev.pwrState = 0 → s.dev.pwrPhase = 0 →
    ((∀ q : Fin 4, (s.dev.cals[q]).pause = false) → ∃ d : Dev, exec (.calStart m p v) s = .next { s with dev := d } ∧
      (d.cals[p]).pause = true ∧ ∀ k, k / 256 < 4 → (sget Bank.closed (d.ports[p]).banks k).row = none) ∧
    (∀ q : Fin 4, (s.dev.cals[q]).pause = true → exec (.calStart m p v) s =
      .next { s with dev := s.dev.modCal p (fun x => { x with queued := true }) })) ∧
  (∀ (s : State) (p : Fin 4) (res vref : BitVec 16), s.dev.live = true → (s.dev.cals[p]).pause = true →
    23280 ≤ res.toNat → res.toNat ≤ 24720 → 5820 ≤ vref.toNat → vref.toNat ≤ 6180 →
    ∃ d : Dev, exec (.calRefCheck p res vref) s = .next { s with dev := d } ∧ d = { s.dev with rf := d.rf } ∧
      d.fldR (A.calRef p.val) 16 16 = res.toNat ∧ d.fldR (A.calRef p.val) 0 16 = vref.toNat ∧
      s.dev.regsBut d [A.calRef p.val]) ∧
  (∀ (s : State) (p : Fin 4) (c0 c1 : List (BitVec 6)), s.dev.live = true → s.dev.calm → (s.dev.cals[p]).pause = true →
    (∀ q : Fin 4, (s.dev.cals[q]).queued = false) →
    ∃ d : Dev, exec (.calPauseEnd p c0 c1) s = .next { s with dev := d } ∧ (d.cals[p]).pause = false ∧
      (d.cals[p]).pend = #v[some c0, some c1] ∧ (d.cals[p]).everDone = true ∧ d.fldR (A.calStatus p.val) 0 4 = 1 ∧
      d.fldR (A.calStatus p.val) 16 1 = 0 ∧
      d.fldR (A.calStatus p.val) 32 16 = min (s.dev.fldR (A.calStatus p.val) 32 16 + 1) 65535) ∧
  (∀ (s : State) (b : Fin 8) (cs : List (BitVec 6)), s.dev.live = true → (s.dev.cals[subPort b]).pause = false →
    s.dev.trimQuiet b = true → (s.dev.cals[subPort b]).pend[subHalf b] = some cs →
    ∃ d : Dev, exec (.calTrimLand b) s = .next { s with dev := d } ∧ (d.cals[subPort b]).codes[subHalf b] = cs ∧
      (d.cals[subPort b]).pend[subHalf b] = none) ∧
  (∀ (s : State) (p : Fin 4), s.dev.live = true → (s.dev.cals[p]).everDone = true → s.dev.cfgLe Sec.cal (32 * p.val) 4 ≠ 0 →
    ∃ d : Dev, exec (.calDueTimer p) s = .next { s with dev := d } ∧ d.fldR (A.calStatus p.val) 16 1 = 1 ∧
      d.fldR A.attn 1 1 = 1 ∧ s.dev.onlyRegs d [A.calStatus p.val, A.attn, A.sillLost])

/-! ### Sparing and rows -/

/-- Dead positions, self-test and injection (R207, R208, R216, R220, R221): the window's end restarts the counts, a declared
position is dead, all five self-test patterns of Table 8.7 pass on a sound decoder. A spare-journal record that ends whole
stands in its slot with its trailer, and the other slot is erased (R217, R218); one that fails is reported, its slot erased for
another try; with PWRFAIL_N low an erase waits (R219). -/
def Obligations.SparingAndJournal : Prop :=
  (∀ (s : State) (b : Fin 8), s.dev.live = true → s.dev.protCfg b 4 4 ≠ 0 →
    ∃ d : Dev, exec (.deadWindowEnd b) s = .next { s with dev := d } ∧ d = { s.dev with rf := d.rf } ∧
      (∀ k, k < 13 → d.fldR (A.symcnt b.val k) 0 16 = 0 ∧ d.fldR (A.symcnt b.val k) 24 24 = s.dev.fldR (A.symcnt b.val k) 24 24) ∧
      s.dev.regsBut d ((List.range 13).map (A.symcnt b.val))) ∧
  (∀ (s : State) (m : Master) (b : Fin 8) (v : Word), s.dev.live = true → bit v 4 = true → fld v 0 4 ≤ 12 →
    (s.dev.prots[b]).dead.getLsbD (fld v 0 4) = false →
    ∃ d : Dev, exec (.declare m b v) s = .next { s with dev := d } ∧ (d.prots[b]).dead.getLsbD (fld v 0 4) = true) ∧
  (∀ (s : State) (b : Fin 8), s.dev.live = true → s.dev.protCfg b 0x0A 2 ≠ 0 →
    exec (.selftest b []) s = .next { s with dev := s.dev.bump (A.selftest b.val) 24 24 }) ∧
  (∀ (s : State) (m : Master) (b : Fin 8) (v : Word), s.dev.live = true →
    ∃ d : Dev, exec (.injectArm m b v) s = .next { s with dev := d } ∧ d.fldR (A.inject b.val) 24 24 = fld v 24 24 ∧
      d.fldR (A.inject b.val) 0 24 = s.dev.fldR (A.inject b.val) 0 24 ∧ (d.prots[b]).injCount = 0 ∧
      s.dev.regsBut d [A.inject b.val]) ∧
  (∀ (s : State) (b : Fin 8), s.dev.live = true → (s.dev.prots[b]).fillDue = true →
    (∀ t ∈ subTiles b, s.dev.present t = true → s.dev.ready t = true) →
    exec (.fill b) s = .next { s with dev := s.dev.modProt b (fun x =>
      { x with fillDue := false, filling := true, fillP := 0, fillLeft := 0 }) }) ∧
  (∀ (s : State) (b : Fin 8), s.dev.live = true → s.dev.calm → (s.dev.prots[b]).fillWritten = true →
    exec (.fillDone b) s = .next { s with dev := s.dev.modProt b (fun x => { x with filling := false }) }) ∧
  (∀ s : State, s.dev.live = true → s.dev.journal.busy = true → s.dev.journal.dirty = false →
    s.dev.journal.image.length = 0x20C0 →
    ∃ t : State, exec (.journalRecordDone true) s = .next t ∧ t.dev.journal.busy = false ∧
      t.dev.journal.eraseDue = !s.dev.pins.pwrfailN ∧
      memReadList t.flash (journalSlot s.dev.journalNext) 0x20D0 =
        s.dev.journal.image ++ journalTrailer s.dev.journal.image ∧
      (s.dev.pins.pwrfailN = true → ∀ a, journalSlot (1 - s.dev.journalNext) ≤ a →
        a < journalSlot (1 - s.dev.journalNext) + 0x4000 → memRead t.flash a = flashErased) ∧
      (∀ a, a < 0x800000 → memRead t.flash a = memRead s.flash a) ∧ t.fuses = s.fuses ∧ t.cells = s.cells) ∧
  (∀ s : State, s.dev.live = true → s.dev.journal.busy = true →
    let r : Report := { event := 1, addr := 0, akind := 0, coord := 0, master := none, access := 0 }
    let n := journalSlot s.dev.journalNext
    (s.dev.pins.pwrfailN = true → ∃ t : State, exec (.journalRecordDone false) s = .next t ∧
      t.dev = (s.dev.bump A.journal 0 8).fault 129 r ∧ t.fuses = s.fuses ∧ t.cells = s.cells ∧
      ∀ a, memRead t.flash a = if n ≤ a ∧ a < n + 0x4000 then flashErased else memRead s.flash a) ∧
    (s.dev.pins.pwrfailN = false → ∃ d : Dev, exec (.journalRecordDone false) s = .next { s with dev := d } ∧
      d.journal = { busy := false, dirty := true, eraseDue := true, image := [] } ∧ d.fldR A.journal 14 1 = 0))

/-- Row commands without a rebuild (R212 to R214): MOVE marks its entry, RETURN marks a valid one, and the copy of column 0
begins under its line's lock; their end, after column 127, validates or frees the entry; a PPR runs on a row that an entry
names, and its end says so. -/
def Obligations.RowCommands : Prop :=
  (∀ (s : State) (m : Master) (b : Fin 8) (v : Word), s.dev.live = true → (s.dev.prots[b]).rowOp = none →
    s.dev.subFenced b = false → (s.dev.prots[b]).rebuild = false →
    let w := put v 46 2 1
    let l := rowOpLoc b v 0
    (s.dev.moveRejected b w = false → s.dev.rst.step = 0 → s.dev.takes l 15 →
      ∃ (d : Dev) (j : Job) (r : RdEnt), exec (.remapMove m b v) s = .next { s with dev := d } ∧
        (d.prots[b]).rowOp = some { kind := 1, v := w, waiting := false, sent := false } ∧ d.fldR (A.remapCmd b.val) 6 1 = 1 ∧
        d.reg (A.remap b.val (fld v 39 7)) = moveEntry v ∧ d.jobs = [j] ∧ j.kind = .row b ∧
        (d.ports[locPort l]).locked l = true ∧ (d.ports[locPort l]).rdq = (s.dev.ports[locPort l]).rdq ++ [r] ∧ r.loc = l ∧
        s.dev.regsBut d [A.remapCmd b.val, A.remap b.val (fld v 39 7)]) ∧
    (s.dev.moveRejected b w = true → ∃ d : Dev, exec (.remapMove m b v) s = .next { s with dev := d } ∧
      d = { s.dev with rf := d.rf } ∧ d.fldR (A.remapCmd b.val) 4 2 = 2 ∧ s.dev.regsBut d [A.remapCmd b.val])) ∧
  (∀ (s : State) (m : Master) (b : Fin 8) (v : Word), s.dev.live = true → (s.dev.prots[b]).rowOp = none →
    s.dev.subFenced b = false → (s.dev.prots[b]).rebuild = false →
    let e := s.dev.reg (A.remap b.val (fld v 39 7))
    let l := mkLoc (subPort b).val (b.val % 2) (fld v 39 7 / 64) (fld e 43 3) (fld e 20 18) (fld e 40 3) (fld e 38 2) 0
    entValid e = true → s.dev.rst.step = 0 → s.dev.takes l 15 →
    ∃ (d : Dev) (j : Job) (r : RdEnt), exec (.remapReturn m b v) s = .next { s with dev := d } ∧
      (d.prots[b]).rowOp = some { kind := 2, v := put v 46 2 2, waiting := false, sent := false } ∧
      d.fldR (A.remapCmd b.val) 6 1 = 1 ∧ d.reg (A.remap b.val (fld v 39 7)) = put (put e 7 7 0) 46 1 1 ∧ d.jobs = [j] ∧
      j.kind = .row b ∧ (d.ports[locPort l]).locked l = true ∧
      (d.ports[locPort l]).rdq = (s.dev.ports[locPort l]).rdq ++ [r] ∧ r.loc = l ∧
      s.dev.regsBut d [A.remapCmd b.val, A.remap b.val (fld v 39 7)]) ∧
  (∀ (s : State) (b : Fin 8) (o : RowOp) (j : Job), s.dev.live = true → (s.dev.prots[b]).rowOp = some o → o.waiting = false →
    (o.kind = 1 ∨ o.kind = 2) → s.dev.txn.held = [] → s.dev.tier.ops = [] → s.dev.jobs = [j] → j.kind = .row b → j.left = 0 →
    s.dev.fldR (A.remap b.val (fld o.v 39 7)) 7 7 = 127 →
    ∃ d : Dev, exec (.remapDone b) s = .next { s with dev := d } ∧ (d.prots[b]).rowOp = none ∧ d.jobs = [] ∧
      entMoving (d.reg (A.remap b.val (fld o.v 39 7))) = false ∧
      entValid (d.reg (A.remap b.val (fld o.v 39 7))) = decide (o.kind = 1) ∧ d.fldR (A.remapCmd b.val) 6 1 = 0 ∧
      d.fldR (A.remapCmd b.val) 4 2 = 1) ∧
  (∀ (s : State) (m : Master) (b : Fin 8) (v : Word), s.dev.live = true → (s.dev.prots[b]).rowOp = none →
    s.dev.subFenced b = false → (s.dev.prots[b]).rebuild = false → s.dev.pprNames b v →
    let t : Fin 16 := Fin.ofNat 16 (2 * b.val + fld v 45 1)
    (s.dev.feature t 5 = true → s.dev.calm → ∃ d : Dev, exec (.softPpr m b v) s = .next { s with dev := d } ∧
      (d.prots[b]).rowOp = some { kind := 3, v := put v 46 2 1, waiting := false, sent := false } ∧
      d.fldR (A.ppr b.val) 18 1 = 1 ∧ s.dev.regsBut d [A.ppr b.val]) ∧
    (s.dev.feature t 6 = true → s.dev.ready t = false → s.dev.calm →
      ∃ d : Dev, exec (.hardPpr m b v) s = .next { s with dev := d } ∧
      (d.prots[b]).rowOp = some { kind := 4, v := put v 46 2 2, waiting := false, sent := false } ∧
      d.fldR (A.ppr b.val) 18 1 = 1 ∧ s.dev.regsBut d [A.ppr b.val]) ∧
    (s.dev.ready t = true → ∃ d : Dev, exec (.hardPpr m b v) s = .next { s with dev := d } ∧
      d = { s.dev with rf := d.rf } ∧ d.fldR (A.ppr b.val) 16 2 = 2 ∧ s.dev.regsBut d [A.ppr b.val])) ∧
  (∀ (s : State) (b : Fin 8) (o : RowOp), s.dev.live = true → (s.dev.prots[b]).rowOp = some o → o.waiting = false →
    (o.kind = 3 ∨ o.kind = 4) →
    ∃ d : Dev, exec (.pprDone b) s = .next { s with dev := d } ∧ (d.prots[b]).rowOp = none ∧ d.fldR (A.ppr b.val) 18 1 = 0 ∧
      d.fldR (A.ppr b.val) 16 2 = 1 ∧ s.dev.regsBut d [A.ppr b.val] ∧
      (s.dev.caOpen b = true → (d.phys[b]).lastCmd = some (pprExit b o.v)))

/-! ### Keys and rotation -/

/-- Key slots (R228, R229): the hub's LOAD is busy until KEY_LOAD_DONE judges the wrapped key, whose check block must hold the
slot's number and whose slot must be empty; a CLEAR empties its slot and the key data. ROTATION_START (R231): an encrypted
region that is not rotating starts at its first unit under the new epoch; any other start is rejected. -/
def Obligations.KeysAndRotation : Prop :=
  (∀ (s : State) (v : Word), s.dev.live = true → s.fuses.state ≠ 4 → s.dev.crypt.busy = none →
    ∃ d : Dev, exec (.keyLoad .hub v) s = .next { s with dev := d } ∧
      d.crypt = { s.dev.crypt with busy := some (BitVec.ofNat 5 (fld v 36 5)) } ∧ d.fldR A.keyCmd 35 1 = 1 ∧
      d.fldR A.keyCmd 36 5 = fld v 36 5 ∧ s.dev.regsBut d [A.keyCmd]) ∧
  (∀ (s : State) (k : BitVec 5), s.dev.live = true → s.dev.crypt.busy = some k →
    let bs := s.dev.crypt.wrapped
    let good := s.fuses.kwkOk = true ∧ unwrapBlock s.fuses.kwk bs 0 = wrapCheck k
    ∃ d : Dev, exec .keyLoadDone s = .next { s with dev := d } ∧ d.crypt.busy = none ∧ d.fldR A.keyCmd 35 1 = 0 ∧
      s.dev.regsBut d [A.keyCmd] ∧
      (¬ good → d.fldR A.keyCmd 32 3 = 2 ∧ d.crypt.slots = s.dev.crypt.slots) ∧
      (good → (s.dev.crypt.slots[k.toNat]?.join).isSome = true → d.fldR A.keyCmd 32 3 = 3 ∧ d.crypt.slots = s.dev.crypt.slots) ∧
      (good → s.dev.crypt.slots[k.toNat]?.join = none → d.fldR A.keyCmd 32 3 = 1 ∧
        ∀ i : Fin 32, d.crypt.slots[i] = if i.val = k.toNat then
          some (unwrapBlock s.fuses.kwk bs 1 ++ unwrapBlock s.fuses.kwk bs 2) else s.dev.crypt.slots[i])) ∧
  (∀ (s : State) (v : Word), s.dev.live = true → s.dev.crypt.busy = none →
    ∃ d : Dev, exec (.keyClear .hub v) s = .next { s with dev := d } ∧ d.fldR A.keyCmd 32 3 = 1 ∧
      d.crypt.keyData = Vector.replicate 8 0 ∧ s.dev.regsBut d [A.keyCmd] ∧
      ∀ i : Fin 32, d.crypt.slots[i] = if i.val = fld v 36 5 then none else s.dev.crypt.slots[i]) ∧
  (∀ (s : State) (m : Master) (v : Word), s.dev.live = true →
      let r := fld v 40 6
      let free := regionUsed s.dev.cfg r = true ∧ regionEnc s.dev.cfg r = true ∧ s.dev.rotating r = false ∧
        fld v 0 32 ≠ s.dev.fldR (A.epoch r) 0 32
      ∃ d : Dev, exec (.rotationStart m v) s = .next { s with dev := d } ∧
        (free → d.fldR A.rotCmd 46 1 = 0 ∧ d.rotating r = true ∧ d.rotPtr r = 0 ∧
          d.fldR (A.nextEpoch r) 0 32 = fld v 0 32 ∧ s.dev.regsBut d [A.rotCmd, A.rot r, A.nextEpoch r] ∧
          ∀ e : Fin 72, if (s.dev.engs[e]).run ≠ .off ∧ (s.dev.engs[e]).run ≠ .fenced then
            (s.dev.engs[e]).getsEvent d.engs[e] 3 else d.engs[e] = s.dev.engs[e]) ∧
        (¬ free → d.fldR A.rotCmd 46 1 = 1 ∧ d = { s.dev with rf := d.rf } ∧ s.dev.regsBut d [A.rotCmd]))

/-! ### The capacity tier -/

/-- A tier access by itself (R235, R239, R240, R243, R244): a table line whose page has never been written answers a read
with zeros; a merged write is staged and its claim ends; the entry changes when its lines are loaded; the granules it left
are free again; the initial fill empties the pool. -/
def Obligations.TierAccess : Prop :=
  (∀ (s : State) (o : TierOp) (table : Line) (tag : BitVec 12) (src : BitVec 10), s.dev.live = true → s.dev.txn.held = [] →
    s.dev.jobs = [] → s.dev.tier.ops = [o] → o.phase = .waitEntry → o.move = none → o.h.op = .rd → o.h.who = .hub tag src →
    s.dev.tier.initWait = false → s.dev.powerOpen = true → s.dev.pmcGet o.idx = none →
    (s.dev.tier.pmc.filter (fun x => x.1 % 8192 = o.idx.toNat % 8192)).length < 8 → s.dev.tracksOnly .q tag →
    kvGet s.dev.tier.loaded o.idx.toNat = some (some table) →
    let e : BitVec 128 := table.extractLsb' (8 * s.dev.pmtByte o.idx) 128
    entState e = 0 →
    ∃ d : Dev, exec (.pmcMissFill o.idx ()) s = .next { s with dev := d } ∧ d.tier.ops = [] ∧
      d.pmcGet o.idx = some (entTouch e) ∧ s.dev.queuesP d .q tag (rspD tag src .ok false false 0 s.dev.attnValue)) ∧
  (∀ (s : State) (o : TierOp) (l : Line), s.dev.live = true → s.dev.txn.held = [] → s.dev.jobs = [] → s.dev.queuesEmpty →
    s.dev.tier.ops = [o] → o.phase = .reading → o.move = none → o.gotAll = true → o.h.op = .wr l → entState o.oldEntry ≠ 2 →
    ∃ (d : Dev) (p : TierOp), exec (.tierWriteMerge o.idx ()) s = .next { s with dev := d } ∧ d.tier.ops = [p] ∧
      p.phase = .writing ∧ p.staged[chunkPos o.h.r.line]? = some (some l) ∧ p.idx = o.idx ∧ p.claim = false ∧
      d.tier.claims = s.dev.tier.claims - 1) ∧
  (∀ (s : State) (o : TierOp), s.dev.live = true → s.dev.txn.held = [] → s.dev.jobs = [] → s.dev.tier.ops = [o] →
    o.phase = .writing → o.move = none → o.wleft = 0 → o.copies = 0 → entState o.oldEntry ≠ 2 →
    (s.dev.pmcGet o.idx).isSome = true →
    ∃ d : Dev, exec (.tierEntrySwitch o.idx) s = .next { s with dev := d } ∧ d.tier.ops = [] ∧
      d.pmcGet o.idx = some (entTouch (s.dev.entNow o.idx o.newEntry))) ∧
  (∀ (s : State) (o : TierOp) (used : BitVec 8), s.dev.live = true → s.dev.txn.held = [] → s.dev.jobs = [] →
    s.dev.tier.ops = [o] → o.phase = .switched → o.readers = [] → entState o.oldEntry = 2 → entGranules o.oldEntry ≠ 0 →
    let b := (s.dev.poolPlace (entPtr o.oldEntry)).1
    let left := used &&& ~~~ runBits (s.dev.poolPlace (entPtr o.oldEntry)).2 (entGranules o.oldEntry)
    kvGet s.dev.tier.pool b = some (.tier used) →
    ∃ d : Dev, exec (.granuleFree o.idx) s = .next { s with dev := d } ∧ d.tier.ops = [] ∧
      (left = 0 → kvGet d.tier.pool b = none ∧ d.tier.free = s.dev.tier.free + 1) ∧
      (left ≠ 0 → kvGet d.tier.pool b = some (.tier left) ∧ d.tier.free = s.dev.tier.free)) ∧
  (∀ s : State, s.dev.live = true → s.dev.calm → s.dev.tierInitOver = true →
    exec .tierInitDone s = .next { s with dev := s.dev.modTier (fun t =>
      { t with initWait := false, pmc := [], pool := [], free := s.dev.poolBlocks, frag := 0 }) })

/-- Moves (R246, R362): a mover that is free takes its command and waits for the page's entry, a busy one takes none; a
move that has written its lines changes the entry, and none ends at throttle level 2. -/
def Obligations.MovesRunTheirCourse : Prop :=
  (∀ (s : State) (i : Instr) (ma : Master) (m : Fin 4) (v : Word) (op : Nat), s.dev.live = true →
    moveOf i = some (ma, m, v, op) →
    let idx : BitVec 32 := BitVec.ofNat 32 (fld v 0 32)
    (bit (s.dev.reg (A.moveCmd m.val)) 43 = true → exec i s = .next s) ∧
    (bit (s.dev.reg (A.moveCmd m.val)) 43 = false → s.dev.calm → s.dev.pmcGet idx = none →
      ∃ (d : Dev) (o : TierOp), exec i s = .next { s with dev := d } ∧ bit (d.reg (A.moveCmd m.val)) 43 = true ∧
        d.fldR (A.moveCmd m.val) 0 32 = fld v 0 32 ∧ d.tier.moves[m] = some { op := BitVec.ofNat 2 op, idx := idx } ∧
        d.tier.ops = [o] ∧ o.move = some m ∧ o.idx = idx ∧ o.phase = .waitEntry)) ∧
  (∀ (s : State) (m : Fin 4) (o : TierOp), s.dev.live = true →
    (s.dev.throttled = true → exec (.moveDone m ()) s = .next s) ∧
    (s.dev.throttled = false → s.dev.txn.held = [] → s.dev.jobs = [] → s.dev.tier.ops = [o] → o.move = some m →
      o.phase = .writing → o.wleft = 0 → (s.dev.pmcGet o.idx).isSome = true →
      ∃ d : Dev, exec (.moveDone m ()) s = .next { s with dev := d } ∧
        bit (d.reg (A.moveCmd m.val)) 43 = false ∧ d.fldR (A.moveCmd m.val) 44 2 = 1 ∧ d.tier.moves[m] = none ∧
        d.pmcGet o.idx = some (s.dev.entNow o.idx o.newEntry) ∧
        d.tier.ops = [{ o with phase := .switched, readers := [] }]))

/-! ### Faults and Sillage -/

/-- An occurrence at both collectors (R280 to R284, R287, R289): a masked source only shows its presence; a MAJOR one of a
quiet source pends with its count and its record, and raises ATTN 9; an uncorrectable ECC error of an engine's memories fences
the engine with cause 2 (R271), whatever its source's configuration. An invalid pair pends MAJOR once per entry (R281); a
disagreement is counted and reported as source 160 (R282); the watchdog's event pends and is CRITICAL (R294). -/
def Obligations.FaultsAreCollected : Prop :=
  (∀ (s : State) (src : Fin 192) (r : Report) (level : Bool), s.dev.live = true → src.val ≤ 161 →
      fixedSev src.val r.event.toNat = none →
      let x := s.dev.srcAt src.val
      let ecc := src.val ≤ 71 ∧ r.event = 5
      (¬ ecc → s.dev.srcBase src.val = 0 → ∃ d : Dev, exec (.faultOccurrence src r level true true) s = .next { s with dev := d } ∧
        d.rf = s.dev.rf ∧ d.sill = s.dev.sill ∧ (d.srcAt src.val).pend = x.pend ∧ (d.srcAt src.val).sev = x.sev ∧
        (d.srcAt src.val).pres = (x.pres || level) ∧ ∀ j, j ≠ src.val → d.srcAt j = s.dev.srcAt j) ∧
      (¬ ecc → level = false ∨ x.pres = false → s.dev.srcBase src.val = 3 → s.dev.srcCount src.val = 0 → s.dev.escMask src.val = false → x.pend = false → x.sev = 0 →
        ∃ d : Dev, exec (.faultOccurrence src r level true true) s = .next { s with dev := d } ∧
          (d.srcAt src.val).pendA = true ∧ (d.srcAt src.val).pendB = true ∧ (d.srcAt src.val).sev = 3 ∧
          (d.srcAt src.val).count = 1 ∧ d.fldR A.attn 9 1 = 1 ∧
          (s.dev.srcFull src.val = true → (d.srcAt src.val).rcd.isSome = true ∧
            (s.dev.flt.first = none → d.flt.first = some (BitVec.ofNat 8 src.val) ∧ d.fldR A.first 0 8 = src.val)) ∧
          s.dev.regsBut d [A.attn, A.first, A.sillLost]) ∧
      (ecc → s.dev.srcBase src.val = 0 → ∃ d : Dev, exec (.faultOccurrence src r level true true) s = .next { s with dev := d } ∧
        (d.engs[Fin.ofNat 72 src.val]).run = .fenced ∧
        ((s.dev.engs[Fin.ofNat 72 src.val]).run ≠ .fenced → (d.engs[Fin.ofNat 72 src.val]).fenceCause = 2))) ∧
  (∀ (s : State) (src : Fin 192), s.dev.live = true → src.val ≤ 161 →
    let x := s.dev.srcAt src.val
    (x.pathBad = true → exec (.path src) s = .next s) ∧
    (x.pathBad = false → x.pend = false → x.sev = 0 → ∃ d : Dev, exec (.path src) s = .next { s with dev := d } ∧
      (d.srcAt src.val).pathBad = true ∧ (d.srcAt src.val).pend = true ∧ (d.srcAt src.val).sev = 3 ∧ d.fldR A.attn 9 1 = 1)) ∧
  (∀ s : State, s.dev.live = true →
    (s.dev.flt.src.any (fun x => x.2.differs) = false → exec .disagree s = .next s) ∧
    (s.dev.flt.src.any (fun x => x.2.differs) = true → ∃ d : Dev, exec .disagree s = .next { s with dev := d } ∧
      d.fldR A.cmp 0 16 = min (s.dev.fldR A.cmp 0 16 + 1) 65535 ∧ (d.srcAt 160).pend = true ∧ 3 ≤ (d.srcAt 160).sev)) ∧
  (∀ (s : State) (src : Fin 192) (ev : Nat), s.dev.live = true → wedgedEvent src.val = some ev → s.dev.applied = true →
    s.dev.cfgLe Sec.faults 4 4 ≠ 0 → (s.dev.srcAt src.val).sev < 4 →
    ∃ d : Dev, exec (.wedged src) s = .next { s with dev := d } ∧ (d.srcAt src.val).pend = true ∧
      4 ≤ (d.srcAt src.val).sev ∧ d.fldR A.attn 10 1 = 1)

/-- The ends of faults (R280, R283, R287, R288): a quiet pair is not present, a window's end restarts its count, the hub's
write clears the sources that are gone and no others, and lets FIRST go. -/
def Obligations.FaultsEnd : Prop :=
  (∀ (s : State) (src : Fin 192), s.dev.live = true →
    ∃ d : Dev, exec (.sourceQuiet src) s = .next { s with dev := d } ∧ (d.srcAt src.val).pres = false ∧
      (d.srcAt src.val).pathBad = false ∧ (d.srcAt src.val).pend = (s.dev.srcAt src.val).pend ∧
      ∀ j, j ≠ src.val → d.srcAt j = s.dev.srcAt j) ∧
  (∀ (s : State) (src : Fin 192), s.dev.live = true → (s.dev.srcAt src.val).window = true →
    ∃ d : Dev, exec (.faultWindowEnd src) s = .next { s with dev := d } ∧
      d.srcAt src.val = { s.dev.srcAt src.val with window := false, wcount := 0 } ∧
      ∀ j, j ≠ src.val → d.srcAt j = s.dev.srcAt j) ∧
  (∀ (s : State) (k : Fin 4) (v : Word), s.dev.live = true →
    (∀ b, b < 48 → bit v b = true → (s.dev.srcAt (48 * k.val + b)).pres = false) →
    ∃ d : Dev, exec (.pendingClear .hub k v) s = .next { s with dev := d } ∧
      (∀ b, b < 48 → bit v b = true → (d.srcAt (48 * k.val + b)).pend = false) ∧
      (∀ j, (∀ b, b < 48 → bit v b = true → j ≠ 48 * k.val + b) → d.srcAt j = s.dev.srcAt j) ∧
      d.flt.fatal = s.dev.flt.fatal ∧ s.dev.regsBut d [A.sillLost]) ∧
  (∀ (s : State) (v : Word), s.dev.live = true → bit v 8 = true → exec (.firstClear .hub v) s =
    .next { s with dev := { s.dev with flt := { s.dev.flt with first := none } } })

/-- Sillage (R296, R297): with a tick of REFCLK the oldest waiting record enters the ring at NEXT, unless the ring is frozen;
the wrap of the time is recorded; RESUME thaws, and INDEX latches a record. -/
def Obligations.SillageRecords : Prop :=
  (∀ (s : State) (r : BitVec 128) (q : List (BitVec 128)), s.dev.on = true → s.dev.sill.queue = r :: q →
    s.dev.sill.frozen = false → s.dev.sill.lostNow = 0 → s.dev.sill.time + 1 ≠ 0 → slotField r 79 72 ≠ 11 →
    ∃ d : Dev, exec .sillageWrite s = .next { s with dev := d } ∧ d = { s.dev with sill := d.sill } ∧ d.sill.queue = q ∧
      d.sill.next = s.dev.sill.next + 1 ∧ d.sill.time = s.dev.sill.time + 1 ∧
      ∀ i, sget (0 : BitVec 128) d.sill.ring i =
        if i = s.dev.sill.next.toNat then r else sget (0 : BitVec 128) s.dev.sill.ring i) ∧
  (∀ s : State, s.dev.on = true → s.dev.sill.frozen = true → s.dev.sill.lostNow = 0 → s.dev.sill.time + 1 ≠ 0 →
    exec .sillageWrite s = .next { s with dev := { s.dev with sill := { s.dev.sill with time := s.dev.sill.time + 1 } } }) ∧
  (∀ s : State, s.dev.on = true → s.dev.sill.time = ~~~ 0 → s.dev.sill.queue.length < 32 → exec .timewrap s =
    .next { s with dev := { s.dev with sill := { s.dev.sill with
      time := 0, queue := s.dev.sill.queue ++ [sillRec 0 12 0 0 0] } } }) ∧
  (∀ (s : State) (m : Master) (v : Word), s.dev.live = true →
    let r := sget (0 : BitVec 128) s.dev.sill.ring (fld v 0 12)
    let latched : Dev → Prop := fun d => d.fldR A.sillCtl 0 12 = fld v 0 12 ∧ d.reg (A.sillData 0) = r.extractLsb' 0 48 ∧
      d.reg (A.sillData 1) = r.extractLsb' 48 48 ∧ (d.reg (A.sillData 2)).toNat = (r.extractLsb' 96 32).toNat ∧
      s.dev.regsBut d [A.sillCtl, A.sillData 0, A.sillData 1, A.sillData 2]
    (∃ d : Dev, exec (.sillageResume m v) s = .next { s with dev := d } ∧ latched d ∧
      d.sill = { s.dev.sill with frozen := false, countdown := none }) ∧
    ∃ d : Dev, exec (.sillageLatch m v) s = .next { s with dev := d } ∧ latched d ∧ d.sill = s.dev.sill)

/-! ### Resets -/

/-- A trigger of a full reset (R307, R308, R312): in P0 the link goes down, the receive buffer is discarded and the drain
begins, with its cause and count; in steps 1 to 4 it is absorbed; from P2 and P3 the wake steps run first. -/
def Obligations.FullResetStarts : Prop :=
  ∀ (s : State) (i : Instr) (cause : Nat), s.dev.live = true → resetBy s i = some cause →
    (s.dev.rst.step = 0 → s.dev.pwrState = 0 → ∃ d : Dev, exec i s = .next { s with dev := d } ∧ d.rst.step = 2 ∧
      d.fldR A.reset 5 3 = cause ∧ d.fldR A.reset 32 16 = min (s.dev.fldR A.reset 32 16 + 1) 65535 ∧ d.link.st = .down ∧
      d.link.rstUp = true ∧ d.txn.rx = [] ∧ (∀ h ∈ d.txn.held, h.isInner = true) ∧ d.loader = .idle ∧ d.pwr.toReset = s.dev.pwr.toReset) ∧
    (1 ≤ s.dev.rst.step → s.dev.rst.step ≤ 4 → ∃ d : Dev, exec i s = .next { s with dev := d } ∧
      d = { s.dev with pins := d.pins } ∧ d.pins.resetN = (s.dev.pins.resetN && decide (i ≠ .resetNFall))) ∧
    (s.dev.rst.step = 0 → s.dev.pwrState = 2 ∨ s.dev.pwrState = 3 → ∃ d : Dev, exec i s = .next { s with dev := d } ∧
      d.rst.step = 2 ∧ d.pwr.toReset = true ∧ d.pwrPhase = 3 ∧ d.pwr.wakeStep = (if s.dev.pwrState = 2 then 2 else 1) ∧
      d.fldR A.reset 5 3 = cause ∧ d.fldR A.reset 0 2 = 3 ∧ d.ports = s.dev.ports)

/-- The steps of a full reset (Table 12.4, R308 to R310): the drain ends with empty queues and DRAIN_OK if it wrote all; the
retain step leaves powered tiles in self-refresh, or lost; the core reset ends with BOOTSEL sampled, once RESET_N is high. -/
def Obligations.FullResetSteps : Prop :=
  (∀ (s : State) (ue : List (Fin 4 × Nat)), s.dev.live = true → s.dev.rst.step = 2 → s.dev.pwr.toReset = false →
    (s.dev.drained ue = false → exec (.drainEnd ue) s = .next s) ∧
    (s.dev.drained ue = true → ∃ d : Dev, exec (.drainEnd ue) s = .next { s with dev := d } ∧ d.rst.step = 3 ∧
      d.queuesEmpty ∧ d.tier.ops = [] ∧ s.dev.regsBut d [A.reset, A.sillLost] ∧
      (d.fldR A.reset 0 1 = 1 ↔ (∀ p : Fin 4, (s.dev.ports[p]).wrq = []) ∧ s.dev.rst.drainBad = false)) ∧
    ∃ d : Dev, exec .drainTimeout s = .next { s with dev := d } ∧ d.rst.step = 3 ∧ d.queuesEmpty ∧ d.tier.ops = [] ∧
      s.dev.regsBut d [A.reset, A.sillLost]) ∧
  (∀ s : State, s.dev.live = true → s.dev.rst.step = 3 →
    (∃ t : State, exec .retainEnd s = .next t ∧ t.dev.rst.step = 4 ∧ t.dev.fldR A.reset 1 1 = b2n (!s.dev.rst.retainBad) ∧
      t.dev.link.st = .down ∧ t.dev.txn.held = [] ∧ t.fuses = s.fuses ∧ t.cells = s.cells ∧
      ∀ i : Fin 16, (s.dev.tiles[i]).powered = true → (t.dev.tiles[i]).inSr = true) ∧
    ∀ (failed : BitVec 16) (i : Fin 16), (s.dev.tiles[i]).powered = true → (s.dev.tiles[i]).inSr = false →
      failed.getLsbD i.val = true → ∃ t : State, exec (.retainTimeout failed) s = .next t ∧ t.dev.rst.step = 4 ∧
        t.dev.fldR A.reset 1 1 = 0 ∧
        ∀ c, c < s.dev.stack i → c < 8 → t.dev.fldR (A.lost (tilePort i).val (i.val % 4 * 8 + c)) 0 32 = 2 ^ 32 - 1) ∧
  (∀ (s : State) (boot : BitVec 2), s.dev.live = true → s.dev.rst.step = 4 →
    let reloads : State → Prop := fun t => t.dev.rst.step = 5 ∧ t.dev.fldR A.lc 4 2 = boot.toNat ∧ t.dev.pins.resetN = true ∧
      (boot ≠ 3 → t.dev.loader.active = true ∧ t.dev.loader.src = BitVec.ofNat 3 (boot.toNat + 1) ∧
        t.dev.fldR A.accStatus 20 4 = 1)
    (s.dev.rst.waitRise = false → s.dev.pins.resetN = true → ∃ t : State, exec (.coreResetEnd boot) s = .next t ∧ reloads t) ∧
    (s.dev.rst.waitRise = false → s.dev.pins.resetN = false → ∃ d : Dev, exec (.coreResetEnd boot) s = .next { s with dev := d } ∧
      d.rst.step = 4 ∧ d.rst.waitRise = true ∧ s.dev.regsBut d [A.sillLost]) ∧
    (s.dev.rst.waitRise = true → ∃ t : State, exec (.resetNRise boot) s = .next t ∧ reloads t) ∧
    (s.dev.rst.waitRise = false → exec (.resetNRise boot) s =
      .next { s with dev := { s.dev with pins := { s.dev.pins with resetN := true } } }))

/-! ### Power -/

/-- The supplies and their pins (R307, R327, R328, R332, R337, R363): POWER_ON reads the fuse cells, samples BOOTSEL, draws
the nonce and trains the link; POWER_LOSS leaves the reset state; PWRFAIL breaks off hub flash operations; THERMTRIP stops
the block. -/
def Obligations.SuppliesAndTheirPins : Prop :=
  (∀ (s : State) (boot : BitVec 2) (sfdp : Bool), s.dev.on = false →
    ∃ t : State, exec (.powerOn { bootsel := boot, sfdp := sfdp }) s = .next t ∧ t.dev.on = true ∧ t.fuses = s.cells ∧ t.cells = s.cells ∧
      t.flash = s.flash ∧ t.dev.link.st = .training ∧ t.dev.pins.resetN = true ∧ t.dev.fldR A.lc 4 2 = boot.toNat ∧
      t.dev.reg A.nonce = Config.nonceDraw s.dev.freeCtr ∧ t.dev.rst.step = 0 ∧
      t.dev.side.flashOk = sfdp ∧ (boot ≠ 3 → t.dev.loader.active = true ∧
        t.dev.loader.src = BitVec.ofNat 3 (boot.toNat + 1) ∧ t.dev.fldR A.accStatus 20 4 = 1)) ∧
  (∀ s : State, s.dev.on = true → ∃ t : State, exec .powerLoss s = .next t ∧
    t.dev = { Dev.reset with freeCtr := t.dev.freeCtr } ∧ t.fuses = s.fuses) ∧
  (∀ s : State, s.dev.live = true → s.dev.pins.pwrfailN = true → s.dev.journal.busy = false →
    ∃ t : State, exec .pwrfail s = .next t ∧ t.dev.pins.pwrfailN = false ∧ t.fuses = s.fuses ∧ t.cells = s.cells ∧
      (s.dev.side.flashOp = none → t.flash = s.flash ∧ s.dev.regsBut t.dev [A.sillLost]) ∧
      ∀ op a n, s.dev.side.flashOp = some (op, a, n) → op = 1 ∨ op = 2 → t.dev.side.flashOp = none ∧
        t.dev.fldR A.flashCmd 8 2 = 3 ∧ t.dev.fldR A.flashCmd 7 1 = 0) ∧
  (∀ s : State, s.dev.live = true → s.dev.journal.busy = false → ∃ t : State, exec .pwrfailRise s = .next t ∧
    t.dev.pins.pwrfailN = true ∧ t.dev.journal.busy = s.dev.journal.dirty ∧ t.dev.journal.eraseDue = false ∧
    s.dev.regsBut t.dev [A.journal] ∧ t.fuses = s.fuses ∧ t.cells = s.cells ∧
    ∀ a, memRead t.flash a =
      if s.dev.journal.eraseDue = true ∧ journalSlot s.dev.journalNext ≤ a ∧ a < journalSlot s.dev.journalNext + 0x4000
      then flashErased else memRead s.flash a) ∧
  (∀ s : State, s.dev.live = true →
    ∃ d : Dev, exec .thermtrip s = .next { s with dev := d } ∧ d = { s.dev with pins := d.pins } ∧ d.live = false)

/-- Power entries (R318 to R320): a permitted one polls the blocks in turn; a block that agrees passes to the next, and
the last one's agreement enters the state; a refusal returns to P0 with its block's number. -/
def Obligations.PowerEntries : Prop :=
  (∀ (s : State) (i : Instr) (t : Nat), s.dev.live = true → s.dev.steadyP0 → entryOf i = some (.hub, t) →
    let barred := s.dev.permits t = false ∨ s.dev.flt.fatal = true ∨ s.dev.noAccord = true
    let busy := 2 ≤ t ∧ (s.dev.journal.busy = true ∨ s.dev.cgBusy = true)
    (barred → ∃ d : Dev, exec i s = .next { s with dev := d } ∧ d = { s.dev with rf := d.rf } ∧
      d.fldR A.pwrStatus 12 4 = 3 ∧ d.pwrPhase = 0 ∧ d.pwrState = 0 ∧ s.dev.regsBut d [A.pwrStatus]) ∧
    (¬ barred → busy → ∃ d : Dev, exec i s = .next { s with dev := d } ∧ d = { s.dev with rf := d.rf } ∧
      d.fldR A.pwrStatus 12 4 = 4 ∧ d.pwrPhase = 0 ∧ d.pwrState = 0 ∧ s.dev.regsBut d [A.pwrStatus]) ∧
    (¬ barred → ¬ busy → s.dev.pollUs ≠ 0 → (∀ m ∈ s.dev.txn.rx, m.vc ≠ .k) →
      ∃ d : Dev, exec i s = .next { s with dev := d } ∧ d.pwrPhase = 1 ∧ d.pwrTarget = t ∧ d.pwrState = 0 ∧
        d.pwr.poll = 0 ∧ d.pwr.latched = 0 ∧ d.txn = s.dev.txn ∧ d.ports = s.dev.ports)) ∧
  (∀ s : State, s.dev.live = true → s.dev.pwrPhase = 1 → s.dev.pwr.poll ≤ 4 →
    let k := s.dev.pwr.poll
    (s.dev.pollRefuse k = true → ∃ d : Dev, exec .blockAgree s = .next { s with dev := d } ∧
      d.fldR A.pwrStatus 12 4 = 2 ∧ d.fldR A.pwrStatus 16 3 = k + 1 ∧ d.pwrState = s.dev.pwrState) ∧
    (s.dev.pollRefuse k = false → s.dev.pollReady s.dev.pwrTarget k = false → exec .blockAgree s = .next s) ∧
    (s.dev.pollRefuse k = false → s.dev.pollReady s.dev.pwrTarget k = true → k < 4 → s.dev.pollRefuse (k + 1) = false →
      s.dev.pollUs ≠ 0 → (k = 1 → s.dev.calm ∧ ∀ x ∈ s.dev.tier.pmc, x.2.dirty = false) →
      ∃ d : Dev, exec .blockAgree s = .next { s with dev := d } ∧ d.pwr.poll = k + 1 ∧ d.pwrPhase = 1) ∧
    (s.dev.pollRefuse k = false → s.dev.pollReady s.dev.pwrTarget k = true → k = 4 → s.dev.pwr.latched = 0 →
      1 ≤ s.dev.pwrTarget → s.dev.pwrTarget ≤ 3 → ∃ d : Dev, exec .blockAgree s = .next { s with dev := d } ∧
        d.pwrState = s.dev.pwrTarget ∧ d.pwrPhase = 0 ∧ d.fldR A.pwrStatus 12 4 = 1 ∧
        (s.dev.pwrTarget ≤ 2 → d.link.standby = true)) ∧
    (s.dev.calm → ∃ d : Dev, exec .pollTimeout s = .next { s with dev := d } ∧ d.fldR A.pwrStatus 12 4 = 2 ∧
      d.fldR A.pwrStatus 16 3 = k + 1 ∧ d.fldR A.refusals (8 * k) 8 = min (s.dev.fldR A.refusals (8 * k) 8 + 1) 255))

/-- Wakes (R321 to R324): an event in P1 to P3 starts the wake at the state's first step, one during an entry is latched;
each finished step is followed by its next; a failed one starts a full reset at step 4 with cause 4. -/
def Obligations.WakesRunTheirSteps : Prop :=
  (∀ (s : State) (i : Instr) (b : Nat), s.dev.live = true → s.dev.pwrPhase = 0 → wakeOf s.dev i = some b →
    (s.dev.pwrState = 0 → exec i s = .next s) ∧
    (1 ≤ s.dev.pwrState → s.dev.pwrState ≤ 3 → ∃ d : Dev, exec i s = .next { s with dev := d } ∧ d.pwrPhase = 3 ∧
      d.pwrState = s.dev.pwrState ∧ d.pwr.wakeEvents = BitVec.ofNat 3 (2 ^ b) ∧
      d.pwr.wakeStep = if s.dev.pwrState = 1 then 3 else if s.dev.pwrState = 2 then 2 else 1)) ∧
  (∀ s : State, s.dev.live = true → s.dev.pwrPhase = 1 → exec .wakeNFall s =
    .next { s with dev := { s.dev with pwr := { s.dev.pwr with latched := putBit s.dev.pwr.latched 0 true } } }) ∧
  (∀ (s : State) (crcOk : Bool), s.dev.live = true → s.dev.pwrPhase = 3 → s.dev.pwr.wakeStep ≠ 0 →
    s.dev.wakeStepDone = true → s.dev.pwr.toReset = false → (s.dev.pwr.wakeStep = 4 → crcOk = true) →
    ∃ t : State, exec (.wakeStepEnd crcOk) s = .next t ∧
      t.dev.pwr.wakeStep = wakeNext s.dev.pwrState s.dev.pwr.wakeStep ∧ t.dev.pwrPhase = 3 ∧ t.fuses = s.fuses ∧
      t.cells = s.cells ∧ t.flash = s.flash) ∧
  (∀ s : State, s.dev.live = true → s.dev.pwrPhase = 3 → 1 ≤ s.dev.pwr.wakeStep → s.dev.pwr.wakeStep ≤ 7 →
    s.dev.pwr.toReset = false → ∃ t : State, exec .wakeFail s = .next t ∧ t.dev.rst.step = 4 ∧
      t.dev.fldR A.reset 5 3 = 4 ∧ t.dev.pwrState = 0 ∧ t.dev.link.st = .down)

/-- The sensors (R361, R362): below the limit they only show; the level rises with the hottest at its starts, and falls
one step when the die has cooled. -/
def Obligations.ThermalLevels : Prop :=
  (∀ (s : State) (temps : List Byte), s.dev.live = true → (∀ k, k < 8 → sensorOf temps k ≤ 189) →
    ∃ d : Dev, exec (.sensorRead temps) s = .next { s with dev := d } ∧
      (∀ k, k < 8 → sensorOf temps k ≤ d.fldR A.therm 32 8 ∧ d.fldR (A.temp (k / 4)) (8 * (k % 4)) 8 = sensorOf temps k) ∧
      d.fldR A.therm 32 8 = sensorOf temps (d.fldR A.therm 21 3) ∧
      (s.dev.applied = true → s.dev.pwrState = 0 → s.dev.throttleAt ≠ 0 → s.dev.fldR A.therm 18 2 ≤ 2 →
        (s.dev.throttleAt + 4 ≤ d.fldR A.therm 32 8 → d.fldR A.therm 18 2 = 2) ∧
        (s.dev.fldR A.therm 18 2 = 0 → s.dev.throttleAt ≤ d.fldR A.therm 32 8 →
          1 ≤ d.fldR A.therm 18 2 ∧ d.fldR A.attn 6 1 = 1)) ∧
      s.dev.fldR A.therm 18 2 ≤ d.fldR A.therm 18 2) ∧
  (∀ s : State, s.dev.live = true →
    let lvl := s.dev.fldR A.therm 18 2
    let start := s.dev.throttleAt + if lvl = 2 then 4 else 0
    (lvl ≠ 0 → s.dev.dieTemp + 3 ≤ start → ∃ d : Dev, exec .throttleStepDown s = .next { s with dev := d } ∧
      d = { s.dev with rf := d.rf } ∧ d.fldR A.therm 18 2 = lvl - 1 ∧ s.dev.regsBut d [A.therm]) ∧
    (lvl = 0 ∨ start < s.dev.dieTemp + 3 → exec .throttleStepDown s = .next s))

/-! ### The Accord -/

/-- Load attempts (R38 to R42): a failed first flash slot is followed by the other, the second or a push by the no-Accord
state, with the codes kept; time-outs fail with code 16; a push opens when the loader waits for it and takes its bytes. -/
def Obligations.LoadAttempts : Prop :=
  (∀ (s : State) (i : Instr) (c : BitVec 8), s.dev.live = true → s.dev.loader.active = true →
    (i = .accordLoadFail ∧ s.dev.loader.verdict = some (.fail c) ∧ c ∉ [5, 6, 9] ∨
      i = .flashTimeout ∧ c = 16 ∧ s.dev.loader.src = 1 ∧ s.fuses.noLoad = false ∨
      i = .sourceTimeout ∧ c = 16 ∧ s.dev.loader.pushOpen = true ∧ s.dev.loader.verdict = none) →
    ∃ t : State, exec i s = .next t ∧ t.fuses = s.fuses ∧ t.cells = s.cells ∧ t.flash = s.flash ∧
      (s.dev.loader.src = 1 → s.dev.loader.second = false → t.dev.loader.active = true ∧ t.dev.loader.second = true ∧
        t.dev.loader.slot = !s.dev.loader.slot ∧ t.dev.loader.firstCode = c ∧
        t.dev.loader.verdict = flashCheck s.fuses s.dev.side.flashOk (flashImage s.flash (!s.dev.loader.slot)) ∧
        t.dev.fldR A.accStatus 32 8 = c.toNat ∧ t.dev.fldR A.accStatus 20 4 = 1) ∧
      (s.dev.loader.src = 1 → s.dev.loader.second = true → t.dev.noAccord = true ∧ t.dev.loader = .idle ∧
        t.dev.fldR A.accStatus 40 8 = c.toNat ∧ t.dev.fldR A.accStatus 20 4 = 3) ∧
      (s.dev.loader.src ≠ 1 → t.dev.noAccord = true ∧ t.dev.loader = .idle ∧ t.dev.fldR A.accStatus 32 8 = c.toNat ∧
        t.dev.fldR A.accStatus 40 8 = 0 ∧ t.dev.fldR A.accStatus 20 4 = 3)) ∧
  (∀ (s : State) (i : Instr) (src : BitVec 3), s.dev.live = true → s.dev.pushReady = true →
    ((∃ m v, i = .pushStart m v ∧ bit v 0 = true ∧ src = 2) ∨ i = .i3cPushOpen ∧ src = 3 ∧ s.dev.i3cOn = true) →
    (s.dev.noAccord = true ∨ s.dev.bootsel = if src = 2 then 1 else 2) →
    ∃ d : Dev, exec i s = .next { s with dev := d } ∧ d.loader.active = true ∧ d.loader.pushOpen = true ∧
      d.loader.src = src ∧ d.loader.push = [] ∧ d.loader.verdict = loadVerdict s.fuses [] ∧ d.fldR A.accStatus 20 4 = 1) ∧
  (∀ (s : State) (i : Instr) (src : BitVec 3) (bs : List Byte), s.dev.live = true →
    ((∃ m v, i = .pushData m v ∧ bs = leBytes 6 v.toNat ∧ src = 2) ∨
      i = .i3cPushData bs ∧ src = 3 ∧ s.dev.i3cOn = true) →
    s.dev.loader.pushOpen = true → s.dev.loader.src = src → s.dev.loader.verdict = none →
    exec i s = .next { s with dev := { s.dev with loader := { s.dev.loader with
      push := s.dev.loader.push ++ bs, verdict := loadVerdict s.fuses (s.dev.loader.push ++ bs) } } })

/-- The apply step (R50): the whole configuration is the Accord's, nothing of an open commit group stays, and the status
says so. Tiles that the Accord removed lose power; a tile whose RAMP is over is initialised, at power-on together with the port's
other tiles, once all of them have ramped (R167, R176, R177). -/
def Obligations.AccordApplies : Prop :=
  (∀ (s : State) (cfg : Memory) (build : BitVec 64) (secver : BitVec 16), s.dev.live = true →
    s.dev.loader.active = true → s.dev.loader.verdict = some (.ok cfg build secver) →
    ∃ d : Dev, exec .accordApply s = .next { s with dev := d } ∧ d.cfg = cfg ∧ d.applied = true ∧ d.noAccord = false ∧
      d.loader = .idle ∧ d.shadow = [] ∧ d.cg = Vector.replicate 9 .following ∧ d.fldR A.accStatus 20 4 = 2 ∧
      d.fldR A.secver 0 16 = secver.toNat ∧ d.reg A.buildLo = build.setWidth 48) ∧
  (∀ (s : State) (t : Fin 16), s.dev.live = true → s.dev.applied = true → s.dev.present t = false →
    (s.dev.tiles[t]).powered = true → (s.dev.tiles[t]).inSr = true →
    ∃ d : Dev, exec (.tileRemovePowerOff t) s = .next { s with dev := d } ∧ d = { s.dev with tiles := d.tiles } ∧
      (d.tiles[t]).powered = false ∧ (d.tiles[t]).inSr = false ∧ ∀ u : Fin 16, u ≠ t → d.tiles[u] = s.dev.tiles[u]) ∧
  (∀ (s : State) (t : Fin 16), s.dev.live = true → s.dev.calm →
    ((s.dev.tiles[t]).ramping = false → exec (.tileRampDone t) s = .next s) ∧
    let last := s.dev.pins.dramResetN.getLsbD (tilePort t).val = true ∨ ∀ u ∈ portTiles (tilePort t), u ≠ t →
      (s.dev.tiles[u]).ramping = true → (s.dev.tiles[u]).ramped = true
    ((s.dev.tiles[t]).ramping = true → last → ∃ d : Dev, exec (.tileRampDone t) s = .next { s with dev := d } ∧
      (d.tiles[t]).ramping = false ∧ (d.tiles[t]).hot = true ∧ d.pins.dramResetN.getLsbD (tilePort t).val = true) ∧
    ((s.dev.tiles[t]).ramping = true → ¬ last → exec (.tileRampDone t) s =
      .next { s with dev := { s.dev with tiles := s.dev.tiles.set t { s.dev.tiles[t] with ramped := true } } }))

/-- Commit groups and plain registers (R24, R52 to R54): a CG write goes to the shadow, not while its instance is pending;
COMMIT makes it pending, ABORT discards it, its landing makes the shadow live. -/
def Obligations.CommitGroups : Prop :=
  (∀ (s : State) (m : Master) (a : BitVec 24) (v : Word) (sp : RegSpec), s.dev.live = true →
    regSpec a.toNat = some sp → sp.cg ≠ 0 → sp.inst < 16 →
    let g := s.dev.cg[grpNo sp.grp]
    (g.isPend sp.inst = true → ∃ d : Dev, exec (.cgWrite m a v) s = .next { s with dev := d } ∧
      d = { s.dev with rf := d.rf } ∧ d.fldR (A.cgState sp.grp) 40 1 = 1 ∧ s.dev.regsBut d [A.cgState sp.grp]) ∧
    (g.isPend sp.inst = false → ∃ d : Dev, exec (.cgWrite m a v) s = .next { s with dev := d } ∧ d.rf = s.dev.rf ∧
      (d.cg[grpNo sp.grp]).isOpen sp.inst = true ∧ kvGet d.shadow a.toNat =
        some ((((kvGet s.dev.shadow a.toNat).getD (s.dev.reg a.toNat)) &&& ~~~ sp.cg) ||| (v &&& sp.cg)))) ∧
  (∀ (s : State) (m : Master) (v : Word), s.dev.live = true → s.dev.fldR A.accStatus 20 4 = 2 → 1 ≤ fld v 0 8 →
    fld v 0 8 ≤ 8 → bit v 15 = false → fld v 8 7 < groupSize (fld v 0 8) →
    let g := grpNo (fld v 0 8)
    let i := fld v 8 7
    (s.dev.cg[g]).isPend i = false →
    (∃ d : Dev, exec (.cgCommit m v) s = .next { s with dev := d } ∧ d = { s.dev with cg := d.cg } ∧
      ((s.dev.cg[g]).isOpen i = true → (d.cg[g]).isPend i = true ∧ (d.cg[g]).isOpen i = false) ∧
      ((s.dev.cg[g]).isOpen i = false → (d.cg[g]).emptyCommit.count i = (s.dev.cg[g]).emptyCommit.count i + 1)) ∧
    ∃ d : Dev, exec (.cgAbort m v) s = .next { s with dev := d } ∧ d.rf = s.dev.rf ∧ (d.cg[g]).isOpen i = false ∧
      ((s.dev.cg[g]).isOpen i = true → ∀ a, inGroup (fld v 0 8) i a = true → kvGet d.shadow a = none)) ∧
  (∀ (s : State) (g : Fin 9) (i : Fin 16), s.dev.live = true → s.dev.calm → i.val < groupSize g.val →
    (s.dev.cg[g]).isPend i.val = true → s.dev.cgPaused g.val i.val = false → s.dev.cgBoundary g.val i.val = true →
    (s.dev.shadow.map Prod.fst).Nodup →
    ∃ d : Dev, exec (.cgLand g i) s = .next { s with dev := d } ∧ (d.cg[g]).isPend i.val = false ∧
      (∀ a w, kvGet s.dev.shadow a = some w → inGroup g.val i.val a = true → d.reg a = w) ∧ (d.cg[g]).emptyCommit.count i.val = 0 ∧
      ∀ a, inGroup g.val i.val a = true → kvGet d.shadow a = none) ∧
  (∀ (s : State) (g : Fin 9) (i : Fin 16), s.dev.live = true → g = 2 ∨ g = 4 → i.val < 4 →
    (s.dev.cg[g]).isPend i.val = true → ∃ d : Dev, exec (.cgIdleHold g i) s = .next { s with dev := d } ∧
      d = { s.dev with cg := d.cg } ∧ (d.cg[g]).hold.getLsbD i.val = true) ∧
  (∀ (s : State) (m : Master) (v : Word), s.dev.live = true → s.dev.regOpen = true →
    ∃ d : Dev, exec (.regWrite m (BitVec.ofNat 24 A.ret) v) s = .next { s with dev := d } ∧
      d = { s.dev with rf := d.rf } ∧ d.fldR A.ret 0 16 = fld v 0 16 ∧ d.fldR A.ret 16 32 = s.dev.fldR A.ret 16 32 ∧
      s.dev.regsBut d [A.ret])

/-! ### The link -/

/-- Flits (R62, R63, R66, R69 to R74, R81, R87): the words of a flit's lanes are put together under the lane map; a good data
flit in sequence is accepted with its messages, a bad one counted and answered by a NAK, an ACK releases; a boundary sends
control messages first, then what is replayed, then a new data flit, else an idle one, striped over the lanes; NAK and the
ACK timer replay. -/
def Obligations.FlitsFlow : Prop :=
  (∀ (s : State) (lanes : List (List (BitVec 48))), s.dev.live = true → s.dev.link.st = .up →
    s.dev.link.standby = false → s.dev.link.req = none → s.dev.link.rxChange = none →
    let f := unstripe s.dev.link.rxLanes lanes
    (flitGood f = false → ∃ d : Dev, exec (.dataFlitRx lanes) s = .next { s with dev := d } ∧ d.link.exp = s.dev.link.exp ∧
      d.link.nakOut = true ∧ d.txn = s.dev.txn ∧
      d.link.ctlq = s.dev.link.ctlq ++ (if s.dev.link.nakOut then [] else [nakSlot s.dev.link.exp]) ∧
      d.fldR A.errcnt 32 16 = min (s.dev.fldR A.errcnt 32 16 + 1) 65535 ∧ s.dev.regsBut d [A.errcnt]) ∧
    (∀ m : Slot, flitGood f = true → bit f.hdr 35 = false → fld f.hdr 60 4 = 1 → fld f.hdr 48 12 = s.dev.link.exp.toNat →
      validSlots f = [m] → reqShape m = some (.q, 1) → s.dev.txn.part = [] →
      ∃ d : Dev, exec (.dataFlitRx lanes) s = .next { s with dev := d } ∧ d.link.exp = s.dev.link.exp + 1 ∧
        d.link.ackv = true ∧ d.link.nakOut = false ∧
        d.txn.rx = s.dev.txn.rx ++ [{ vc := .q, tag := slotTag m, slots := [m] }] ∧ d.rf = s.dev.rf) ∧
    (∀ (pre post : List TxFlit) (g : TxFlit), flitGood f = true → bit f.hdr 35 = true → fld f.hdr 60 4 = 0 →
      s.dev.link.replay = pre ++ [g] ++ post → fld f.hdr 36 12 = g.seq.toNat →
      (s.dev.link.replay.map (fun (x : TxFlit) => x.seq)).Nodup →
      ∃ d : Dev, exec (.dataFlitRx lanes) s = .next { s with dev := d } ∧ d.link.exp = s.dev.link.exp ∧ d.rf = s.dev.rf ∧
        d.link.replay = post.map (fun (x : TxFlit) => { x with tries := 0 }))) ∧
  (∀ s : State, s.dev.live = true → s.dev.link.st = .up → s.dev.link.standby = false → s.dev.link.announced = none →
    let sent : Dev → List (Option Slot) → Prop := fun d slots => ∃ (hdr : BitVec 64) (crc : BitVec 64),
      crc = crc64 (flitBytes hdr (slots.map slotOr0)) ∧ d.link.lastTx = some (hdr, slots, crc) ∧
      d.link.lanesOut = stripe s.dev.link.txLanes (flitWords { hdr := hdr, slots := slots.map slotOr0, crc := crc }) none
        s.dev.link.prbsFrom
    (s.dev.link.ctlq ≠ [] → ∃ d : Dev, exec .flitTx s = .next { s with dev := d } ∧ sent d (padSlots (s.dev.link.ctlq.take 14)) ∧
      d.link.ctlq = s.dev.link.ctlq.drop 14 ∧ d.link.next = s.dev.link.next ∧ d.link.replay = s.dev.link.replay) ∧
    (∀ (g : TxFlit) (r : List (BitVec 12)), s.dev.link.ctlq = [] → s.dev.link.resend = g.seq :: r →
      s.dev.link.replay.find? (fun x => x.seq = g.seq) = some g →
      ∃ d : Dev, exec .flitTx s = .next { s with dev := d } ∧ sent d g.slots ∧ d.link.resend = r ∧ d.link.next = s.dev.link.next) ∧
    (∀ (o : OutMsg) (m : Slot), s.dev.link.ctlq = [] → s.dev.link.resend = [] → s.dev.link.replay.length < 256 →
      s.dev.txn.outP = [o] → s.dev.txn.outM = [] → o.slots = [m] → o.vc = .q → o.resync = false → s.dev.link.xoffP = false →
      ∃ d : Dev, exec .flitTx s = .next { s with dev := d } ∧ sent d (padSlots [m]) ∧ d.txn.outP = [] ∧
        d.link.next = s.dev.link.next + 1 ∧
        d.link.replay = s.dev.link.replay ++ [{ seq := s.dev.link.next, slots := padSlots [m], tries := 0 }]) ∧
    (s.dev.link.ctlq = [] → s.dev.link.resend = [] → s.dev.txn.outP = [] → s.dev.txn.outM = [] →
      ∃ d : Dev, exec .flitTx s = .next { s with dev := d } ∧ sent d (padSlots []) ∧ d.link.next = s.dev.link.next ∧
        d.link.replay = s.dev.link.replay ∧ d.txn = s.dev.txn)) ∧
  (∀ (s : State) (seq : BitVec 12), s.dev.live = true → s.dev.link.st = .up →
    let resent : List TxFlit → Instr → Prop := fun l i => l ≠ [] →
      (s.dev.replayMax = 0 ∨ ∀ x ∈ l, x.tries < s.dev.replayMax) → ∃ d : Dev, exec i s = .next { s with dev := d } ∧
        d.link.resend = l.map (fun (x : TxFlit) => x.seq) ∧ d.link.replay = s.dev.link.replay ∧
        d.fldR A.errcnt 16 16 = min (s.dev.fldR A.errcnt 16 16 + 1) 65535 ∧ s.dev.regsBut d [A.errcnt]
    resent (s.dev.link.replay.dropWhile (fun x => x.seq ≠ seq)) (.nak seq) ∧
    (s.dev.linkCfg 0x34 2 4096 ≠ 0 → resent s.dev.link.replay .ackTimeout) ∧
    (s.dev.link.nakOut = true → s.dev.linkCfg 0x32 2 2048 ≠ 0 → ∃ d : Dev, exec .nakTimeout s = .next { s with dev := d } ∧
      d.link = { s.dev.link with ctlq := s.dev.link.ctlq ++ [nakSlot s.dev.link.exp] } ∧ d = { s.dev with link := d.link })) ∧
  (∀ (s : State) (stamp : BitVec 16) (cc : Nat), s.dev.live = true →
    (s.dev.link.st ≠ .down → ∃ d : Dev, exec (.rttProbe stamp) s = .next { s with dev := d } ∧
      d = { s.dev with link := d.link } ∧ d.link.ctlq = s.dev.link.ctlq ++ [ctlSlot 3 (stamp.toNat <<< 104)]) ∧
    (s.dev.link.st = .training → s.dev.link.probesLeft ≠ 0 → ∃ d : Dev, exec (.rttEcho stamp cc) s = .next { s with dev := d } ∧
      d = { s.dev with link := d.link } ∧ d.link.rttMax = max s.dev.link.rttMax cc ∧
      d.link.probesLeft = s.dev.link.probesLeft - 1)) ∧
  (∀ (s : State) (lane : Fin 22) (pass : Bool) (errors : BitVec 32), exec (.testResult lane pass errors) s = .next s)

/-- Lanes (R82 to R88): a lane that loses lock, or collects guard-band symbols, is asked to be swapped for a spare; SWAP, DROP
and ADD change the lanes and are counted, also where a flit is good only under the requested map (R86); a lane test runs on an out
lane and keeps its result. -/
def Obligations.LanesChange : Prop :=
  (∀ s : State, s.dev.live = true → ∃ d : Dev, exec .laneWindowEnd s = .next { s with dev := d } ∧
    d = { s.dev with link := d.link } ∧ d.link.margin = Vector.replicate 22 0 ∧ d.link.rxLanes = s.dev.link.rxLanes) ∧
  (∀ (s : State) (k : Fin 22), s.dev.live = true → s.dev.link.st = .up → s.dev.link.failing = [] → s.dev.link.req = none →
    (laneAt s.dev.link.rxLanes k.val).isActive = true → (∃ i : Fin 22, (laneAt s.dev.link.rxLanes i.val).isSpare = true) →
    let asks : Dev → Prop := fun d => d = { s.dev with link := d.link } ∧ d.link.failing = [k.val] ∧
      d.link.req = some { cmd := 1, lane := k.val } ∧ d.link.rxLanes = s.dev.link.rxLanes
    (∃ d : Dev, exec (.laneLockLoss k) s = .next { s with dev := d } ∧ asks d) ∧
    ∃ d : Dev, exec (.laneMarginThresh k) s = .next { s with dev := d } ∧ d.link.margin[k] = s.dev.link.margin[k] + 1 ∧
      (s.dev.linkCfg 0x37 1 64 ≠ 0 → s.dev.linkCfg 0x38 4 1000 ≠ 0 → s.dev.linkCfg 0x37 1 64 ≤ s.dev.link.margin[k] + 1 →
        asks d) ∧
      (s.dev.linkCfg 0x37 1 64 = 0 ∨ s.dev.linkCfg 0x38 4 1000 = 0 ∨ s.dev.link.margin[k] + 1 < s.dev.linkCfg 0x37 1 64 → d.link.req = none)) ∧
  (∀ (s : State) (i : Instr) (dir : Dir) (k : Fin 22) (cmd : BitVec 3) (v : Vector Lane 22), s.dev.live = true →
    s.dev.link.st = .up → laneMove s.dev.link i = some (dir, k, cmd, v) →
    s.dev.link.changeDue dir { cmd := cmd, lane := k.val } = true → s.dev.mild (dirSource dir) →
    (dir = .rx → (∀ x ∈ s.dev.link.failing, x = k.val) ∧ (cmd = 3 → s.dev.link.failing = [])) →
    ∃ d : Dev, exec i s = .next { s with dev := d } ∧ d.link.lanes dir = v ∧ d.link.st = .up ∧
      d.fldR A.errcnt 0 8 = min (s.dev.fldR A.errcnt 0 8 + 1) 255 ∧ s.dev.regsBut d [A.errcnt, A.attn, A.first, A.sillLost]) ∧
  (∀ (s : State) (k : Fin 22), s.dev.live = true → s.dev.link.st = .up → s.dev.link.failing = [] →
    (s.dev.link.changeDue .rx { cmd := 4, lane := k.val } = true → ∃ d : Dev, exec (.laneTest .rx k) s = .next { s with dev := d } ∧
      d = { s.dev with link := d.link } ∧ d.link.laneTest = some k.val ∧ d.link.rxLanes = s.dev.link.rxLanes) ∧
    (s.dev.link.changeDue .tx { cmd := 4, lane := k.val } = true → ∃ d : Dev, exec (.laneTest .tx k) s = .next { s with dev := d } ∧
      d = { s.dev with link := d.link } ∧ d.link.announced = none ∧ d.link.prbsFrom = some k.val ∧
      d.link.txLanes = s.dev.link.txLanes)) ∧
  (∀ (s : State) (c : Change) (lanes : List (List (BitVec 48))), s.dev.live = true → s.dev.link.st = .up →
    s.dev.link.standby = false → s.dev.link.req = some c → s.dev.link.rxChange = none → 1 ≤ c.cmd.toNat → c.cmd.toNat ≤ 3 →
    s.dev.mild 125 → (∀ x ∈ s.dev.link.failing, x = c.lane) → (c.cmd = 3 → s.dev.link.failing = []) →
    flitGood (unstripe s.dev.link.rxLanes lanes) = false →
    let f := unstripe (c.lanes s.dev.link.rxLanes) lanes
    flitGood f = true → fld f.hdr 60 4 = 0 → bit f.hdr 35 = false →
    ∃ d : Dev, exec (.dataFlitRx lanes) s = .next { s with dev := d } ∧ d.link.st = .up ∧
      d.link.rxLanes = c.lanes s.dev.link.rxLanes ∧ d.link.exp = s.dev.link.exp ∧
      d.fldR A.errcnt 0 8 = min (s.dev.fldR A.errcnt 0 8 + 1) 255) ∧
  (∀ (s : State) (m : Master) (v : Word), s.dev.live = true → s.dev.link.st = .up → s.dev.link.failing = [] →
    s.dev.link.req = none → s.dev.link.reqWait = [] → bit v 5 = true → fld v 0 5 < 22 →
    (laneAt s.dev.link.rxLanes (fld v 0 5)).isOut = true →
    ∃ d : Dev, exec (.laneTestStart m v) s = .next { s with dev := d } ∧
      d.link.req = some { cmd := 4, lane := fld v 0 5 } ∧ d.fldR A.laneTest 0 5 = fld v 0 5 ∧ d.fldR A.laneTest 6 1 = 0 ∧
      d.fldR A.laneTest 47 1 = fld v 47 1 ∧ s.dev.regsBut d [A.laneTest]) ∧
  (∀ (s : State) (errors : BitVec 32) (k : Nat), s.dev.live = true → s.dev.link.st = .up → s.dev.link.failing = [] →
    s.dev.link.laneTest = some k → errors = 0 ∨ (laneAt s.dev.link.rxLanes k).isOut = true →
    ∃ d : Dev, exec (.laneTestDone errors) s = .next { s with dev := d } ∧ d.link.laneTest = none ∧
      d.fldR A.laneTest 8 32 = errors.toNat ∧ d.fldR A.laneTest 7 1 = b2n (errors = 0) ∧ d.fldR A.laneTest 6 1 = 1 ∧
      d.link.ctlq = s.dev.link.ctlq ++ [ctlSlot 4 (k <<< 115 ||| b2n (errors = 0) <<< 114 ||| errors.toNat <<< 82)] ∧
      s.dev.regsBut d [A.laneTest])

/-- Link-down, training and RESYNC (R89 to R93, R116 to R118): framing loss and link resets take the link down and train it at
the target rate; a training ends with the widest width its lanes allow, or is repeated lower, or at the lowest rate with fewer
than 10 lanes not out waits 100 ms for the test of its out lanes; link-up starts afresh and
owes a RESYNC, which is sent, repeated and acknowledged. -/
def Obligations.LinkTrains : Prop :=
  (∀ s : State, s.dev.live = true → s.dev.link.st = .up → s.dev.noneAsked → s.dev.mild 124 →
    let trains : Dev → Prop := fun d => d.link.st = .training ∧ d.link.rate = 0 ∧ d.txn.outP = [] ∧ d.txn.outM = [] ∧
      d.fldR A.errcnt 8 8 = min (s.dev.fldR A.errcnt 8 8 + 1) 255 ∧ d.fldR A.attn 8 1 = 1 ∧ d.fldR A.resync 16 2 = 0
    (∃ d : Dev, exec .framingLoss s = .next { s with dev := d } ∧ trains d) ∧
    (∀ rate : BitVec 2, rate ≠ 0 → ∃ d : Dev, exec (.linkReset rate) s = .next { s with dev := d } ∧ trains d ∧
      d.link.target = rate) ∧
    ∀ (m : Master) (v : Word), bit v 0 = true → fld v 1 2 ≠ 0 →
      ∃ d : Dev, exec (.linkCtlReset m v) s = .next { s with dev := d } ∧ trains d ∧
        d.link.target.toNat = fld v 1 2 ∧ d.fldR A.linkCtl 1 2 = fld v 1 2) ∧
  (∀ (s : State) (passRx passTx : BitVec 22), s.dev.live = true → s.dev.link.st = .training → s.dev.link.rate = 0 →
    s.dev.link.retryWait = false → 10 ≤ notOut s.dev.link.rxLanes → 10 ≤ notOut s.dev.link.txLanes →
    let rank : Dir → Vector Lane 22 → BitVec 22 → List Nat := fun dir v pass =>
      s.dev.trainRank dir (fun p => pass.getLsbD p && !(laneAt v p).isOut)
    let rR := rank .rx s.dev.link.rxLanes passRx
    let rT := rank .tx s.dev.link.txLanes passTx
    (s.dev.link.rttMax ≠ 0 → s.dev.link.rttMax ≤ 128 → widthOf rR.length ≠ 0 → widthOf rT.length ≠ 0 →
      ∃ d : Dev, exec (.trainingEnd passRx passTx) s = .next { s with dev := d } ∧ d.link.rate = s.dev.link.target ∧
        d.link.rxLanes = assignLanes (laneBase s.dev.link.rxLanes) rR (widthOf rR.length) ∧
        d.link.txLanes = assignLanes (laneBase s.dev.link.txLanes) rT (widthOf rT.length) ∧
        d.fldR A.linkRtt 0 8 = s.dev.link.rttMax ∧ d.fldR A.linkRtt 8 1 = 0 ∧ s.dev.regsBut d [A.linkRtt]) ∧
    (128 < s.dev.link.rttMax → s.dev.mild 124 →
      ∃ d : Dev, exec (.trainingEnd passRx passTx) s = .next { s with dev := d } ∧ d.link.st = .training ∧ d.link.rate = 0 ∧
        d.link.target = (if s.dev.link.target = 3 then 3 else s.dev.link.target + 1) ∧ d.fldR A.linkRtt 8 1 = 1)) ∧
  (∀ (s : State) (passRx passTx : BitVec 22), s.dev.live = true → s.dev.link.st = .training → s.dev.link.rate = 0 →
    s.dev.link.retryWait = false → s.dev.link.target = 3 → notOut s.dev.link.rxLanes < 10 ∨ notOut s.dev.link.txLanes < 10 →
    128 < s.dev.link.rttMax → s.dev.mild 124 →
    ∃ d : Dev, exec (.trainingEnd passRx passTx) s = .next { s with dev := d } ∧ d.link.st = .training ∧ d.link.rate = 0 ∧
      d.link.retryWait = true ∧ d.fldR A.linkRtt 8 1 = 1) ∧
  (∀ (s : State) (testRx testTx : BitVec 22), s.dev.live = true → s.dev.link.st = .training → s.dev.link.rate = 0 →
    s.dev.link.retryWait = true →
    ∃ d : Dev, exec (.trainingRetryTimer testRx testTx) s = .next { s with dev := d } ∧ d.link.target = 3 ∧
      d.link.probesLeft = 8 ∧ d.link.st = .training ∧ d.link.retryWait = false ∧ d.rf = s.dev.rf ∧
      d.link.rxLanes = (if notOut s.dev.link.rxLanes < 10 then clearOut s.dev.link.rxLanes testRx else s.dev.link.rxLanes) ∧
      d.link.txLanes = if notOut s.dev.link.txLanes < 10 then clearOut s.dev.link.txLanes testTx else s.dev.link.txLanes) ∧
  (∀ s : State, s.dev.live = true → s.dev.link.standby = false → s.dev.link.st = .training → s.dev.link.rate ≠ 0 →
    s.dev.pwrPhase ≠ 3 → ∃ d : Dev, exec .linkUp s = .next { s with dev := d } ∧ d.link.st = .up ∧ d.link.next = 0 ∧
      d.link.exp = 0 ∧ d.link.replay = [] ∧ d.link.rate = s.dev.link.rate ∧ d.fldR A.resync 17 1 = 1 ∧
      d.rst.step = if s.dev.rst.step = 6 then 0 else s.dev.rst.step) ∧
  (∀ s : State, s.dev.live = true →
    let queues : Dev → Prop := fun d => ∃ o : OutMsg, d.txn.outM = s.dev.txn.outM ++ [o] ∧ o.resync = true ∧
      o.vc = .m ∧ o.slots = d.txn.resyncSlots s.dev.attnValue
    (s.dev.resyncDue = true → ∃ d : Dev, exec .resyncSend s = .next { s with dev := d } ∧ queues d ∧
      d.txn.epoch = nextEpochOf s.dev.txn.epoch ∧ d.txn.resyncRst = s.dev.link.rstUp ∧ d.link.rstUp = false ∧ d.rf = s.dev.rf) ∧
    (s.dev.resyncDue = false → exec .resyncSend s = .next s) ∧
    (s.dev.link.st = .up → bit (s.dev.reg A.resync) 16 = true → s.dev.linkCfg 0x3C 2 100 ≠ 0 →
      s.dev.txn.outM.any (fun o => o.resync) = false → ∃ d : Dev, exec .resyncRepeat s = .next { s with dev := d } ∧ queues d ∧
        d.txn.epoch = s.dev.txn.epoch ∧ d.rf = s.dev.rf) ∧
    ∀ (m : Master) (v : Word),
      (bit (s.dev.reg A.resync) 16 = true → fld v 0 8 = s.dev.fldR A.resync 8 8 →
        ∃ d : Dev, exec (.resyncAck m v) s = .next { s with dev := d } ∧ d.txn.lossQ = [] ∧ d.txn.lossK = [] ∧
          d.txn.lossM = [] ∧ d.fldR A.resync 16 1 = 0 ∧ s.dev.regsBut d [A.resync]) ∧
      (bit (s.dev.reg A.resync) 16 = false ∨ fld v 0 8 ≠ s.dev.fldR A.resync 8 8 → exec (.resyncAck m v) s = .next s))

/-! ### The sideband block -/

/-- Tokens (R337 to R343): a token that passes every check programs what its type programs, in the fuses as read and in the
cells; one that fails a check, or whose fuses do not read back, changes no fuse as read; each submission leaves its RESULT
and a fresh nonce; zeroisation leaves no owner key, no KWK, no key slot, no epoch and no Accord. -/
def Obligations.TokensAreJudged : Prop :=
  (∀ (s : State) (i : Instr) (ty : Nat) (t : TokenBytes) (blown : Bool), s.dev.live = true → tokenOf i = some (ty, t, blown) →
    (tokType t ≠ ty → exec i s = .next s) ∧
    (tokType t = ty → tokCheck s.fuses s.dev t = 1 → blown = true ∨ tokNoFuse ty = true →
      ∃ u : State, exec i s = .next u ∧ u.fuses = s.fuses.program s.fuses.floorUsed t ∧
        u.cells = s.cells.program s.fuses.floorUsed t ∧ submitted s u ty 1) ∧
    (tokType t = ty → tokCheck s.fuses s.dev t = 1 → blown = false → tokNoFuse ty = false →
      ∃ u : State, exec i s = .next u ∧ u.fuses = s.fuses ∧ submitted s u ty 8) ∧
    (tokType t = ty → tokCheck s.fuses s.dev t ≠ 1 → ∃ u : State, exec i s = .next u ∧ u.fuses = s.fuses ∧
      u.cells = s.cells ∧ submitted s u ty (tokCheck s.fuses s.dev t))) ∧
  (∀ (s : State) (t : TokenBytes), s.dev.live = true →
    (tokFormat t = true → exec (.badformat t) s = .next s) ∧
    (tokFormat t = false → ∃ u : State, exec (.badformat t) s = .next u ∧ u.fuses = s.fuses ∧ u.cells = s.cells ∧
      submitted s u (tokType t) 2)) ∧
  (∀ s : State, s.dev.live = true → s.fuses.zeroising = true → ∃ u : State, exec .zeroiseDone s = .next u ∧
    u.fuses.zeroising = false ∧ u.fuses.kwkOk = false ∧ (∀ k : Fin 8, 4 ≤ k.val → u.fuses.provisioned k = false) ∧
    u.dev.crypt.slots = Vector.replicate 32 none ∧ (∀ r, r < 64 → u.dev.reg (A.epoch r) = 0) ∧
    ∀ a, a < 0x800000 → memRead u.flash a = flashErased)

/-- Hub flash operations and I3C (R346 to R348): one that may run is busy, one outside the slots or not permitted is rejected;
its end erases, programs or reads; I3C reads what it may and Sillage's records, once it has its address. -/
def Obligations.FlashAndI3c : Prop :=
  (∀ (s : State) (i : Instr) (v : Word) (op : Nat), s.dev.live = true → flashOf i = some (.hub, v, op) →
    s.dev.side.flashOp = none →
    let a := s.dev.fldR A.flashAddr 0 32
    let n := fld v 10 6
    let may := (op = 3 ∨ s.dev.pins.pwrfailN = true ∧ s.fuses.state ≠ 4) ∧ (op = 1 → a < 0x800000) ∧
      (op = 2 → a + n ≤ 0x800000)
    ∃ d : Dev, exec i s = .next { s with dev := d } ∧ s.dev.regsBut d [A.flashCmd] ∧
      (op = 2 ∧ n = 0 → d.fldR A.flashCmd 8 2 = 1 ∧ d.side = s.dev.side) ∧
      (may → ¬ (op = 2 ∧ n = 0) → d.fldR A.flashCmd 7 1 = 1 ∧
        d.side = { s.dev.side with flashOp := some (BitVec.ofNat 2 op, BitVec.ofNat 32 a, BitVec.ofNat 6 n) }) ∧
      (¬ may → ¬ (op = 2 ∧ n = 0) → d.fldR A.flashCmd 8 2 = 2 ∧ d.side = s.dev.side)) ∧
  (∀ (s : State) (op : BitVec 2) (a : BitVec 32) (n : BitVec 6), s.dev.live = true → s.dev.side.flashOp = some (op, a, n) →
    ∃ t : State, exec (.flashOpDone true) s = .next t ∧ t.dev.side.flashOp = none ∧ t.dev.fldR A.flashCmd 8 2 = 1 ∧
      t.dev.fldR A.flashCmd 7 1 = 0 ∧ t.fuses = s.fuses ∧ t.cells = s.cells ∧
      (op = 1 → ∀ b, memRead t.flash b =
        if sectorOf a.toNat ≤ b ∧ b < sectorOf a.toNat + 4096 then flashErased else memRead s.flash b) ∧
      (op = 2 → progPlain a.toNat n.toNat = true → memReadList t.flash a.toNat n.toNat = s.dev.flashBytes.take n.toNat ∧
        ∀ b, b < a.toNat ∨ a.toNat + n.toNat ≤ b → memRead t.flash b = memRead s.flash b) ∧
      (op = 3 → t.flash = s.flash ∧
        ∀ j, j < 8 → (t.dev.reg (A.flashData j)).toNat = leNat (memReadList s.flash (a.toNat + 6 * j) 6))) ∧
  (∀ (s : State) (addr : BitVec 7), s.dev.live = true → exec (.i3cEntdaa addr) s =
    .next { s with dev := { s.dev with side := { s.dev.side with i3cAddr := some addr } } }) ∧
  (∀ (s : State) (a : BitVec 24) (n : BitVec 4), s.dev.live = true → s.dev.i3cOn = true → burstPlain a.toNat n.toNat = true →
    ∃ d : Dev, exec (.i3cRegRead a n) s = .next { s with dev := d } ∧ d.rf = s.dev.rf ∧
      d.side.i3cOut = (List.range n.toNat).flatMap (fun k => leBytes 6 (s.i3cRead (a.toNat + k)).toNat)) ∧
  (∀ (s : State) (index : BitVec 16), s.dev.live = true → s.dev.i3cOn = true →
    ∃ d : Dev, exec (.i3cSillageRead index) s = .next { s with dev := d } ∧ d = { s.dev with side := d.side } ∧
      d.side.i3cBuf = sget (0 : BitVec 128) s.dev.sill.ring (index.toNat % 4096) ∧
      d.side.i3cOut = leBytes 16 d.side.i3cBuf.toNat)

/-- The TAP (R333, R334): IDCODE is always open; a boundary-scan instruction acts while RESET_N is low, is BYPASS otherwise,
and is denied where the life-cycle state closes it; TAP debug reads and writes registers as a master does. -/
def Obligations.TapAccess : Prop :=
  (∀ s : State, ∃ d : Dev, exec .idcode s = .next { s with dev := d } ∧ d = { s.dev with side := d.side } ∧
    fld d.side.tapOut 0 12 = 0xE97 ∧ fld d.side.tapOut 12 16 = 0xAB48 ∧ fld d.side.tapOut 28 4 = Config.stepMajor.toNat % 16) ∧
  (∀ (s : State) (i : Instr) (k : Nat) (f : Side → Side), scanOf i = some (k, f) →
    (s.tapOpen k = true → s.dev.pins.resetN = false → exec i s =
      .next { s with dev := { s.dev with side := f { s.dev.side with tapBypass := false } } }) ∧
    (s.tapOpen k = true → s.dev.pins.resetN = true → exec i s =
      .next { s with dev := { s.dev with side := { s.dev.side with tapBypass := true } } }) ∧
    (s.tapOpen k = false → ∃ d : Dev, exec i s = .next { s with dev := d } ∧ d.side.tapBypass = true)) ∧
  (∀ (s : State) (a : BitVec 24), s.dev.live = true → s.dev.regOpen = true → s.tapOpen 2 = true →
    (∃ d : Dev, exec (.tapRegAccess a none) s = .next { s with dev := d } ∧ d = { s.dev with side := d.side } ∧
      d.side.tapOut = s.readReg a.toNat) ∧
    ∀ v : Word, exec (.tapRegAccess a (some v)) s = exec (.regWrite .tap a v) s)
end

