-- ==== Sys2Proof/Laws/Maps.lean ====
section
/-! SUPPORT. Laws of the sparse maps, of the flash memory's canonical form, and of bit fields. -/

namespace Sys2Proof.Machine

/-! ### Sparse maps -/

theorem sget_sdel_same {α : Type} (d : α) (l : List (Nat × α)) (a : Nat) : sget d (sdel l a) a = d := by
  induction l with
  | nil => rfl
  | cons e r ih =>
    obtain ⟨k, v⟩ := e
    by_cases h : a = k
    · subst h; simpa [sdel] using ih
    · simp [sdel, sget, h, ih]

theorem sget_sdel_ne {α : Type} (d : α) (l : List (Nat × α)) {a b : Nat} (h : b ≠ a) :
    sget d (sdel l a) b = sget d l b := by
  induction l with
  | nil => rfl
  | cons e r ih =>
    obtain ⟨k, v⟩ := e
    by_cases hk : a = k
    · subst hk; simp [sdel, sget, h, ih]
    · simp [sdel, sget, hk, ih]

theorem sget_sins_same {α : Type} (d : α) (l : List (Nat × α)) (a : Nat) (v : α) :
    sget d (sins a v (sdel l a)) a = v := by
  induction l with
  | nil => simp [sdel, sins, sget]
  | cons e r ih =>
    obtain ⟨k, w⟩ := e
    by_cases h : a = k
    · simpa [sdel, h] using ih
    · by_cases h2 : a < k <;> simp [sdel, sins, sget, h, h2, ih]

theorem sget_sins_ne {α : Type} (d : α) (l : List (Nat × α)) {a b : Nat} (v : α) (h : b ≠ a) :
    sget d (sins a v l) b = sget d l b := by
  induction l with
  | nil => simp [sins, sget, h]
  | cons e r ih =>
    obtain ⟨k, w⟩ := e
    by_cases h2 : a < k <;> simp [sins, sget, h, h2, ih]

/-- A read after a write to the same key gives the value written. -/
@[simp] theorem sget_sset_same {α : Type} [DecidableEq α] (d : α) (l : List (Nat × α)) (a : Nat) (v : α) :
    sget d (sset d l a v) a = v := by
  by_cases h : v = d
  · subst h; simp [sset, sget_sdel_same]
  · simp [sset, h, sget_sins_same]

/-- A write leaves every other key alone, whatever each of the two keys defaults to. -/
theorem sget_sset_ne {α : Type} [DecidableEq α] (d d' : α) (l : List (Nat × α)) {a b : Nat} (v : α) (h : b ≠ a) :
    sget d' (sset d l a v) b = sget d' l b := by
  by_cases hv : v = d
  · simp [sset, hv, sget_sdel_ne d' l h]
  · simp [sset, hv, sget_sins_ne d' _ v h, sget_sdel_ne d' l h]

/-! ### The canonical form -/

theorem sortedFrom_mono {α : Type} [DecidableEq α] {d : α} {lo lo' : Nat} {l : List (Nat × α)} (h : lo' ≤ lo)
    (hl : sortedFrom d lo l = true) : sortedFrom d lo' l = true := by
  cases l with
  | nil => rfl
  | cons e r =>
    obtain ⟨k, v⟩ := e
    simp only [sortedFrom, Bool.and_eq_true, decide_eq_true_eq] at hl ⊢
    exact ⟨⟨by omega, hl.1.2⟩, hl.2⟩

theorem sortedFrom_sdel {α : Type} [DecidableEq α] {d : α} {lo : Nat} {l : List (Nat × α)} (a : Nat)
    (hl : sortedFrom d lo l = true) : sortedFrom d lo (sdel l a) = true := by
  induction l generalizing lo with
  | nil => rfl
  | cons e r ih =>
    obtain ⟨k, v⟩ := e
    simp only [sortedFrom, Bool.and_eq_true, decide_eq_true_eq] at hl
    by_cases hk : a = k
    · have := ih (sortedFrom_mono (lo' := lo) (by omega) hl.2)
      simpa [sdel, hk] using this
    · simp only [sdel, hk, if_false, sortedFrom, Bool.and_eq_true, decide_eq_true_eq]
      exact ⟨hl.1, ih hl.2⟩

theorem sortedFrom_sins {α : Type} [DecidableEq α] {d : α} {lo a : Nat} {v : α} {l : List (Nat × α)} (hv : v ≠ d)
    (ha : lo ≤ a) (hl : sortedFrom d lo l = true) : sortedFrom d lo (sins a v (sdel l a)) = true := by
  induction l generalizing lo with
  | nil => simp [sdel, sins, sortedFrom, hv, ha]
  | cons e r ih =>
    obtain ⟨k, w⟩ := e
    simp only [sortedFrom, Bool.and_eq_true, decide_eq_true_eq] at hl
    by_cases hk : a = k
    · have := ih (lo := lo) ha (sortedFrom_mono (by omega) hl.2)
      simpa [sdel, hk] using this
    · by_cases h2 : a < k
      · simp only [sdel, hk, if_false, sins, h2, if_true, sortedFrom, Bool.and_eq_true, decide_eq_true_eq]
        exact ⟨⟨ha, hv⟩, ⟨by omega, hl.1.2⟩, sortedFrom_sdel a hl.2⟩
      · simp only [sdel, hk, if_false, sins, h2, sortedFrom, Bool.and_eq_true, decide_eq_true_eq]
        exact ⟨hl.1, ih (by omega) hl.2⟩

theorem sortedFrom_sset {α : Type} [DecidableEq α] {d : α} {l : List (Nat × α)} (a : Nat) (v : α)
    (hl : sortedFrom d 0 l = true) : sortedFrom d 0 (sset d l a v) = true := by
  by_cases h : v = d
  · simpa [sset, h] using sortedFrom_sdel a hl
  · simpa [sset, h] using sortedFrom_sins h (Nat.zero_le a) hl

theorem sortedFrom_filter {α : Type} [DecidableEq α] {d : α} (c : Nat × α → Bool) {lo : Nat} {l : List (Nat × α)}
    (hl : sortedFrom d lo l = true) : sortedFrom d lo (l.filter c) = true := by
  induction l generalizing lo with
  | nil => rfl
  | cons e r ih =>
    obtain ⟨k, v⟩ := e
    simp only [sortedFrom, Bool.and_eq_true, decide_eq_true_eq] at hl
    by_cases hc : c (k, v) = true
    · simp only [List.filter_cons, hc, if_true, sortedFrom, Bool.and_eq_true, decide_eq_true_eq]
      exact ⟨hl.1, ih hl.2⟩
    · simp only [List.filter_cons, hc]
      exact ih (sortedFrom_mono (by omega) hl.2)

/-! ### The flash memory -/

/-- A write keeps the canonical form. -/
theorem Memory.wf_memWrite {m : Memory} (a : Nat) (b : Byte) (h : m.wf = true) : (memWrite m a b).wf = true :=
  sortedFrom_sset a b h

/-- So does a write of several bytes. -/
theorem Memory.wf_memWriteList (bs : List Byte) {m : Memory} (a : Nat) (h : m.wf = true) :
    (memWriteList m a bs).wf = true := by
  induction bs generalizing m a with
  | nil => exact h
  | cons b r ih => exact ih (a + 1) (Memory.wf_memWrite a b h)

/-- So does an erase. -/
theorem Memory.wf_memErase {m : Memory} (lo hi : Nat) (h : m.wf = true) : (memErase m lo hi).wf = true :=
  sortedFrom_filter _ h

/-- A byte read after it was written is the byte written; every other byte stands. -/
theorem memRead_memWrite (m : Memory) (a b : Nat) (v : Byte) :
    memRead (memWrite m a v) b = if b = a then v else memRead m b := by
  by_cases h : b = a
  · subst h; simp [memRead, memWrite]
  · simp [memRead, memWrite, h, sget_sset_ne _ _ _ _ h]

/-- Bytes outside a write of several bytes stand. -/
theorem memRead_memWriteList_out (bs : List Byte) (m : Memory) (a b : Nat) (h : b < a ∨ a + bs.length ≤ b) :
    memRead (memWriteList m a bs) b = memRead m b := by
  induction bs generalizing m a with
  | nil => rfl
  | cons x r ih =>
    simp only [List.length_cons] at h
    rw [memWriteList, ih _ _ (by omega), memRead_memWrite, if_neg (by omega)]

theorem sget_filter {α : Type} (d : α) (c : Nat × α → Bool) (l : List (Nat × α)) (a : Nat)
    (h : ∀ v, c (a, v) = true) : sget d (l.filter c) a = sget d l a := by
  induction l with
  | nil => rfl
  | cons e r ih =>
    obtain ⟨k, v⟩ := e
    by_cases hk : a = k
    · subst hk; simp [h v, sget]
    · by_cases hc : c (k, v) = true <;> simp [hc, sget, hk, ih]

theorem sget_filter_out {α : Type} (d : α) (c : Nat × α → Bool) (l : List (Nat × α)) (a : Nat)
    (h : ∀ v, c (a, v) = false) : sget d (l.filter c) a = d := by
  induction l with
  | nil => rfl
  | cons e r ih =>
    obtain ⟨k, v⟩ := e
    by_cases hk : a = k
    · subst hk; simp [h v, ih]
    · by_cases hc : c (k, v) = true <;> simp [hc, sget, hk, ih]

/-- An erased byte reads as erased, and the bytes outside the range stand. -/
theorem memRead_memErase (m : Memory) (lo hi b : Nat) :
    memRead (memErase m lo hi) b = if lo ≤ b ∧ b < hi then flashErased else memRead m b := by
  by_cases h : lo ≤ b ∧ b < hi
  · rw [if_pos h]; exact sget_filter_out _ _ _ _ (fun _ => by simp; omega)
  · rw [if_neg h]; exact sget_filter _ _ _ _ (fun _ => by simp; omega)

/-! ### Bit fields -/

theorem ones_getLsbD (lo len i : Nat) (h : 0 < len) (hl : lo + len ≤ 48) :
    (ones (lo + len - 1) lo).getLsbD i = decide (lo ≤ i ∧ i < lo + len) := by
  have e : lo + len - 1 + 1 - lo = len := by omega
  rw [ones, BitVec.getLsbD_ofNat, e, Nat.testBit_shiftLeft, Nat.testBit_two_pow_sub_one]
  by_cases h1 : lo ≤ i <;> by_cases h2 : i < lo + len <;> simp [h1, h2] <;> omega

theorem put_getLsbD (x : Word) (lo len v i : Nat) (h : 0 < len) (hl : lo + len ≤ 48) :
    (put x lo len v).getLsbD i = if lo ≤ i ∧ i < lo + len then v.testBit (i - lo) else x.getLsbD i := by
  rw [put, BitVec.getLsbD_or, BitVec.getLsbD_and, BitVec.getLsbD_not, ones_getLsbD lo len i h hl, BitVec.getLsbD_ofNat,
    Nat.testBit_shiftLeft, Nat.testBit_mod_two_pow]
  by_cases h1 : lo ≤ i <;> by_cases h2 : i < lo + len
  · have h3 : i < 48 := by omega
    have h4 : i - lo < len := by omega
    simp [h1, h2, h3, h4]
  · have h4 : ¬ (i - lo < len) := by omega
    by_cases h3 : i < 48
    · simp [h2, h3, h4]
    · simp [h2, h4, BitVec.getLsbD_of_ge x i (by omega)]
  · by_cases h3 : i < 48
    · simp [h1, h3]
    · simp [h1, BitVec.getLsbD_of_ge x i (by omega)]
  · omega

theorem fld_testBit {w : Nat} (x : BitVec w) (lo len i : Nat) :
    (fld x lo len).testBit i = (decide (i < len) && x.getLsbD (lo + i)) := by
  rw [fld, Nat.testBit_mod_two_pow, Nat.testBit_shiftRight, BitVec.testBit_toNat]

/-- A field reads as what was put into it. -/
theorem fld_put_same (x : Word) (lo len v : Nat) (h : 0 < len) (hl : lo + len ≤ 48) :
    fld (put x lo len v) lo len = v % 2 ^ len := by
  apply Nat.eq_of_testBit_eq
  intro i
  rw [fld_testBit, put_getLsbD x lo len v _ h hl, Nat.testBit_mod_two_pow]
  by_cases hi : i < len <;> simp [hi]

/-- Fields apart from the one put stand. -/
theorem fld_put_other (x : Word) (lo len v lo' len' : Nat) (h : 0 < len) (hl : lo + len ≤ 48)
    (hd : lo' + len' ≤ lo ∨ lo + len ≤ lo') : fld (put x lo len v) lo' len' = fld x lo' len' := by
  apply Nat.eq_of_testBit_eq
  intro i
  rw [fld_testBit, fld_testBit, put_getLsbD x lo len v _ h hl]
  by_cases hi : i < len'
  · rw [if_neg (by omega)]
  · simp [hi]

end Sys2Proof.Machine
end

