-- ==== Sys2Proof/Laws/State.lean ====
section
/-! SUPPORT. What each named update of the device leaves unchanged and what it changes: one lemma per field and update, true
by definition. -/

namespace Sys2Proof.Machine

/-! ### setReg -/

@[simp] theorem Dev.setReg_on (d : Dev) (a : Nat) (v : Word) : (d.setReg a v).on = d.on := rfl
@[simp] theorem Dev.setReg_noAccord (d : Dev) (a : Nat) (v : Word) : (d.setReg a v).noAccord = d.noAccord := rfl
@[simp] theorem Dev.setReg_freeCtr (d : Dev) (a : Nat) (v : Word) : (d.setReg a v).freeCtr = d.freeCtr := rfl
@[simp] theorem Dev.setReg_shadow (d : Dev) (a : Nat) (v : Word) : (d.setReg a v).shadow = d.shadow := rfl
@[simp] theorem Dev.setReg_cg (d : Dev) (a : Nat) (v : Word) : (d.setReg a v).cg = d.cg := rfl
@[simp] theorem Dev.setReg_cfg (d : Dev) (a : Nat) (v : Word) : (d.setReg a v).cfg = d.cfg := rfl
@[simp] theorem Dev.setReg_applied (d : Dev) (a : Nat) (v : Word) : (d.setReg a v).applied = d.applied := rfl
@[simp] theorem Dev.setReg_loader (d : Dev) (a : Nat) (v : Word) : (d.setReg a v).loader = d.loader := rfl
@[simp] theorem Dev.setReg_link (d : Dev) (a : Nat) (v : Word) : (d.setReg a v).link = d.link := rfl
@[simp] theorem Dev.setReg_txn (d : Dev) (a : Nat) (v : Word) : (d.setReg a v).txn = d.txn := rfl
@[simp] theorem Dev.setReg_ports (d : Dev) (a : Nat) (v : Word) : (d.setReg a v).ports = d.ports := rfl
@[simp] theorem Dev.setReg_tiles (d : Dev) (a : Nat) (v : Word) : (d.setReg a v).tiles = d.tiles := rfl
@[simp] theorem Dev.setReg_phys (d : Dev) (a : Nat) (v : Word) : (d.setReg a v).phys = d.phys := rfl
@[simp] theorem Dev.setReg_cals (d : Dev) (a : Nat) (v : Word) : (d.setReg a v).cals = d.cals := rfl
@[simp] theorem Dev.setReg_prots (d : Dev) (a : Nat) (v : Word) : (d.setReg a v).prots = d.prots := rfl
@[simp] theorem Dev.setReg_journal (d : Dev) (a : Nat) (v : Word) : (d.setReg a v).journal = d.journal := rfl
@[simp] theorem Dev.setReg_mrShadow (d : Dev) (a : Nat) (v : Word) : (d.setReg a v).mrShadow = d.mrShadow := rfl
@[simp] theorem Dev.setReg_qos (d : Dev) (a : Nat) (v : Word) : (d.setReg a v).qos = d.qos := rfl
@[simp] theorem Dev.setReg_crypt (d : Dev) (a : Nat) (v : Word) : (d.setReg a v).crypt = d.crypt := rfl
@[simp] theorem Dev.setReg_tier (d : Dev) (a : Nat) (v : Word) : (d.setReg a v).tier = d.tier := rfl
@[simp] theorem Dev.setReg_jobs (d : Dev) (a : Nat) (v : Word) : (d.setReg a v).jobs = d.jobs := rfl
@[simp] theorem Dev.setReg_nextJob (d : Dev) (a : Nat) (v : Word) : (d.setReg a v).nextJob = d.nextJob := rfl
@[simp] theorem Dev.setReg_engs (d : Dev) (a : Nat) (v : Word) : (d.setReg a v).engs = d.engs := rfl
@[simp] theorem Dev.setReg_kq (d : Dev) (a : Nat) (v : Word) : (d.setReg a v).kq = d.kq := rfl
@[simp] theorem Dev.setReg_flt (d : Dev) (a : Nat) (v : Word) : (d.setReg a v).flt = d.flt := rfl
@[simp] theorem Dev.setReg_sill (d : Dev) (a : Nat) (v : Word) : (d.setReg a v).sill = d.sill := rfl
@[simp] theorem Dev.setReg_pwr (d : Dev) (a : Nat) (v : Word) : (d.setReg a v).pwr = d.pwr := rfl
@[simp] theorem Dev.setReg_rst (d : Dev) (a : Nat) (v : Word) : (d.setReg a v).rst = d.rst := rfl
@[simp] theorem Dev.setReg_side (d : Dev) (a : Nat) (v : Word) : (d.setReg a v).side = d.side := rfl
@[simp] theorem Dev.setReg_pins (d : Dev) (a : Nat) (v : Word) : (d.setReg a v).pins = d.pins := rfl

/-! ### setFld -/

@[simp] theorem Dev.setFld_on (d : Dev) (a lo len v : Nat) : (d.setFld a lo len v).on = d.on := rfl
@[simp] theorem Dev.setFld_noAccord (d : Dev) (a lo len v : Nat) : (d.setFld a lo len v).noAccord = d.noAccord := rfl
@[simp] theorem Dev.setFld_freeCtr (d : Dev) (a lo len v : Nat) : (d.setFld a lo len v).freeCtr = d.freeCtr := rfl
@[simp] theorem Dev.setFld_shadow (d : Dev) (a lo len v : Nat) : (d.setFld a lo len v).shadow = d.shadow := rfl
@[simp] theorem Dev.setFld_cg (d : Dev) (a lo len v : Nat) : (d.setFld a lo len v).cg = d.cg := rfl
@[simp] theorem Dev.setFld_cfg (d : Dev) (a lo len v : Nat) : (d.setFld a lo len v).cfg = d.cfg := rfl
@[simp] theorem Dev.setFld_applied (d : Dev) (a lo len v : Nat) : (d.setFld a lo len v).applied = d.applied := rfl
@[simp] theorem Dev.setFld_loader (d : Dev) (a lo len v : Nat) : (d.setFld a lo len v).loader = d.loader := rfl
@[simp] theorem Dev.setFld_link (d : Dev) (a lo len v : Nat) : (d.setFld a lo len v).link = d.link := rfl
@[simp] theorem Dev.setFld_txn (d : Dev) (a lo len v : Nat) : (d.setFld a lo len v).txn = d.txn := rfl
@[simp] theorem Dev.setFld_ports (d : Dev) (a lo len v : Nat) : (d.setFld a lo len v).ports = d.ports := rfl
@[simp] theorem Dev.setFld_tiles (d : Dev) (a lo len v : Nat) : (d.setFld a lo len v).tiles = d.tiles := rfl
@[simp] theorem Dev.setFld_phys (d : Dev) (a lo len v : Nat) : (d.setFld a lo len v).phys = d.phys := rfl
@[simp] theorem Dev.setFld_cals (d : Dev) (a lo len v : Nat) : (d.setFld a lo len v).cals = d.cals := rfl
@[simp] theorem Dev.setFld_prots (d : Dev) (a lo len v : Nat) : (d.setFld a lo len v).prots = d.prots := rfl
@[simp] theorem Dev.setFld_journal (d : Dev) (a lo len v : Nat) : (d.setFld a lo len v).journal = d.journal := rfl
@[simp] theorem Dev.setFld_mrShadow (d : Dev) (a lo len v : Nat) : (d.setFld a lo len v).mrShadow = d.mrShadow := rfl
@[simp] theorem Dev.setFld_qos (d : Dev) (a lo len v : Nat) : (d.setFld a lo len v).qos = d.qos := rfl
@[simp] theorem Dev.setFld_crypt (d : Dev) (a lo len v : Nat) : (d.setFld a lo len v).crypt = d.crypt := rfl
@[simp] theorem Dev.setFld_tier (d : Dev) (a lo len v : Nat) : (d.setFld a lo len v).tier = d.tier := rfl
@[simp] theorem Dev.setFld_jobs (d : Dev) (a lo len v : Nat) : (d.setFld a lo len v).jobs = d.jobs := rfl
@[simp] theorem Dev.setFld_nextJob (d : Dev) (a lo len v : Nat) : (d.setFld a lo len v).nextJob = d.nextJob := rfl
@[simp] theorem Dev.setFld_engs (d : Dev) (a lo len v : Nat) : (d.setFld a lo len v).engs = d.engs := rfl
@[simp] theorem Dev.setFld_kq (d : Dev) (a lo len v : Nat) : (d.setFld a lo len v).kq = d.kq := rfl
@[simp] theorem Dev.setFld_flt (d : Dev) (a lo len v : Nat) : (d.setFld a lo len v).flt = d.flt := rfl
@[simp] theorem Dev.setFld_sill (d : Dev) (a lo len v : Nat) : (d.setFld a lo len v).sill = d.sill := rfl
@[simp] theorem Dev.setFld_pwr (d : Dev) (a lo len v : Nat) : (d.setFld a lo len v).pwr = d.pwr := rfl
@[simp] theorem Dev.setFld_rst (d : Dev) (a lo len v : Nat) : (d.setFld a lo len v).rst = d.rst := rfl
@[simp] theorem Dev.setFld_side (d : Dev) (a lo len v : Nat) : (d.setFld a lo len v).side = d.side := rfl
@[simp] theorem Dev.setFld_pins (d : Dev) (a lo len v : Nat) : (d.setFld a lo len v).pins = d.pins := rfl

/-! ### bumpBy -/

@[simp] theorem Dev.bumpBy_on (d : Dev) (a lo len n : Nat) : (d.bumpBy a lo len n).on = d.on := rfl
@[simp] theorem Dev.bumpBy_noAccord (d : Dev) (a lo len n : Nat) : (d.bumpBy a lo len n).noAccord = d.noAccord := rfl
@[simp] theorem Dev.bumpBy_freeCtr (d : Dev) (a lo len n : Nat) : (d.bumpBy a lo len n).freeCtr = d.freeCtr := rfl
@[simp] theorem Dev.bumpBy_shadow (d : Dev) (a lo len n : Nat) : (d.bumpBy a lo len n).shadow = d.shadow := rfl
@[simp] theorem Dev.bumpBy_cg (d : Dev) (a lo len n : Nat) : (d.bumpBy a lo len n).cg = d.cg := rfl
@[simp] theorem Dev.bumpBy_cfg (d : Dev) (a lo len n : Nat) : (d.bumpBy a lo len n).cfg = d.cfg := rfl
@[simp] theorem Dev.bumpBy_applied (d : Dev) (a lo len n : Nat) : (d.bumpBy a lo len n).applied = d.applied := rfl
@[simp] theorem Dev.bumpBy_loader (d : Dev) (a lo len n : Nat) : (d.bumpBy a lo len n).loader = d.loader := rfl
@[simp] theorem Dev.bumpBy_link (d : Dev) (a lo len n : Nat) : (d.bumpBy a lo len n).link = d.link := rfl
@[simp] theorem Dev.bumpBy_txn (d : Dev) (a lo len n : Nat) : (d.bumpBy a lo len n).txn = d.txn := rfl
@[simp] theorem Dev.bumpBy_ports (d : Dev) (a lo len n : Nat) : (d.bumpBy a lo len n).ports = d.ports := rfl
@[simp] theorem Dev.bumpBy_tiles (d : Dev) (a lo len n : Nat) : (d.bumpBy a lo len n).tiles = d.tiles := rfl
@[simp] theorem Dev.bumpBy_phys (d : Dev) (a lo len n : Nat) : (d.bumpBy a lo len n).phys = d.phys := rfl
@[simp] theorem Dev.bumpBy_cals (d : Dev) (a lo len n : Nat) : (d.bumpBy a lo len n).cals = d.cals := rfl
@[simp] theorem Dev.bumpBy_prots (d : Dev) (a lo len n : Nat) : (d.bumpBy a lo len n).prots = d.prots := rfl
@[simp] theorem Dev.bumpBy_journal (d : Dev) (a lo len n : Nat) : (d.bumpBy a lo len n).journal = d.journal := rfl
@[simp] theorem Dev.bumpBy_mrShadow (d : Dev) (a lo len n : Nat) : (d.bumpBy a lo len n).mrShadow = d.mrShadow := rfl
@[simp] theorem Dev.bumpBy_qos (d : Dev) (a lo len n : Nat) : (d.bumpBy a lo len n).qos = d.qos := rfl
@[simp] theorem Dev.bumpBy_crypt (d : Dev) (a lo len n : Nat) : (d.bumpBy a lo len n).crypt = d.crypt := rfl
@[simp] theorem Dev.bumpBy_tier (d : Dev) (a lo len n : Nat) : (d.bumpBy a lo len n).tier = d.tier := rfl
@[simp] theorem Dev.bumpBy_jobs (d : Dev) (a lo len n : Nat) : (d.bumpBy a lo len n).jobs = d.jobs := rfl
@[simp] theorem Dev.bumpBy_nextJob (d : Dev) (a lo len n : Nat) : (d.bumpBy a lo len n).nextJob = d.nextJob := rfl
@[simp] theorem Dev.bumpBy_engs (d : Dev) (a lo len n : Nat) : (d.bumpBy a lo len n).engs = d.engs := rfl
@[simp] theorem Dev.bumpBy_kq (d : Dev) (a lo len n : Nat) : (d.bumpBy a lo len n).kq = d.kq := rfl
@[simp] theorem Dev.bumpBy_flt (d : Dev) (a lo len n : Nat) : (d.bumpBy a lo len n).flt = d.flt := rfl
@[simp] theorem Dev.bumpBy_sill (d : Dev) (a lo len n : Nat) : (d.bumpBy a lo len n).sill = d.sill := rfl
@[simp] theorem Dev.bumpBy_pwr (d : Dev) (a lo len n : Nat) : (d.bumpBy a lo len n).pwr = d.pwr := rfl
@[simp] theorem Dev.bumpBy_rst (d : Dev) (a lo len n : Nat) : (d.bumpBy a lo len n).rst = d.rst := rfl
@[simp] theorem Dev.bumpBy_side (d : Dev) (a lo len n : Nat) : (d.bumpBy a lo len n).side = d.side := rfl
@[simp] theorem Dev.bumpBy_pins (d : Dev) (a lo len n : Nat) : (d.bumpBy a lo len n).pins = d.pins := rfl

/-! ### bump -/

@[simp] theorem Dev.bump_on (d : Dev) (a lo len : Nat) : (d.bump a lo len).on = d.on := rfl
@[simp] theorem Dev.bump_noAccord (d : Dev) (a lo len : Nat) : (d.bump a lo len).noAccord = d.noAccord := rfl
@[simp] theorem Dev.bump_freeCtr (d : Dev) (a lo len : Nat) : (d.bump a lo len).freeCtr = d.freeCtr := rfl
@[simp] theorem Dev.bump_shadow (d : Dev) (a lo len : Nat) : (d.bump a lo len).shadow = d.shadow := rfl
@[simp] theorem Dev.bump_cg (d : Dev) (a lo len : Nat) : (d.bump a lo len).cg = d.cg := rfl
@[simp] theorem Dev.bump_cfg (d : Dev) (a lo len : Nat) : (d.bump a lo len).cfg = d.cfg := rfl
@[simp] theorem Dev.bump_applied (d : Dev) (a lo len : Nat) : (d.bump a lo len).applied = d.applied := rfl
@[simp] theorem Dev.bump_loader (d : Dev) (a lo len : Nat) : (d.bump a lo len).loader = d.loader := rfl
@[simp] theorem Dev.bump_link (d : Dev) (a lo len : Nat) : (d.bump a lo len).link = d.link := rfl
@[simp] theorem Dev.bump_txn (d : Dev) (a lo len : Nat) : (d.bump a lo len).txn = d.txn := rfl
@[simp] theorem Dev.bump_ports (d : Dev) (a lo len : Nat) : (d.bump a lo len).ports = d.ports := rfl
@[simp] theorem Dev.bump_tiles (d : Dev) (a lo len : Nat) : (d.bump a lo len).tiles = d.tiles := rfl
@[simp] theorem Dev.bump_phys (d : Dev) (a lo len : Nat) : (d.bump a lo len).phys = d.phys := rfl
@[simp] theorem Dev.bump_cals (d : Dev) (a lo len : Nat) : (d.bump a lo len).cals = d.cals := rfl
@[simp] theorem Dev.bump_prots (d : Dev) (a lo len : Nat) : (d.bump a lo len).prots = d.prots := rfl
@[simp] theorem Dev.bump_journal (d : Dev) (a lo len : Nat) : (d.bump a lo len).journal = d.journal := rfl
@[simp] theorem Dev.bump_mrShadow (d : Dev) (a lo len : Nat) : (d.bump a lo len).mrShadow = d.mrShadow := rfl
@[simp] theorem Dev.bump_qos (d : Dev) (a lo len : Nat) : (d.bump a lo len).qos = d.qos := rfl
@[simp] theorem Dev.bump_crypt (d : Dev) (a lo len : Nat) : (d.bump a lo len).crypt = d.crypt := rfl
@[simp] theorem Dev.bump_tier (d : Dev) (a lo len : Nat) : (d.bump a lo len).tier = d.tier := rfl
@[simp] theorem Dev.bump_jobs (d : Dev) (a lo len : Nat) : (d.bump a lo len).jobs = d.jobs := rfl
@[simp] theorem Dev.bump_nextJob (d : Dev) (a lo len : Nat) : (d.bump a lo len).nextJob = d.nextJob := rfl
@[simp] theorem Dev.bump_engs (d : Dev) (a lo len : Nat) : (d.bump a lo len).engs = d.engs := rfl
@[simp] theorem Dev.bump_kq (d : Dev) (a lo len : Nat) : (d.bump a lo len).kq = d.kq := rfl
@[simp] theorem Dev.bump_flt (d : Dev) (a lo len : Nat) : (d.bump a lo len).flt = d.flt := rfl
@[simp] theorem Dev.bump_sill (d : Dev) (a lo len : Nat) : (d.bump a lo len).sill = d.sill := rfl
@[simp] theorem Dev.bump_pwr (d : Dev) (a lo len : Nat) : (d.bump a lo len).pwr = d.pwr := rfl
@[simp] theorem Dev.bump_rst (d : Dev) (a lo len : Nat) : (d.bump a lo len).rst = d.rst := rfl
@[simp] theorem Dev.bump_side (d : Dev) (a lo len : Nat) : (d.bump a lo len).side = d.side := rfl
@[simp] theorem Dev.bump_pins (d : Dev) (a lo len : Nat) : (d.bump a lo len).pins = d.pins := rfl

/-! ### tickFree -/

@[simp] theorem Dev.tickFree_on (d : Dev) : (d.tickFree).on = d.on := rfl
@[simp] theorem Dev.tickFree_noAccord (d : Dev) : (d.tickFree).noAccord = d.noAccord := rfl
@[simp] theorem Dev.tickFree_rf (d : Dev) : (d.tickFree).rf = d.rf := rfl
@[simp] theorem Dev.tickFree_shadow (d : Dev) : (d.tickFree).shadow = d.shadow := rfl
@[simp] theorem Dev.tickFree_cg (d : Dev) : (d.tickFree).cg = d.cg := rfl
@[simp] theorem Dev.tickFree_cfg (d : Dev) : (d.tickFree).cfg = d.cfg := rfl
@[simp] theorem Dev.tickFree_applied (d : Dev) : (d.tickFree).applied = d.applied := rfl
@[simp] theorem Dev.tickFree_loader (d : Dev) : (d.tickFree).loader = d.loader := rfl
@[simp] theorem Dev.tickFree_link (d : Dev) : (d.tickFree).link = d.link := rfl
@[simp] theorem Dev.tickFree_txn (d : Dev) : (d.tickFree).txn = d.txn := rfl
@[simp] theorem Dev.tickFree_ports (d : Dev) : (d.tickFree).ports = d.ports := rfl
@[simp] theorem Dev.tickFree_tiles (d : Dev) : (d.tickFree).tiles = d.tiles := rfl
@[simp] theorem Dev.tickFree_phys (d : Dev) : (d.tickFree).phys = d.phys := rfl
@[simp] theorem Dev.tickFree_cals (d : Dev) : (d.tickFree).cals = d.cals := rfl
@[simp] theorem Dev.tickFree_prots (d : Dev) : (d.tickFree).prots = d.prots := rfl
@[simp] theorem Dev.tickFree_journal (d : Dev) : (d.tickFree).journal = d.journal := rfl
@[simp] theorem Dev.tickFree_mrShadow (d : Dev) : (d.tickFree).mrShadow = d.mrShadow := rfl
@[simp] theorem Dev.tickFree_qos (d : Dev) : (d.tickFree).qos = d.qos := rfl
@[simp] theorem Dev.tickFree_crypt (d : Dev) : (d.tickFree).crypt = d.crypt := rfl
@[simp] theorem Dev.tickFree_tier (d : Dev) : (d.tickFree).tier = d.tier := rfl
@[simp] theorem Dev.tickFree_jobs (d : Dev) : (d.tickFree).jobs = d.jobs := rfl
@[simp] theorem Dev.tickFree_nextJob (d : Dev) : (d.tickFree).nextJob = d.nextJob := rfl
@[simp] theorem Dev.tickFree_engs (d : Dev) : (d.tickFree).engs = d.engs := rfl
@[simp] theorem Dev.tickFree_kq (d : Dev) : (d.tickFree).kq = d.kq := rfl
@[simp] theorem Dev.tickFree_flt (d : Dev) : (d.tickFree).flt = d.flt := rfl
@[simp] theorem Dev.tickFree_sill (d : Dev) : (d.tickFree).sill = d.sill := rfl
@[simp] theorem Dev.tickFree_pwr (d : Dev) : (d.tickFree).pwr = d.pwr := rfl
@[simp] theorem Dev.tickFree_rst (d : Dev) : (d.tickFree).rst = d.rst := rfl
@[simp] theorem Dev.tickFree_side (d : Dev) : (d.tickFree).side = d.side := rfl
@[simp] theorem Dev.tickFree_pins (d : Dev) : (d.tickFree).pins = d.pins := rfl

/-! ### modPort -/

@[simp] theorem Dev.modPort_on (d : Dev) (p : Fin 4) (f : Port → Port) : (d.modPort p f).on = d.on := rfl
@[simp] theorem Dev.modPort_noAccord (d : Dev) (p : Fin 4) (f : Port → Port) : (d.modPort p f).noAccord = d.noAccord := rfl
@[simp] theorem Dev.modPort_freeCtr (d : Dev) (p : Fin 4) (f : Port → Port) : (d.modPort p f).freeCtr = d.freeCtr := rfl
@[simp] theorem Dev.modPort_rf (d : Dev) (p : Fin 4) (f : Port → Port) : (d.modPort p f).rf = d.rf := rfl
@[simp] theorem Dev.modPort_shadow (d : Dev) (p : Fin 4) (f : Port → Port) : (d.modPort p f).shadow = d.shadow := rfl
@[simp] theorem Dev.modPort_cg (d : Dev) (p : Fin 4) (f : Port → Port) : (d.modPort p f).cg = d.cg := rfl
@[simp] theorem Dev.modPort_cfg (d : Dev) (p : Fin 4) (f : Port → Port) : (d.modPort p f).cfg = d.cfg := rfl
@[simp] theorem Dev.modPort_applied (d : Dev) (p : Fin 4) (f : Port → Port) : (d.modPort p f).applied = d.applied := rfl
@[simp] theorem Dev.modPort_loader (d : Dev) (p : Fin 4) (f : Port → Port) : (d.modPort p f).loader = d.loader := rfl
@[simp] theorem Dev.modPort_link (d : Dev) (p : Fin 4) (f : Port → Port) : (d.modPort p f).link = d.link := rfl
@[simp] theorem Dev.modPort_txn (d : Dev) (p : Fin 4) (f : Port → Port) : (d.modPort p f).txn = d.txn := rfl
@[simp] theorem Dev.modPort_tiles (d : Dev) (p : Fin 4) (f : Port → Port) : (d.modPort p f).tiles = d.tiles := rfl
@[simp] theorem Dev.modPort_phys (d : Dev) (p : Fin 4) (f : Port → Port) : (d.modPort p f).phys = d.phys := rfl
@[simp] theorem Dev.modPort_cals (d : Dev) (p : Fin 4) (f : Port → Port) : (d.modPort p f).cals = d.cals := rfl
@[simp] theorem Dev.modPort_prots (d : Dev) (p : Fin 4) (f : Port → Port) : (d.modPort p f).prots = d.prots := rfl
@[simp] theorem Dev.modPort_journal (d : Dev) (p : Fin 4) (f : Port → Port) : (d.modPort p f).journal = d.journal := rfl
@[simp] theorem Dev.modPort_mrShadow (d : Dev) (p : Fin 4) (f : Port → Port) : (d.modPort p f).mrShadow = d.mrShadow := rfl
@[simp] theorem Dev.modPort_qos (d : Dev) (p : Fin 4) (f : Port → Port) : (d.modPort p f).qos = d.qos := rfl
@[simp] theorem Dev.modPort_crypt (d : Dev) (p : Fin 4) (f : Port → Port) : (d.modPort p f).crypt = d.crypt := rfl
@[simp] theorem Dev.modPort_tier (d : Dev) (p : Fin 4) (f : Port → Port) : (d.modPort p f).tier = d.tier := rfl
@[simp] theorem Dev.modPort_jobs (d : Dev) (p : Fin 4) (f : Port → Port) : (d.modPort p f).jobs = d.jobs := rfl
@[simp] theorem Dev.modPort_nextJob (d : Dev) (p : Fin 4) (f : Port → Port) : (d.modPort p f).nextJob = d.nextJob := rfl
@[simp] theorem Dev.modPort_engs (d : Dev) (p : Fin 4) (f : Port → Port) : (d.modPort p f).engs = d.engs := rfl
@[simp] theorem Dev.modPort_kq (d : Dev) (p : Fin 4) (f : Port → Port) : (d.modPort p f).kq = d.kq := rfl
@[simp] theorem Dev.modPort_flt (d : Dev) (p : Fin 4) (f : Port → Port) : (d.modPort p f).flt = d.flt := rfl
@[simp] theorem Dev.modPort_sill (d : Dev) (p : Fin 4) (f : Port → Port) : (d.modPort p f).sill = d.sill := rfl
@[simp] theorem Dev.modPort_pwr (d : Dev) (p : Fin 4) (f : Port → Port) : (d.modPort p f).pwr = d.pwr := rfl
@[simp] theorem Dev.modPort_rst (d : Dev) (p : Fin 4) (f : Port → Port) : (d.modPort p f).rst = d.rst := rfl
@[simp] theorem Dev.modPort_side (d : Dev) (p : Fin 4) (f : Port → Port) : (d.modPort p f).side = d.side := rfl
@[simp] theorem Dev.modPort_pins (d : Dev) (p : Fin 4) (f : Port → Port) : (d.modPort p f).pins = d.pins := rfl

/-! ### modTile -/

@[simp] theorem Dev.modTile_on (d : Dev) (t : Fin 16) (f : Tile → Tile) : (d.modTile t f).on = d.on := rfl
@[simp] theorem Dev.modTile_noAccord (d : Dev) (t : Fin 16) (f : Tile → Tile) : (d.modTile t f).noAccord = d.noAccord := rfl
@[simp] theorem Dev.modTile_freeCtr (d : Dev) (t : Fin 16) (f : Tile → Tile) : (d.modTile t f).freeCtr = d.freeCtr := rfl
@[simp] theorem Dev.modTile_rf (d : Dev) (t : Fin 16) (f : Tile → Tile) : (d.modTile t f).rf = d.rf := rfl
@[simp] theorem Dev.modTile_shadow (d : Dev) (t : Fin 16) (f : Tile → Tile) : (d.modTile t f).shadow = d.shadow := rfl
@[simp] theorem Dev.modTile_cg (d : Dev) (t : Fin 16) (f : Tile → Tile) : (d.modTile t f).cg = d.cg := rfl
@[simp] theorem Dev.modTile_cfg (d : Dev) (t : Fin 16) (f : Tile → Tile) : (d.modTile t f).cfg = d.cfg := rfl
@[simp] theorem Dev.modTile_applied (d : Dev) (t : Fin 16) (f : Tile → Tile) : (d.modTile t f).applied = d.applied := rfl
@[simp] theorem Dev.modTile_loader (d : Dev) (t : Fin 16) (f : Tile → Tile) : (d.modTile t f).loader = d.loader := rfl
@[simp] theorem Dev.modTile_link (d : Dev) (t : Fin 16) (f : Tile → Tile) : (d.modTile t f).link = d.link := rfl
@[simp] theorem Dev.modTile_txn (d : Dev) (t : Fin 16) (f : Tile → Tile) : (d.modTile t f).txn = d.txn := rfl
@[simp] theorem Dev.modTile_ports (d : Dev) (t : Fin 16) (f : Tile → Tile) : (d.modTile t f).ports = d.ports := rfl
@[simp] theorem Dev.modTile_phys (d : Dev) (t : Fin 16) (f : Tile → Tile) : (d.modTile t f).phys = d.phys := rfl
@[simp] theorem Dev.modTile_cals (d : Dev) (t : Fin 16) (f : Tile → Tile) : (d.modTile t f).cals = d.cals := rfl
@[simp] theorem Dev.modTile_prots (d : Dev) (t : Fin 16) (f : Tile → Tile) : (d.modTile t f).prots = d.prots := rfl
@[simp] theorem Dev.modTile_journal (d : Dev) (t : Fin 16) (f : Tile → Tile) : (d.modTile t f).journal = d.journal := rfl
@[simp] theorem Dev.modTile_mrShadow (d : Dev) (t : Fin 16) (f : Tile → Tile) : (d.modTile t f).mrShadow = d.mrShadow := rfl
@[simp] theorem Dev.modTile_qos (d : Dev) (t : Fin 16) (f : Tile → Tile) : (d.modTile t f).qos = d.qos := rfl
@[simp] theorem Dev.modTile_crypt (d : Dev) (t : Fin 16) (f : Tile → Tile) : (d.modTile t f).crypt = d.crypt := rfl
@[simp] theorem Dev.modTile_tier (d : Dev) (t : Fin 16) (f : Tile → Tile) : (d.modTile t f).tier = d.tier := rfl
@[simp] theorem Dev.modTile_jobs (d : Dev) (t : Fin 16) (f : Tile → Tile) : (d.modTile t f).jobs = d.jobs := rfl
@[simp] theorem Dev.modTile_nextJob (d : Dev) (t : Fin 16) (f : Tile → Tile) : (d.modTile t f).nextJob = d.nextJob := rfl
@[simp] theorem Dev.modTile_engs (d : Dev) (t : Fin 16) (f : Tile → Tile) : (d.modTile t f).engs = d.engs := rfl
@[simp] theorem Dev.modTile_kq (d : Dev) (t : Fin 16) (f : Tile → Tile) : (d.modTile t f).kq = d.kq := rfl
@[simp] theorem Dev.modTile_flt (d : Dev) (t : Fin 16) (f : Tile → Tile) : (d.modTile t f).flt = d.flt := rfl
@[simp] theorem Dev.modTile_sill (d : Dev) (t : Fin 16) (f : Tile → Tile) : (d.modTile t f).sill = d.sill := rfl
@[simp] theorem Dev.modTile_pwr (d : Dev) (t : Fin 16) (f : Tile → Tile) : (d.modTile t f).pwr = d.pwr := rfl
@[simp] theorem Dev.modTile_rst (d : Dev) (t : Fin 16) (f : Tile → Tile) : (d.modTile t f).rst = d.rst := rfl
@[simp] theorem Dev.modTile_side (d : Dev) (t : Fin 16) (f : Tile → Tile) : (d.modTile t f).side = d.side := rfl
@[simp] theorem Dev.modTile_pins (d : Dev) (t : Fin 16) (f : Tile → Tile) : (d.modTile t f).pins = d.pins := rfl

/-! ### modPhy -/

@[simp] theorem Dev.modPhy_on (d : Dev) (s : Fin 8) (f : Phy → Phy) : (d.modPhy s f).on = d.on := rfl
@[simp] theorem Dev.modPhy_noAccord (d : Dev) (s : Fin 8) (f : Phy → Phy) : (d.modPhy s f).noAccord = d.noAccord := rfl
@[simp] theorem Dev.modPhy_freeCtr (d : Dev) (s : Fin 8) (f : Phy → Phy) : (d.modPhy s f).freeCtr = d.freeCtr := rfl
@[simp] theorem Dev.modPhy_rf (d : Dev) (s : Fin 8) (f : Phy → Phy) : (d.modPhy s f).rf = d.rf := rfl
@[simp] theorem Dev.modPhy_shadow (d : Dev) (s : Fin 8) (f : Phy → Phy) : (d.modPhy s f).shadow = d.shadow := rfl
@[simp] theorem Dev.modPhy_cg (d : Dev) (s : Fin 8) (f : Phy → Phy) : (d.modPhy s f).cg = d.cg := rfl
@[simp] theorem Dev.modPhy_cfg (d : Dev) (s : Fin 8) (f : Phy → Phy) : (d.modPhy s f).cfg = d.cfg := rfl
@[simp] theorem Dev.modPhy_applied (d : Dev) (s : Fin 8) (f : Phy → Phy) : (d.modPhy s f).applied = d.applied := rfl
@[simp] theorem Dev.modPhy_loader (d : Dev) (s : Fin 8) (f : Phy → Phy) : (d.modPhy s f).loader = d.loader := rfl
@[simp] theorem Dev.modPhy_link (d : Dev) (s : Fin 8) (f : Phy → Phy) : (d.modPhy s f).link = d.link := rfl
@[simp] theorem Dev.modPhy_txn (d : Dev) (s : Fin 8) (f : Phy → Phy) : (d.modPhy s f).txn = d.txn := rfl
@[simp] theorem Dev.modPhy_ports (d : Dev) (s : Fin 8) (f : Phy → Phy) : (d.modPhy s f).ports = d.ports := rfl
@[simp] theorem Dev.modPhy_tiles (d : Dev) (s : Fin 8) (f : Phy → Phy) : (d.modPhy s f).tiles = d.tiles := rfl
@[simp] theorem Dev.modPhy_cals (d : Dev) (s : Fin 8) (f : Phy → Phy) : (d.modPhy s f).cals = d.cals := rfl
@[simp] theorem Dev.modPhy_prots (d : Dev) (s : Fin 8) (f : Phy → Phy) : (d.modPhy s f).prots = d.prots := rfl
@[simp] theorem Dev.modPhy_journal (d : Dev) (s : Fin 8) (f : Phy → Phy) : (d.modPhy s f).journal = d.journal := rfl
@[simp] theorem Dev.modPhy_mrShadow (d : Dev) (s : Fin 8) (f : Phy → Phy) : (d.modPhy s f).mrShadow = d.mrShadow := rfl
@[simp] theorem Dev.modPhy_qos (d : Dev) (s : Fin 8) (f : Phy → Phy) : (d.modPhy s f).qos = d.qos := rfl
@[simp] theorem Dev.modPhy_crypt (d : Dev) (s : Fin 8) (f : Phy → Phy) : (d.modPhy s f).crypt = d.crypt := rfl
@[simp] theorem Dev.modPhy_tier (d : Dev) (s : Fin 8) (f : Phy → Phy) : (d.modPhy s f).tier = d.tier := rfl
@[simp] theorem Dev.modPhy_jobs (d : Dev) (s : Fin 8) (f : Phy → Phy) : (d.modPhy s f).jobs = d.jobs := rfl
@[simp] theorem Dev.modPhy_nextJob (d : Dev) (s : Fin 8) (f : Phy → Phy) : (d.modPhy s f).nextJob = d.nextJob := rfl
@[simp] theorem Dev.modPhy_engs (d : Dev) (s : Fin 8) (f : Phy → Phy) : (d.modPhy s f).engs = d.engs := rfl
@[simp] theorem Dev.modPhy_kq (d : Dev) (s : Fin 8) (f : Phy → Phy) : (d.modPhy s f).kq = d.kq := rfl
@[simp] theorem Dev.modPhy_flt (d : Dev) (s : Fin 8) (f : Phy → Phy) : (d.modPhy s f).flt = d.flt := rfl
@[simp] theorem Dev.modPhy_sill (d : Dev) (s : Fin 8) (f : Phy → Phy) : (d.modPhy s f).sill = d.sill := rfl
@[simp] theorem Dev.modPhy_pwr (d : Dev) (s : Fin 8) (f : Phy → Phy) : (d.modPhy s f).pwr = d.pwr := rfl
@[simp] theorem Dev.modPhy_rst (d : Dev) (s : Fin 8) (f : Phy → Phy) : (d.modPhy s f).rst = d.rst := rfl
@[simp] theorem Dev.modPhy_side (d : Dev) (s : Fin 8) (f : Phy → Phy) : (d.modPhy s f).side = d.side := rfl
@[simp] theorem Dev.modPhy_pins (d : Dev) (s : Fin 8) (f : Phy → Phy) : (d.modPhy s f).pins = d.pins := rfl

/-! ### modCal -/

@[simp] theorem Dev.modCal_on (d : Dev) (p : Fin 4) (f : Cal → Cal) : (d.modCal p f).on = d.on := rfl
@[simp] theorem Dev.modCal_noAccord (d : Dev) (p : Fin 4) (f : Cal → Cal) : (d.modCal p f).noAccord = d.noAccord := rfl
@[simp] theorem Dev.modCal_freeCtr (d : Dev) (p : Fin 4) (f : Cal → Cal) : (d.modCal p f).freeCtr = d.freeCtr := rfl
@[simp] theorem Dev.modCal_rf (d : Dev) (p : Fin 4) (f : Cal → Cal) : (d.modCal p f).rf = d.rf := rfl
@[simp] theorem Dev.modCal_shadow (d : Dev) (p : Fin 4) (f : Cal → Cal) : (d.modCal p f).shadow = d.shadow := rfl
@[simp] theorem Dev.modCal_cg (d : Dev) (p : Fin 4) (f : Cal → Cal) : (d.modCal p f).cg = d.cg := rfl
@[simp] theorem Dev.modCal_cfg (d : Dev) (p : Fin 4) (f : Cal → Cal) : (d.modCal p f).cfg = d.cfg := rfl
@[simp] theorem Dev.modCal_applied (d : Dev) (p : Fin 4) (f : Cal → Cal) : (d.modCal p f).applied = d.applied := rfl
@[simp] theorem Dev.modCal_loader (d : Dev) (p : Fin 4) (f : Cal → Cal) : (d.modCal p f).loader = d.loader := rfl
@[simp] theorem Dev.modCal_link (d : Dev) (p : Fin 4) (f : Cal → Cal) : (d.modCal p f).link = d.link := rfl
@[simp] theorem Dev.modCal_txn (d : Dev) (p : Fin 4) (f : Cal → Cal) : (d.modCal p f).txn = d.txn := rfl
@[simp] theorem Dev.modCal_ports (d : Dev) (p : Fin 4) (f : Cal → Cal) : (d.modCal p f).ports = d.ports := rfl
@[simp] theorem Dev.modCal_tiles (d : Dev) (p : Fin 4) (f : Cal → Cal) : (d.modCal p f).tiles = d.tiles := rfl
@[simp] theorem Dev.modCal_phys (d : Dev) (p : Fin 4) (f : Cal → Cal) : (d.modCal p f).phys = d.phys := rfl
@[simp] theorem Dev.modCal_prots (d : Dev) (p : Fin 4) (f : Cal → Cal) : (d.modCal p f).prots = d.prots := rfl
@[simp] theorem Dev.modCal_journal (d : Dev) (p : Fin 4) (f : Cal → Cal) : (d.modCal p f).journal = d.journal := rfl
@[simp] theorem Dev.modCal_mrShadow (d : Dev) (p : Fin 4) (f : Cal → Cal) : (d.modCal p f).mrShadow = d.mrShadow := rfl
@[simp] theorem Dev.modCal_qos (d : Dev) (p : Fin 4) (f : Cal → Cal) : (d.modCal p f).qos = d.qos := rfl
@[simp] theorem Dev.modCal_crypt (d : Dev) (p : Fin 4) (f : Cal → Cal) : (d.modCal p f).crypt = d.crypt := rfl
@[simp] theorem Dev.modCal_tier (d : Dev) (p : Fin 4) (f : Cal → Cal) : (d.modCal p f).tier = d.tier := rfl
@[simp] theorem Dev.modCal_jobs (d : Dev) (p : Fin 4) (f : Cal → Cal) : (d.modCal p f).jobs = d.jobs := rfl
@[simp] theorem Dev.modCal_nextJob (d : Dev) (p : Fin 4) (f : Cal → Cal) : (d.modCal p f).nextJob = d.nextJob := rfl
@[simp] theorem Dev.modCal_engs (d : Dev) (p : Fin 4) (f : Cal → Cal) : (d.modCal p f).engs = d.engs := rfl
@[simp] theorem Dev.modCal_kq (d : Dev) (p : Fin 4) (f : Cal → Cal) : (d.modCal p f).kq = d.kq := rfl
@[simp] theorem Dev.modCal_flt (d : Dev) (p : Fin 4) (f : Cal → Cal) : (d.modCal p f).flt = d.flt := rfl
@[simp] theorem Dev.modCal_sill (d : Dev) (p : Fin 4) (f : Cal → Cal) : (d.modCal p f).sill = d.sill := rfl
@[simp] theorem Dev.modCal_pwr (d : Dev) (p : Fin 4) (f : Cal → Cal) : (d.modCal p f).pwr = d.pwr := rfl
@[simp] theorem Dev.modCal_rst (d : Dev) (p : Fin 4) (f : Cal → Cal) : (d.modCal p f).rst = d.rst := rfl
@[simp] theorem Dev.modCal_side (d : Dev) (p : Fin 4) (f : Cal → Cal) : (d.modCal p f).side = d.side := rfl
@[simp] theorem Dev.modCal_pins (d : Dev) (p : Fin 4) (f : Cal → Cal) : (d.modCal p f).pins = d.pins := rfl

/-! ### modProt -/

@[simp] theorem Dev.modProt_on (d : Dev) (s : Fin 8) (f : Prot → Prot) : (d.modProt s f).on = d.on := rfl
@[simp] theorem Dev.modProt_noAccord (d : Dev) (s : Fin 8) (f : Prot → Prot) : (d.modProt s f).noAccord = d.noAccord := rfl
@[simp] theorem Dev.modProt_freeCtr (d : Dev) (s : Fin 8) (f : Prot → Prot) : (d.modProt s f).freeCtr = d.freeCtr := rfl
@[simp] theorem Dev.modProt_rf (d : Dev) (s : Fin 8) (f : Prot → Prot) : (d.modProt s f).rf = d.rf := rfl
@[simp] theorem Dev.modProt_shadow (d : Dev) (s : Fin 8) (f : Prot → Prot) : (d.modProt s f).shadow = d.shadow := rfl
@[simp] theorem Dev.modProt_cg (d : Dev) (s : Fin 8) (f : Prot → Prot) : (d.modProt s f).cg = d.cg := rfl
@[simp] theorem Dev.modProt_cfg (d : Dev) (s : Fin 8) (f : Prot → Prot) : (d.modProt s f).cfg = d.cfg := rfl
@[simp] theorem Dev.modProt_applied (d : Dev) (s : Fin 8) (f : Prot → Prot) : (d.modProt s f).applied = d.applied := rfl
@[simp] theorem Dev.modProt_loader (d : Dev) (s : Fin 8) (f : Prot → Prot) : (d.modProt s f).loader = d.loader := rfl
@[simp] theorem Dev.modProt_link (d : Dev) (s : Fin 8) (f : Prot → Prot) : (d.modProt s f).link = d.link := rfl
@[simp] theorem Dev.modProt_txn (d : Dev) (s : Fin 8) (f : Prot → Prot) : (d.modProt s f).txn = d.txn := rfl
@[simp] theorem Dev.modProt_ports (d : Dev) (s : Fin 8) (f : Prot → Prot) : (d.modProt s f).ports = d.ports := rfl
@[simp] theorem Dev.modProt_tiles (d : Dev) (s : Fin 8) (f : Prot → Prot) : (d.modProt s f).tiles = d.tiles := rfl
@[simp] theorem Dev.modProt_phys (d : Dev) (s : Fin 8) (f : Prot → Prot) : (d.modProt s f).phys = d.phys := rfl
@[simp] theorem Dev.modProt_cals (d : Dev) (s : Fin 8) (f : Prot → Prot) : (d.modProt s f).cals = d.cals := rfl
@[simp] theorem Dev.modProt_journal (d : Dev) (s : Fin 8) (f : Prot → Prot) : (d.modProt s f).journal = d.journal := rfl
@[simp] theorem Dev.modProt_mrShadow (d : Dev) (s : Fin 8) (f : Prot → Prot) : (d.modProt s f).mrShadow = d.mrShadow := rfl
@[simp] theorem Dev.modProt_qos (d : Dev) (s : Fin 8) (f : Prot → Prot) : (d.modProt s f).qos = d.qos := rfl
@[simp] theorem Dev.modProt_crypt (d : Dev) (s : Fin 8) (f : Prot → Prot) : (d.modProt s f).crypt = d.crypt := rfl
@[simp] theorem Dev.modProt_tier (d : Dev) (s : Fin 8) (f : Prot → Prot) : (d.modProt s f).tier = d.tier := rfl
@[simp] theorem Dev.modProt_jobs (d : Dev) (s : Fin 8) (f : Prot → Prot) : (d.modProt s f).jobs = d.jobs := rfl
@[simp] theorem Dev.modProt_nextJob (d : Dev) (s : Fin 8) (f : Prot → Prot) : (d.modProt s f).nextJob = d.nextJob := rfl
@[simp] theorem Dev.modProt_engs (d : Dev) (s : Fin 8) (f : Prot → Prot) : (d.modProt s f).engs = d.engs := rfl
@[simp] theorem Dev.modProt_kq (d : Dev) (s : Fin 8) (f : Prot → Prot) : (d.modProt s f).kq = d.kq := rfl
@[simp] theorem Dev.modProt_flt (d : Dev) (s : Fin 8) (f : Prot → Prot) : (d.modProt s f).flt = d.flt := rfl
@[simp] theorem Dev.modProt_sill (d : Dev) (s : Fin 8) (f : Prot → Prot) : (d.modProt s f).sill = d.sill := rfl
@[simp] theorem Dev.modProt_pwr (d : Dev) (s : Fin 8) (f : Prot → Prot) : (d.modProt s f).pwr = d.pwr := rfl
@[simp] theorem Dev.modProt_rst (d : Dev) (s : Fin 8) (f : Prot → Prot) : (d.modProt s f).rst = d.rst := rfl
@[simp] theorem Dev.modProt_side (d : Dev) (s : Fin 8) (f : Prot → Prot) : (d.modProt s f).side = d.side := rfl
@[simp] theorem Dev.modProt_pins (d : Dev) (s : Fin 8) (f : Prot → Prot) : (d.modProt s f).pins = d.pins := rfl

/-! ### modEng -/

@[simp] theorem Dev.modEng_on (d : Dev) (e : Fin 72) (f : Engine → Engine) : (d.modEng e f).on = d.on := rfl
@[simp] theorem Dev.modEng_noAccord (d : Dev) (e : Fin 72) (f : Engine → Engine) : (d.modEng e f).noAccord = d.noAccord := rfl
@[simp] theorem Dev.modEng_freeCtr (d : Dev) (e : Fin 72) (f : Engine → Engine) : (d.modEng e f).freeCtr = d.freeCtr := rfl
@[simp] theorem Dev.modEng_rf (d : Dev) (e : Fin 72) (f : Engine → Engine) : (d.modEng e f).rf = d.rf := rfl
@[simp] theorem Dev.modEng_shadow (d : Dev) (e : Fin 72) (f : Engine → Engine) : (d.modEng e f).shadow = d.shadow := rfl
@[simp] theorem Dev.modEng_cg (d : Dev) (e : Fin 72) (f : Engine → Engine) : (d.modEng e f).cg = d.cg := rfl
@[simp] theorem Dev.modEng_cfg (d : Dev) (e : Fin 72) (f : Engine → Engine) : (d.modEng e f).cfg = d.cfg := rfl
@[simp] theorem Dev.modEng_applied (d : Dev) (e : Fin 72) (f : Engine → Engine) : (d.modEng e f).applied = d.applied := rfl
@[simp] theorem Dev.modEng_loader (d : Dev) (e : Fin 72) (f : Engine → Engine) : (d.modEng e f).loader = d.loader := rfl
@[simp] theorem Dev.modEng_link (d : Dev) (e : Fin 72) (f : Engine → Engine) : (d.modEng e f).link = d.link := rfl
@[simp] theorem Dev.modEng_txn (d : Dev) (e : Fin 72) (f : Engine → Engine) : (d.modEng e f).txn = d.txn := rfl
@[simp] theorem Dev.modEng_ports (d : Dev) (e : Fin 72) (f : Engine → Engine) : (d.modEng e f).ports = d.ports := rfl
@[simp] theorem Dev.modEng_tiles (d : Dev) (e : Fin 72) (f : Engine → Engine) : (d.modEng e f).tiles = d.tiles := rfl
@[simp] theorem Dev.modEng_phys (d : Dev) (e : Fin 72) (f : Engine → Engine) : (d.modEng e f).phys = d.phys := rfl
@[simp] theorem Dev.modEng_cals (d : Dev) (e : Fin 72) (f : Engine → Engine) : (d.modEng e f).cals = d.cals := rfl
@[simp] theorem Dev.modEng_prots (d : Dev) (e : Fin 72) (f : Engine → Engine) : (d.modEng e f).prots = d.prots := rfl
@[simp] theorem Dev.modEng_journal (d : Dev) (e : Fin 72) (f : Engine → Engine) : (d.modEng e f).journal = d.journal := rfl
@[simp] theorem Dev.modEng_mrShadow (d : Dev) (e : Fin 72) (f : Engine → Engine) : (d.modEng e f).mrShadow = d.mrShadow := rfl
@[simp] theorem Dev.modEng_qos (d : Dev) (e : Fin 72) (f : Engine → Engine) : (d.modEng e f).qos = d.qos := rfl
@[simp] theorem Dev.modEng_crypt (d : Dev) (e : Fin 72) (f : Engine → Engine) : (d.modEng e f).crypt = d.crypt := rfl
@[simp] theorem Dev.modEng_tier (d : Dev) (e : Fin 72) (f : Engine → Engine) : (d.modEng e f).tier = d.tier := rfl
@[simp] theorem Dev.modEng_jobs (d : Dev) (e : Fin 72) (f : Engine → Engine) : (d.modEng e f).jobs = d.jobs := rfl
@[simp] theorem Dev.modEng_nextJob (d : Dev) (e : Fin 72) (f : Engine → Engine) : (d.modEng e f).nextJob = d.nextJob := rfl
@[simp] theorem Dev.modEng_kq (d : Dev) (e : Fin 72) (f : Engine → Engine) : (d.modEng e f).kq = d.kq := rfl
@[simp] theorem Dev.modEng_flt (d : Dev) (e : Fin 72) (f : Engine → Engine) : (d.modEng e f).flt = d.flt := rfl
@[simp] theorem Dev.modEng_sill (d : Dev) (e : Fin 72) (f : Engine → Engine) : (d.modEng e f).sill = d.sill := rfl
@[simp] theorem Dev.modEng_pwr (d : Dev) (e : Fin 72) (f : Engine → Engine) : (d.modEng e f).pwr = d.pwr := rfl
@[simp] theorem Dev.modEng_rst (d : Dev) (e : Fin 72) (f : Engine → Engine) : (d.modEng e f).rst = d.rst := rfl
@[simp] theorem Dev.modEng_side (d : Dev) (e : Fin 72) (f : Engine → Engine) : (d.modEng e f).side = d.side := rfl
@[simp] theorem Dev.modEng_pins (d : Dev) (e : Fin 72) (f : Engine → Engine) : (d.modEng e f).pins = d.pins := rfl

/-! ### modLink -/

@[simp] theorem Dev.modLink_on (d : Dev) (f : Link → Link) : (d.modLink f).on = d.on := rfl
@[simp] theorem Dev.modLink_noAccord (d : Dev) (f : Link → Link) : (d.modLink f).noAccord = d.noAccord := rfl
@[simp] theorem Dev.modLink_freeCtr (d : Dev) (f : Link → Link) : (d.modLink f).freeCtr = d.freeCtr := rfl
@[simp] theorem Dev.modLink_rf (d : Dev) (f : Link → Link) : (d.modLink f).rf = d.rf := rfl
@[simp] theorem Dev.modLink_shadow (d : Dev) (f : Link → Link) : (d.modLink f).shadow = d.shadow := rfl
@[simp] theorem Dev.modLink_cg (d : Dev) (f : Link → Link) : (d.modLink f).cg = d.cg := rfl
@[simp] theorem Dev.modLink_cfg (d : Dev) (f : Link → Link) : (d.modLink f).cfg = d.cfg := rfl
@[simp] theorem Dev.modLink_applied (d : Dev) (f : Link → Link) : (d.modLink f).applied = d.applied := rfl
@[simp] theorem Dev.modLink_loader (d : Dev) (f : Link → Link) : (d.modLink f).loader = d.loader := rfl
@[simp] theorem Dev.modLink_txn (d : Dev) (f : Link → Link) : (d.modLink f).txn = d.txn := rfl
@[simp] theorem Dev.modLink_ports (d : Dev) (f : Link → Link) : (d.modLink f).ports = d.ports := rfl
@[simp] theorem Dev.modLink_tiles (d : Dev) (f : Link → Link) : (d.modLink f).tiles = d.tiles := rfl
@[simp] theorem Dev.modLink_phys (d : Dev) (f : Link → Link) : (d.modLink f).phys = d.phys := rfl
@[simp] theorem Dev.modLink_cals (d : Dev) (f : Link → Link) : (d.modLink f).cals = d.cals := rfl
@[simp] theorem Dev.modLink_prots (d : Dev) (f : Link → Link) : (d.modLink f).prots = d.prots := rfl
@[simp] theorem Dev.modLink_journal (d : Dev) (f : Link → Link) : (d.modLink f).journal = d.journal := rfl
@[simp] theorem Dev.modLink_mrShadow (d : Dev) (f : Link → Link) : (d.modLink f).mrShadow = d.mrShadow := rfl
@[simp] theorem Dev.modLink_qos (d : Dev) (f : Link → Link) : (d.modLink f).qos = d.qos := rfl
@[simp] theorem Dev.modLink_crypt (d : Dev) (f : Link → Link) : (d.modLink f).crypt = d.crypt := rfl
@[simp] theorem Dev.modLink_tier (d : Dev) (f : Link → Link) : (d.modLink f).tier = d.tier := rfl
@[simp] theorem Dev.modLink_jobs (d : Dev) (f : Link → Link) : (d.modLink f).jobs = d.jobs := rfl
@[simp] theorem Dev.modLink_nextJob (d : Dev) (f : Link → Link) : (d.modLink f).nextJob = d.nextJob := rfl
@[simp] theorem Dev.modLink_engs (d : Dev) (f : Link → Link) : (d.modLink f).engs = d.engs := rfl
@[simp] theorem Dev.modLink_kq (d : Dev) (f : Link → Link) : (d.modLink f).kq = d.kq := rfl
@[simp] theorem Dev.modLink_flt (d : Dev) (f : Link → Link) : (d.modLink f).flt = d.flt := rfl
@[simp] theorem Dev.modLink_sill (d : Dev) (f : Link → Link) : (d.modLink f).sill = d.sill := rfl
@[simp] theorem Dev.modLink_pwr (d : Dev) (f : Link → Link) : (d.modLink f).pwr = d.pwr := rfl
@[simp] theorem Dev.modLink_rst (d : Dev) (f : Link → Link) : (d.modLink f).rst = d.rst := rfl
@[simp] theorem Dev.modLink_side (d : Dev) (f : Link → Link) : (d.modLink f).side = d.side := rfl
@[simp] theorem Dev.modLink_pins (d : Dev) (f : Link → Link) : (d.modLink f).pins = d.pins := rfl
@[simp] theorem Dev.modLink_link (d : Dev) (f : Link → Link) : (d.modLink f).link = f d.link := rfl

/-! ### modTxn -/

@[simp] theorem Dev.modTxn_on (d : Dev) (f : Txn → Txn) : (d.modTxn f).on = d.on := rfl
@[simp] theorem Dev.modTxn_noAccord (d : Dev) (f : Txn → Txn) : (d.modTxn f).noAccord = d.noAccord := rfl
@[simp] theorem Dev.modTxn_freeCtr (d : Dev) (f : Txn → Txn) : (d.modTxn f).freeCtr = d.freeCtr := rfl
@[simp] theorem Dev.modTxn_rf (d : Dev) (f : Txn → Txn) : (d.modTxn f).rf = d.rf := rfl
@[simp] theorem Dev.modTxn_shadow (d : Dev) (f : Txn → Txn) : (d.modTxn f).shadow = d.shadow := rfl
@[simp] theorem Dev.modTxn_cg (d : Dev) (f : Txn → Txn) : (d.modTxn f).cg = d.cg := rfl
@[simp] theorem Dev.modTxn_cfg (d : Dev) (f : Txn → Txn) : (d.modTxn f).cfg = d.cfg := rfl
@[simp] theorem Dev.modTxn_applied (d : Dev) (f : Txn → Txn) : (d.modTxn f).applied = d.applied := rfl
@[simp] theorem Dev.modTxn_loader (d : Dev) (f : Txn → Txn) : (d.modTxn f).loader = d.loader := rfl
@[simp] theorem Dev.modTxn_link (d : Dev) (f : Txn → Txn) : (d.modTxn f).link = d.link := rfl
@[simp] theorem Dev.modTxn_ports (d : Dev) (f : Txn → Txn) : (d.modTxn f).ports = d.ports := rfl
@[simp] theorem Dev.modTxn_tiles (d : Dev) (f : Txn → Txn) : (d.modTxn f).tiles = d.tiles := rfl
@[simp] theorem Dev.modTxn_phys (d : Dev) (f : Txn → Txn) : (d.modTxn f).phys = d.phys := rfl
@[simp] theorem Dev.modTxn_cals (d : Dev) (f : Txn → Txn) : (d.modTxn f).cals = d.cals := rfl
@[simp] theorem Dev.modTxn_prots (d : Dev) (f : Txn → Txn) : (d.modTxn f).prots = d.prots := rfl
@[simp] theorem Dev.modTxn_journal (d : Dev) (f : Txn → Txn) : (d.modTxn f).journal = d.journal := rfl
@[simp] theorem Dev.modTxn_mrShadow (d : Dev) (f : Txn → Txn) : (d.modTxn f).mrShadow = d.mrShadow := rfl
@[simp] theorem Dev.modTxn_qos (d : Dev) (f : Txn → Txn) : (d.modTxn f).qos = d.qos := rfl
@[simp] theorem Dev.modTxn_crypt (d : Dev) (f : Txn → Txn) : (d.modTxn f).crypt = d.crypt := rfl
@[simp] theorem Dev.modTxn_tier (d : Dev) (f : Txn → Txn) : (d.modTxn f).tier = d.tier := rfl
@[simp] theorem Dev.modTxn_jobs (d : Dev) (f : Txn → Txn) : (d.modTxn f).jobs = d.jobs := rfl
@[simp] theorem Dev.modTxn_nextJob (d : Dev) (f : Txn → Txn) : (d.modTxn f).nextJob = d.nextJob := rfl
@[simp] theorem Dev.modTxn_engs (d : Dev) (f : Txn → Txn) : (d.modTxn f).engs = d.engs := rfl
@[simp] theorem Dev.modTxn_kq (d : Dev) (f : Txn → Txn) : (d.modTxn f).kq = d.kq := rfl
@[simp] theorem Dev.modTxn_flt (d : Dev) (f : Txn → Txn) : (d.modTxn f).flt = d.flt := rfl
@[simp] theorem Dev.modTxn_sill (d : Dev) (f : Txn → Txn) : (d.modTxn f).sill = d.sill := rfl
@[simp] theorem Dev.modTxn_pwr (d : Dev) (f : Txn → Txn) : (d.modTxn f).pwr = d.pwr := rfl
@[simp] theorem Dev.modTxn_rst (d : Dev) (f : Txn → Txn) : (d.modTxn f).rst = d.rst := rfl
@[simp] theorem Dev.modTxn_side (d : Dev) (f : Txn → Txn) : (d.modTxn f).side = d.side := rfl
@[simp] theorem Dev.modTxn_pins (d : Dev) (f : Txn → Txn) : (d.modTxn f).pins = d.pins := rfl
@[simp] theorem Dev.modTxn_txn (d : Dev) (f : Txn → Txn) : (d.modTxn f).txn = f d.txn := rfl

/-! ### modTier -/

@[simp] theorem Dev.modTier_on (d : Dev) (f : Tier → Tier) : (d.modTier f).on = d.on := rfl
@[simp] theorem Dev.modTier_noAccord (d : Dev) (f : Tier → Tier) : (d.modTier f).noAccord = d.noAccord := rfl
@[simp] theorem Dev.modTier_freeCtr (d : Dev) (f : Tier → Tier) : (d.modTier f).freeCtr = d.freeCtr := rfl
@[simp] theorem Dev.modTier_rf (d : Dev) (f : Tier → Tier) : (d.modTier f).rf = d.rf := rfl
@[simp] theorem Dev.modTier_shadow (d : Dev) (f : Tier → Tier) : (d.modTier f).shadow = d.shadow := rfl
@[simp] theorem Dev.modTier_cg (d : Dev) (f : Tier → Tier) : (d.modTier f).cg = d.cg := rfl
@[simp] theorem Dev.modTier_cfg (d : Dev) (f : Tier → Tier) : (d.modTier f).cfg = d.cfg := rfl
@[simp] theorem Dev.modTier_applied (d : Dev) (f : Tier → Tier) : (d.modTier f).applied = d.applied := rfl
@[simp] theorem Dev.modTier_loader (d : Dev) (f : Tier → Tier) : (d.modTier f).loader = d.loader := rfl
@[simp] theorem Dev.modTier_link (d : Dev) (f : Tier → Tier) : (d.modTier f).link = d.link := rfl
@[simp] theorem Dev.modTier_txn (d : Dev) (f : Tier → Tier) : (d.modTier f).txn = d.txn := rfl
@[simp] theorem Dev.modTier_ports (d : Dev) (f : Tier → Tier) : (d.modTier f).ports = d.ports := rfl
@[simp] theorem Dev.modTier_tiles (d : Dev) (f : Tier → Tier) : (d.modTier f).tiles = d.tiles := rfl
@[simp] theorem Dev.modTier_phys (d : Dev) (f : Tier → Tier) : (d.modTier f).phys = d.phys := rfl
@[simp] theorem Dev.modTier_cals (d : Dev) (f : Tier → Tier) : (d.modTier f).cals = d.cals := rfl
@[simp] theorem Dev.modTier_prots (d : Dev) (f : Tier → Tier) : (d.modTier f).prots = d.prots := rfl
@[simp] theorem Dev.modTier_journal (d : Dev) (f : Tier → Tier) : (d.modTier f).journal = d.journal := rfl
@[simp] theorem Dev.modTier_mrShadow (d : Dev) (f : Tier → Tier) : (d.modTier f).mrShadow = d.mrShadow := rfl
@[simp] theorem Dev.modTier_qos (d : Dev) (f : Tier → Tier) : (d.modTier f).qos = d.qos := rfl
@[simp] theorem Dev.modTier_crypt (d : Dev) (f : Tier → Tier) : (d.modTier f).crypt = d.crypt := rfl
@[simp] theorem Dev.modTier_jobs (d : Dev) (f : Tier → Tier) : (d.modTier f).jobs = d.jobs := rfl
@[simp] theorem Dev.modTier_nextJob (d : Dev) (f : Tier → Tier) : (d.modTier f).nextJob = d.nextJob := rfl
@[simp] theorem Dev.modTier_engs (d : Dev) (f : Tier → Tier) : (d.modTier f).engs = d.engs := rfl
@[simp] theorem Dev.modTier_kq (d : Dev) (f : Tier → Tier) : (d.modTier f).kq = d.kq := rfl
@[simp] theorem Dev.modTier_flt (d : Dev) (f : Tier → Tier) : (d.modTier f).flt = d.flt := rfl
@[simp] theorem Dev.modTier_sill (d : Dev) (f : Tier → Tier) : (d.modTier f).sill = d.sill := rfl
@[simp] theorem Dev.modTier_pwr (d : Dev) (f : Tier → Tier) : (d.modTier f).pwr = d.pwr := rfl
@[simp] theorem Dev.modTier_rst (d : Dev) (f : Tier → Tier) : (d.modTier f).rst = d.rst := rfl
@[simp] theorem Dev.modTier_side (d : Dev) (f : Tier → Tier) : (d.modTier f).side = d.side := rfl
@[simp] theorem Dev.modTier_pins (d : Dev) (f : Tier → Tier) : (d.modTier f).pins = d.pins := rfl
@[simp] theorem Dev.modTier_tier (d : Dev) (f : Tier → Tier) : (d.modTier f).tier = f d.tier := rfl

/-! ### modSide -/

@[simp] theorem Dev.modSide_on (d : Dev) (f : Side → Side) : (d.modSide f).on = d.on := rfl
@[simp] theorem Dev.modSide_noAccord (d : Dev) (f : Side → Side) : (d.modSide f).noAccord = d.noAccord := rfl
@[simp] theorem Dev.modSide_freeCtr (d : Dev) (f : Side → Side) : (d.modSide f).freeCtr = d.freeCtr := rfl
@[simp] theorem Dev.modSide_rf (d : Dev) (f : Side → Side) : (d.modSide f).rf = d.rf := rfl
@[simp] theorem Dev.modSide_shadow (d : Dev) (f : Side → Side) : (d.modSide f).shadow = d.shadow := rfl
@[simp] theorem Dev.modSide_cg (d : Dev) (f : Side → Side) : (d.modSide f).cg = d.cg := rfl
@[simp] theorem Dev.modSide_cfg (d : Dev) (f : Side → Side) : (d.modSide f).cfg = d.cfg := rfl
@[simp] theorem Dev.modSide_applied (d : Dev) (f : Side → Side) : (d.modSide f).applied = d.applied := rfl
@[simp] theorem Dev.modSide_loader (d : Dev) (f : Side → Side) : (d.modSide f).loader = d.loader := rfl
@[simp] theorem Dev.modSide_link (d : Dev) (f : Side → Side) : (d.modSide f).link = d.link := rfl
@[simp] theorem Dev.modSide_txn (d : Dev) (f : Side → Side) : (d.modSide f).txn = d.txn := rfl
@[simp] theorem Dev.modSide_ports (d : Dev) (f : Side → Side) : (d.modSide f).ports = d.ports := rfl
@[simp] theorem Dev.modSide_tiles (d : Dev) (f : Side → Side) : (d.modSide f).tiles = d.tiles := rfl
@[simp] theorem Dev.modSide_phys (d : Dev) (f : Side → Side) : (d.modSide f).phys = d.phys := rfl
@[simp] theorem Dev.modSide_cals (d : Dev) (f : Side → Side) : (d.modSide f).cals = d.cals := rfl
@[simp] theorem Dev.modSide_prots (d : Dev) (f : Side → Side) : (d.modSide f).prots = d.prots := rfl
@[simp] theorem Dev.modSide_journal (d : Dev) (f : Side → Side) : (d.modSide f).journal = d.journal := rfl
@[simp] theorem Dev.modSide_mrShadow (d : Dev) (f : Side → Side) : (d.modSide f).mrShadow = d.mrShadow := rfl
@[simp] theorem Dev.modSide_qos (d : Dev) (f : Side → Side) : (d.modSide f).qos = d.qos := rfl
@[simp] theorem Dev.modSide_crypt (d : Dev) (f : Side → Side) : (d.modSide f).crypt = d.crypt := rfl
@[simp] theorem Dev.modSide_tier (d : Dev) (f : Side → Side) : (d.modSide f).tier = d.tier := rfl
@[simp] theorem Dev.modSide_jobs (d : Dev) (f : Side → Side) : (d.modSide f).jobs = d.jobs := rfl
@[simp] theorem Dev.modSide_nextJob (d : Dev) (f : Side → Side) : (d.modSide f).nextJob = d.nextJob := rfl
@[simp] theorem Dev.modSide_engs (d : Dev) (f : Side → Side) : (d.modSide f).engs = d.engs := rfl
@[simp] theorem Dev.modSide_kq (d : Dev) (f : Side → Side) : (d.modSide f).kq = d.kq := rfl
@[simp] theorem Dev.modSide_flt (d : Dev) (f : Side → Side) : (d.modSide f).flt = d.flt := rfl
@[simp] theorem Dev.modSide_sill (d : Dev) (f : Side → Side) : (d.modSide f).sill = d.sill := rfl
@[simp] theorem Dev.modSide_pwr (d : Dev) (f : Side → Side) : (d.modSide f).pwr = d.pwr := rfl
@[simp] theorem Dev.modSide_rst (d : Dev) (f : Side → Side) : (d.modSide f).rst = d.rst := rfl
@[simp] theorem Dev.modSide_pins (d : Dev) (f : Side → Side) : (d.modSide f).pins = d.pins := rfl
@[simp] theorem Dev.modSide_side (d : Dev) (f : Side → Side) : (d.modSide f).side = f d.side := rfl

/-! ### modCg -/

@[simp] theorem Dev.modCg_on (d : Dev) (g : Fin 9) (f : CgGroup → CgGroup) : (d.modCg g f).on = d.on := rfl
@[simp] theorem Dev.modCg_noAccord (d : Dev) (g : Fin 9) (f : CgGroup → CgGroup) : (d.modCg g f).noAccord = d.noAccord := rfl
@[simp] theorem Dev.modCg_freeCtr (d : Dev) (g : Fin 9) (f : CgGroup → CgGroup) : (d.modCg g f).freeCtr = d.freeCtr := rfl
@[simp] theorem Dev.modCg_rf (d : Dev) (g : Fin 9) (f : CgGroup → CgGroup) : (d.modCg g f).rf = d.rf := rfl
@[simp] theorem Dev.modCg_shadow (d : Dev) (g : Fin 9) (f : CgGroup → CgGroup) : (d.modCg g f).shadow = d.shadow := rfl
@[simp] theorem Dev.modCg_cfg (d : Dev) (g : Fin 9) (f : CgGroup → CgGroup) : (d.modCg g f).cfg = d.cfg := rfl
@[simp] theorem Dev.modCg_applied (d : Dev) (g : Fin 9) (f : CgGroup → CgGroup) : (d.modCg g f).applied = d.applied := rfl
@[simp] theorem Dev.modCg_loader (d : Dev) (g : Fin 9) (f : CgGroup → CgGroup) : (d.modCg g f).loader = d.loader := rfl
@[simp] theorem Dev.modCg_link (d : Dev) (g : Fin 9) (f : CgGroup → CgGroup) : (d.modCg g f).link = d.link := rfl
@[simp] theorem Dev.modCg_txn (d : Dev) (g : Fin 9) (f : CgGroup → CgGroup) : (d.modCg g f).txn = d.txn := rfl
@[simp] theorem Dev.modCg_ports (d : Dev) (g : Fin 9) (f : CgGroup → CgGroup) : (d.modCg g f).ports = d.ports := rfl
@[simp] theorem Dev.modCg_tiles (d : Dev) (g : Fin 9) (f : CgGroup → CgGroup) : (d.modCg g f).tiles = d.tiles := rfl
@[simp] theorem Dev.modCg_phys (d : Dev) (g : Fin 9) (f : CgGroup → CgGroup) : (d.modCg g f).phys = d.phys := rfl
@[simp] theorem Dev.modCg_cals (d : Dev) (g : Fin 9) (f : CgGroup → CgGroup) : (d.modCg g f).cals = d.cals := rfl
@[simp] theorem Dev.modCg_prots (d : Dev) (g : Fin 9) (f : CgGroup → CgGroup) : (d.modCg g f).prots = d.prots := rfl
@[simp] theorem Dev.modCg_journal (d : Dev) (g : Fin 9) (f : CgGroup → CgGroup) : (d.modCg g f).journal = d.journal := rfl
@[simp] theorem Dev.modCg_mrShadow (d : Dev) (g : Fin 9) (f : CgGroup → CgGroup) : (d.modCg g f).mrShadow = d.mrShadow := rfl
@[simp] theorem Dev.modCg_qos (d : Dev) (g : Fin 9) (f : CgGroup → CgGroup) : (d.modCg g f).qos = d.qos := rfl
@[simp] theorem Dev.modCg_crypt (d : Dev) (g : Fin 9) (f : CgGroup → CgGroup) : (d.modCg g f).crypt = d.crypt := rfl
@[simp] theorem Dev.modCg_tier (d : Dev) (g : Fin 9) (f : CgGroup → CgGroup) : (d.modCg g f).tier = d.tier := rfl
@[simp] theorem Dev.modCg_jobs (d : Dev) (g : Fin 9) (f : CgGroup → CgGroup) : (d.modCg g f).jobs = d.jobs := rfl
@[simp] theorem Dev.modCg_nextJob (d : Dev) (g : Fin 9) (f : CgGroup → CgGroup) : (d.modCg g f).nextJob = d.nextJob := rfl
@[simp] theorem Dev.modCg_engs (d : Dev) (g : Fin 9) (f : CgGroup → CgGroup) : (d.modCg g f).engs = d.engs := rfl
@[simp] theorem Dev.modCg_kq (d : Dev) (g : Fin 9) (f : CgGroup → CgGroup) : (d.modCg g f).kq = d.kq := rfl
@[simp] theorem Dev.modCg_flt (d : Dev) (g : Fin 9) (f : CgGroup → CgGroup) : (d.modCg g f).flt = d.flt := rfl
@[simp] theorem Dev.modCg_sill (d : Dev) (g : Fin 9) (f : CgGroup → CgGroup) : (d.modCg g f).sill = d.sill := rfl
@[simp] theorem Dev.modCg_pwr (d : Dev) (g : Fin 9) (f : CgGroup → CgGroup) : (d.modCg g f).pwr = d.pwr := rfl
@[simp] theorem Dev.modCg_rst (d : Dev) (g : Fin 9) (f : CgGroup → CgGroup) : (d.modCg g f).rst = d.rst := rfl
@[simp] theorem Dev.modCg_side (d : Dev) (g : Fin 9) (f : CgGroup → CgGroup) : (d.modCg g f).side = d.side := rfl
@[simp] theorem Dev.modCg_pins (d : Dev) (g : Fin 9) (f : CgGroup → CgGroup) : (d.modCg g f).pins = d.pins := rfl

/-! ### setSrc -/

@[simp] theorem Dev.setSrc_on (d : Dev) (s : Nat) (x : Src) : (d.setSrc s x).on = d.on := rfl
@[simp] theorem Dev.setSrc_noAccord (d : Dev) (s : Nat) (x : Src) : (d.setSrc s x).noAccord = d.noAccord := rfl
@[simp] theorem Dev.setSrc_freeCtr (d : Dev) (s : Nat) (x : Src) : (d.setSrc s x).freeCtr = d.freeCtr := rfl
@[simp] theorem Dev.setSrc_rf (d : Dev) (s : Nat) (x : Src) : (d.setSrc s x).rf = d.rf := rfl
@[simp] theorem Dev.setSrc_shadow (d : Dev) (s : Nat) (x : Src) : (d.setSrc s x).shadow = d.shadow := rfl
@[simp] theorem Dev.setSrc_cg (d : Dev) (s : Nat) (x : Src) : (d.setSrc s x).cg = d.cg := rfl
@[simp] theorem Dev.setSrc_cfg (d : Dev) (s : Nat) (x : Src) : (d.setSrc s x).cfg = d.cfg := rfl
@[simp] theorem Dev.setSrc_applied (d : Dev) (s : Nat) (x : Src) : (d.setSrc s x).applied = d.applied := rfl
@[simp] theorem Dev.setSrc_loader (d : Dev) (s : Nat) (x : Src) : (d.setSrc s x).loader = d.loader := rfl
@[simp] theorem Dev.setSrc_link (d : Dev) (s : Nat) (x : Src) : (d.setSrc s x).link = d.link := rfl
@[simp] theorem Dev.setSrc_txn (d : Dev) (s : Nat) (x : Src) : (d.setSrc s x).txn = d.txn := rfl
@[simp] theorem Dev.setSrc_ports (d : Dev) (s : Nat) (x : Src) : (d.setSrc s x).ports = d.ports := rfl
@[simp] theorem Dev.setSrc_tiles (d : Dev) (s : Nat) (x : Src) : (d.setSrc s x).tiles = d.tiles := rfl
@[simp] theorem Dev.setSrc_phys (d : Dev) (s : Nat) (x : Src) : (d.setSrc s x).phys = d.phys := rfl
@[simp] theorem Dev.setSrc_cals (d : Dev) (s : Nat) (x : Src) : (d.setSrc s x).cals = d.cals := rfl
@[simp] theorem Dev.setSrc_prots (d : Dev) (s : Nat) (x : Src) : (d.setSrc s x).prots = d.prots := rfl
@[simp] theorem Dev.setSrc_journal (d : Dev) (s : Nat) (x : Src) : (d.setSrc s x).journal = d.journal := rfl
@[simp] theorem Dev.setSrc_mrShadow (d : Dev) (s : Nat) (x : Src) : (d.setSrc s x).mrShadow = d.mrShadow := rfl
@[simp] theorem Dev.setSrc_qos (d : Dev) (s : Nat) (x : Src) : (d.setSrc s x).qos = d.qos := rfl
@[simp] theorem Dev.setSrc_crypt (d : Dev) (s : Nat) (x : Src) : (d.setSrc s x).crypt = d.crypt := rfl
@[simp] theorem Dev.setSrc_tier (d : Dev) (s : Nat) (x : Src) : (d.setSrc s x).tier = d.tier := rfl
@[simp] theorem Dev.setSrc_jobs (d : Dev) (s : Nat) (x : Src) : (d.setSrc s x).jobs = d.jobs := rfl
@[simp] theorem Dev.setSrc_nextJob (d : Dev) (s : Nat) (x : Src) : (d.setSrc s x).nextJob = d.nextJob := rfl
@[simp] theorem Dev.setSrc_engs (d : Dev) (s : Nat) (x : Src) : (d.setSrc s x).engs = d.engs := rfl
@[simp] theorem Dev.setSrc_kq (d : Dev) (s : Nat) (x : Src) : (d.setSrc s x).kq = d.kq := rfl
@[simp] theorem Dev.setSrc_sill (d : Dev) (s : Nat) (x : Src) : (d.setSrc s x).sill = d.sill := rfl
@[simp] theorem Dev.setSrc_pwr (d : Dev) (s : Nat) (x : Src) : (d.setSrc s x).pwr = d.pwr := rfl
@[simp] theorem Dev.setSrc_rst (d : Dev) (s : Nat) (x : Src) : (d.setSrc s x).rst = d.rst := rfl
@[simp] theorem Dev.setSrc_side (d : Dev) (s : Nat) (x : Src) : (d.setSrc s x).side = d.side := rfl
@[simp] theorem Dev.setSrc_pins (d : Dev) (s : Nat) (x : Src) : (d.setSrc s x).pins = d.pins := rfl

/-! ### The unit an update names, and the others -/

@[simp] theorem Dev.modPort_ports_same (d : Dev) (i : Fin 4) (f : Port → Port) : (d.modPort i f).ports[i] = f d.ports[i] := by
  simp [Dev.modPort]
theorem Dev.modPort_ports_ne (d : Dev) (i : Fin 4) (f : Port → Port) {j : Fin 4} (h : j ≠ i) : (d.modPort i f).ports[j] = d.ports[j] := by
  have : i.val ≠ j.val := fun e => h (Fin.ext e.symm)
  simp [Dev.modPort, this]
@[simp] theorem Dev.modTile_tiles_same (d : Dev) (i : Fin 16) (f : Tile → Tile) : (d.modTile i f).tiles[i] = f d.tiles[i] := by
  simp [Dev.modTile]
theorem Dev.modTile_tiles_ne (d : Dev) (i : Fin 16) (f : Tile → Tile) {j : Fin 16} (h : j ≠ i) : (d.modTile i f).tiles[j] = d.tiles[j] := by
  have : i.val ≠ j.val := fun e => h (Fin.ext e.symm)
  simp [Dev.modTile, this]
@[simp] theorem Dev.modPhy_phys_same (d : Dev) (i : Fin 8) (f : Phy → Phy) : (d.modPhy i f).phys[i] = f d.phys[i] := by
  simp [Dev.modPhy]
theorem Dev.modPhy_phys_ne (d : Dev) (i : Fin 8) (f : Phy → Phy) {j : Fin 8} (h : j ≠ i) : (d.modPhy i f).phys[j] = d.phys[j] := by
  have : i.val ≠ j.val := fun e => h (Fin.ext e.symm)
  simp [Dev.modPhy, this]
@[simp] theorem Dev.modCal_cals_same (d : Dev) (i : Fin 4) (f : Cal → Cal) : (d.modCal i f).cals[i] = f d.cals[i] := by
  simp [Dev.modCal]
theorem Dev.modCal_cals_ne (d : Dev) (i : Fin 4) (f : Cal → Cal) {j : Fin 4} (h : j ≠ i) : (d.modCal i f).cals[j] = d.cals[j] := by
  have : i.val ≠ j.val := fun e => h (Fin.ext e.symm)
  simp [Dev.modCal, this]
@[simp] theorem Dev.modProt_prots_same (d : Dev) (i : Fin 8) (f : Prot → Prot) : (d.modProt i f).prots[i] = f d.prots[i] := by
  simp [Dev.modProt]
theorem Dev.modProt_prots_ne (d : Dev) (i : Fin 8) (f : Prot → Prot) {j : Fin 8} (h : j ≠ i) : (d.modProt i f).prots[j] = d.prots[j] := by
  have : i.val ≠ j.val := fun e => h (Fin.ext e.symm)
  simp [Dev.modProt, this]
@[simp] theorem Dev.modEng_engs_same (d : Dev) (i : Fin 72) (f : Engine → Engine) : (d.modEng i f).engs[i] = f d.engs[i] := by
  simp [Dev.modEng]
theorem Dev.modEng_engs_ne (d : Dev) (i : Fin 72) (f : Engine → Engine) {j : Fin 72} (h : j ≠ i) : (d.modEng i f).engs[j] = d.engs[j] := by
  have : i.val ≠ j.val := fun e => h (Fin.ext e.symm)
  simp [Dev.modEng, this]
@[simp] theorem Dev.modCg_cg_same (d : Dev) (i : Fin 9) (f : CgGroup → CgGroup) : (d.modCg i f).cg[i] = f d.cg[i] := by
  simp [Dev.modCg]
theorem Dev.modCg_cg_ne (d : Dev) (i : Fin 9) (f : CgGroup → CgGroup) {j : Fin 9} (h : j ≠ i) : (d.modCg i f).cg[j] = d.cg[j] := by
  have : i.val ≠ j.val := fun e => h (Fin.ext e.symm)
  simp [Dev.modCg, this]

end Sys2Proof.Machine
end

