-- ==== Sys2Proof/Laws/Ops.lean ====
section
/-! SUPPORT. Laws of the named operations: registers and their fields, counters, the outcome of a command, Sillage records and
the attention code. -/

namespace Sys2Proof.Machine

/-! ### Registers -/

/-- A register reads as what was written to it, and every other one stands. -/
@[simp] theorem Dev.reg_setReg (d : Dev) (a b : Nat) (v : Word) :
    (d.setReg a v).reg b = if b = a then v else d.reg b := by
  by_cases h : b = a
  · subst h; simp [Dev.reg, Dev.setReg]
  · simp [Dev.reg, Dev.setReg, h, sget_sset_ne _ _ _ _ h]

@[simp] theorem Dev.reg_setFld (d : Dev) (a lo len v b : Nat) :
    (d.setFld a lo len v).reg b = if b = a then put (d.reg a) lo len v else d.reg b := by
  simp [Dev.setFld]

/-- A field reads as what was set in it. -/
theorem Dev.fldR_setFld_same (d : Dev) (a lo len v : Nat) (h : 0 < len) (hl : lo + len ≤ 48) :
    (d.setFld a lo len v).fldR a lo len = v % 2 ^ len := by
  simp [Dev.fldR, fld_put_same _ _ _ _ h hl]

/-- Another field of the same register stands. -/
theorem Dev.fldR_setFld_other (d : Dev) (a lo len v lo' len' : Nat) (h : 0 < len) (hl : lo + len ≤ 48)
    (hd : lo' + len' ≤ lo ∨ lo + len ≤ lo') : (d.setFld a lo len v).fldR a lo' len' = d.fldR a lo' len' := by
  simp [Dev.fldR, fld_put_other _ _ _ _ _ _ h hl hd]

/-- A field of another register stands. -/
theorem Dev.fldR_setFld_ne (d : Dev) {a b : Nat} (lo len v lo' len' : Nat) (h : b ≠ a) :
    (d.setFld a lo len v).fldR b lo' len' = d.fldR b lo' len' := by
  simp [Dev.fldR, h]

/-- A saturating counter rises by one, at most to its highest value. -/
theorem Dev.fldR_bump_same (d : Dev) (a lo len : Nat) (h : 0 < len) (hl : lo + len ≤ 48) :
    (d.bump a lo len).fldR a lo len = min (d.fldR a lo len + 1) (2 ^ len - 1) := by
  have hp : 0 < 2 ^ len := Nat.two_pow_pos len
  rw [Dev.bump, Dev.bumpBy, Dev.fldR_setFld_same _ _ _ _ _ h hl, satAdd, Nat.mod_eq_of_lt]
  omega

@[simp] theorem Dev.tickFree_reg (d : Dev) (a' : Nat) : (d.tickFree).reg a' = d.reg a' := rfl
@[simp] theorem Dev.modPort_reg (d : Dev) (p : Fin 4) (f : Port → Port) (a' : Nat) : (d.modPort p f).reg a' = d.reg a' := rfl
@[simp] theorem Dev.modTile_reg (d : Dev) (t : Fin 16) (f : Tile → Tile) (a' : Nat) : (d.modTile t f).reg a' = d.reg a' := rfl
@[simp] theorem Dev.modPhy_reg (d : Dev) (s : Fin 8) (f : Phy → Phy) (a' : Nat) : (d.modPhy s f).reg a' = d.reg a' := rfl
@[simp] theorem Dev.modCal_reg (d : Dev) (p : Fin 4) (f : Cal → Cal) (a' : Nat) : (d.modCal p f).reg a' = d.reg a' := rfl
@[simp] theorem Dev.modProt_reg (d : Dev) (s : Fin 8) (f : Prot → Prot) (a' : Nat) : (d.modProt s f).reg a' = d.reg a' := rfl
@[simp] theorem Dev.modEng_reg (d : Dev) (e : Fin 72) (f : Engine → Engine) (a' : Nat) : (d.modEng e f).reg a' = d.reg a' := rfl
@[simp] theorem Dev.modLink_reg (d : Dev) (f : Link → Link) (a' : Nat) : (d.modLink f).reg a' = d.reg a' := rfl
@[simp] theorem Dev.modTxn_reg (d : Dev) (f : Txn → Txn) (a' : Nat) : (d.modTxn f).reg a' = d.reg a' := rfl
@[simp] theorem Dev.modTier_reg (d : Dev) (f : Tier → Tier) (a' : Nat) : (d.modTier f).reg a' = d.reg a' := rfl
@[simp] theorem Dev.modSide_reg (d : Dev) (f : Side → Side) (a' : Nat) : (d.modSide f).reg a' = d.reg a' := rfl
@[simp] theorem Dev.modCg_reg (d : Dev) (g : Fin 9) (f : CgGroup → CgGroup) (a' : Nat) : (d.modCg g f).reg a' = d.reg a' := rfl
@[simp] theorem Dev.setSrc_reg (d : Dev) (s : Nat) (x : Src) (a' : Nat) : (d.setSrc s x).reg a' = d.reg a' := rfl

/-! ### Outcomes -/

/-- A powered block takes the outcome of a command. -/
theorem stNext_of_live {s : State} (t : State) (h : s.dev.live = true) : stNext s t = .next t := by simp [stNext, h]

theorem devNext_of_live {s : State} (d : Dev) (h : s.dev.live = true) : devNext s d = .next { s with dev := d } := by
  simp [devNext, stNext, h]

/-- Without power, or after a thermal trip, nothing happens. -/
theorem stNext_of_dead {s : State} (t : State) (h : s.dev.live = false) : stNext s t = .next s := by simp [stNext, h]

theorem devNext_of_dead {s : State} (d : Dev) (h : s.dev.live = false) : devNext s d = .next s := by
  simp [devNext, stNext, h]

/-- What leads to a next state of the same queue, fuses and flash. -/
theorem devNext_frame {s t : State} {d : Dev} (h : devNext s d = .next t) :
    t.pending = s.pending ∧ t.fuses = s.fuses ∧ t.cells = s.cells ∧ t.flash = s.flash := by
  unfold devNext stNext at h
  split at h <;> cases h <;> exact ⟨rfl, rfl, rfl, rfl⟩

/-! ### Lists of units -/

/-- What every application keeps, the whole list keeps. -/
theorem Dev.each_keeps {α : Type} (P : Dev → Prop) (f : α → Dev → Dev) (h : ∀ x d, P d → P (f x d)) :
    ∀ (l : List α) (d : Dev), P d → P (Dev.each f l d)
  | [], _, hd => hd
  | x :: r, d, hd => Dev.each_keeps P f h r (f x d) (h x d hd)

theorem Dev.each_append {α : Type} (f : α → Dev → Dev) : ∀ (l k : List α) (d : Dev),
    Dev.each f (l ++ k) d = Dev.each f k (Dev.each f l d)
  | [], _, _ => rfl
  | x :: r, k, d => Dev.each_append f r k (f x d)

/-! ### Sillage and attention -/

/-- A record queued for Sillage touches Sillage and its loss counter alone. -/
theorem Dev.sillPush_eq (d : Dev) (ty : Nat) (coord : BitVec 16) (i : Nat) (data : Word) :
    ∃ sl rf, d.sillPush ty coord i data = { d with sill := sl, rf := rf } ∧
      ∀ a, a ≠ A.sillLost → sget (regReset a) rf a = d.reg a := by
  unfold Dev.sillPush
  split
  · exact ⟨_, _, rfl, fun _ _ => rfl⟩
  · refine ⟨_, _, rfl, fun a h => ?_⟩
    exact sget_sset_ne _ _ _ _ h

/-- Raising an attention cause touches the ATTN register, Sillage and its loss counter alone. -/
theorem Dev.setAttn_eq (d : Dev) (bits : Nat) :
    ∃ sl rf, d.setAttn bits = { d with sill := sl, rf := rf } ∧
      ∀ a, a ≠ A.sillLost → a ≠ A.attn → sget (regReset a) rf a = d.reg a := by
  unfold Dev.setAttn
  simp only
  split
  · exact ⟨_, _, rfl, fun a _ h2 => sget_sset_ne _ _ _ _ h2⟩
  · obtain ⟨sl, rf, e, hr⟩ := (d.setFld A.attn 0 12 bits).sillPush_eq 3 0 0
      (pack [(4, (d.setFld A.attn 0 12 bits).attnPending), (0, (d.setFld A.attn 0 12 bits).attnValue)])
    exact ⟨sl, rf, e, fun a h1 h2 => by rw [hr a h1, Dev.reg_setFld, if_neg h2]⟩

end Sys2Proof.Machine
end

