-- ==== Sys2Proof/WellFormed.lean ====
section
/-! DEFINITION. Which commands are well formed: the lengths and ranges that the spec gives their operands. -/

namespace Sys2Proof

/-- What a flit puts on the 22 lanes: at most four beats (Table 3.1). -/
def lanesWf (l : List (List (BitVec 48))) : Bool := l.length = 22 && l.all (fun x => x.length ≤ 4)

/-- A burst is 13 words, one per position, of 16 beats of 4 lanes (R196). -/
def burstWf (b : List (BitVec 64)) : Bool := b.length = 13

/-- The six codes of a subchannel's calibration, PU to GAIN (R190). -/
def codesWf (c : List (BitVec 6)) : Bool := c.length = 6

/-- A burst of 1 to 8 registers that does not run past 0xFF_FFFF, or none (R23). -/
def burstRegs (a : BitVec 24) (n : BitVec 4) : Bool := n.toNat ≤ 8 && a.toNat + n.toNat ≤ 2 ^ 24

/-- Instances of a commit group (Table 2.6): groups 1 to 8. -/
def cgWf (g : Fin 9) (i : Fin 16) : Bool :=
  g ≠ 0 && i.val < (if g = 2 || g = 4 then 4 else if g = 3 then 16 else 1)

/-- A command whose operands have the shape the spec gives them. The others are well formed by their types. -/
def Instr.wf : Instr → Bool
  | .dataFlitRx l => lanesWf l
  | .cgLand g i => cgWf g i
  | .cgIdleHold g i => cgWf g i
  | .readDataCapture _ b => burstWf b
  | .testOpDone _ _ bs => bs.all burstWf
  | .calPauseEnd _ c0 c1 => codesWf c0 && codesWf c1
  | .selftest _ u => u.length ≤ 5 && u.all (fun w => w.length ≤ 12)
  | .wr _ d => d.length = 4
  | .wrm _ _ d => d.length = 4
  | .mrd _ a n _ => burstRegs a n
  | .mwr _ a n _ d => burstRegs a n && d.length = (n.toNat + 1) / 2
  | .sensorRead t => t.length = 8
  | .i3cRegRead a n => burstRegs a n && 1 ≤ n.toNat
  | _ => true

end Sys2Proof
end

