-- ==== Sys2Proof/Tests/Slice0.lean ====
section
/-! SUPPORT. Tests: the shapes that `Instr.wf` refuses, single steps whose results are worked out by hand from the spec, and
for the hypotheses of every statement a state that meets them. -/

namespace Sys2Proof.Tests

set_option Elab.async false

open Sys2Proof Sys2Proof.Machine

/-! ### Small states -/

/-- The state that an outcome gives. -/
def after (o : Host.Outcome State Fault Refusal) : State :=
  match o with
  | .next s => s
  | .fault _ => State.reset
  | .refused _ => State.reset

/-- A powered device under an empty Accord. -/
def devOn : Dev := { Dev.reset with on := true, applied := true, pins := { Pins.rest with resetN := true } }

def withDev (d : Dev) : State := { State.reset with dev := d }

/-- Bytes of a section, as the Accord's configuration holds them. -/
def section_ (ty : Nat) (l : List (Nat × Byte)) : Memory := l.map (fun x => (ty * 2 ^ 24 + x.1, x.2))

/-- Engine 0 runs as a scrub engine, at PC 0 of a memory that holds `i`. -/
def engAt (i : Instr) (regs : Vector Word 16) : Engine :=
  { Engine.off with run := .running, role := 2, imem := [(0, (encodeEngine i).getD 0)], regs := regs }

def devEng (x : Engine) : Dev := { devOn with engs := devOn.engs.set 0 x }

/-- w1 = 5, w2 = 7, w3 = 3, w4 = 0x40, the others 0. -/
def regs5 : Vector Word 16 := #v[0, 5, 7, 3, 0x40, 0, 0, 0, 0, 0, 0, 0, 0, 0, 0, 0]

def runEng (i : Instr) : State := withDev (devEng (engAt i regs5))

/-! ### Ill-formed terms -/

theorem test_wf_flit : Instr.wf (.dataFlitRx []) = false := by decide
theorem test_wf_cgLand : Instr.wf (.cgLand 2 4) = false := by decide
theorem test_wf_cgIdleHold : Instr.wf (.cgIdleHold 0 0) = false := by decide
theorem test_wf_capture : Instr.wf (.readDataCapture 0 [0]) = false := by decide
theorem test_wf_testOpDone : Instr.wf (.testOpDone 0 0 [[0]]) = false := by decide
theorem test_wf_calPauseEnd : Instr.wf (.calPauseEnd 0 [0] [0, 0, 0, 0, 0, 0]) = false := by decide
theorem test_wf_selftest : Instr.wf (.selftest 0 [[], [], [], [], [], []]) = false := by decide
theorem test_wf_wr : Instr.wf (.wr 0 [0, 0, 0]) = false := by decide
theorem test_wf_wrm : Instr.wf (.wrm 0 0 []) = false := by decide
/-- WADDR 0xFFFFFF and COUNT 2 run past the register space. -/
theorem test_wf_mrd : Instr.wf (.mrd 0 0xFFFFFF 2 0) = false := by decide
theorem test_wf_mwr : Instr.wf (.mwr 0 0 3 0 [0]) = false := by decide
theorem test_wf_sensors : Instr.wf (.sensorRead [0]) = false := by decide
theorem test_wf_i3cRead : Instr.wf (.i3cRegRead 0 0) = false := by decide

/-! ### Engine words and instructions (Tables 10.7, 10.8) -/

/-- ADD w3, w1, w2: OP 0x01 in [47:42], A 3 in [41:38], B 1 in [37:34], C 2 in [33:30]. -/
theorem test_decode_add : decodeEngine 0 0b000001_0011_0001_0010_000000000000000000000000000000#48 = some (.add 0 3 1 2) := by
  decide
/-- BEQ w1, w2, 0x123 (form B): OP 0x18, A 1, B 2, [33:12] zero, target. -/
theorem test_decode_beq : decodeEngine 0 0b011000_0001_0010_0000000000000000000000_000100100011#48 = some (.beq 0 1 2 0x123) := by
  decide
/-- ADDI w1, w2, -1 (form I). -/
theorem test_decode_addi : decodeEngine 0 0b010000_0001_0010_1111111111111111111111111111111111#48 = some (.addi 0 1 2 (-1)) := by
  decide
theorem test_encode_add : encodeEngine (.add 0 3 1 2) = some 0b000001_0011_0001_0010_000000000000000000000000000000#48 := by
  decide

theorem test_add : ((after (exec (.add 0 3 1 2) (runEng (.add 0 3 1 2)))).dev.engs[0]).w 3 = 12 := by decide +kernel
/-- SAR of a negative register by 63 leaves the sign (Table 10.8). -/
theorem test_sar : ((after (exec (.sar 0 3 1 2)
    (withDev (devEng (engAt (.sar 0 3 1 2) (regs5.set 1 0x800000000000 |>.set 2 63)))))).dev.engs[0]).w 3 = 0xFFFFFFFFFFFF := by
  decide +kernel


/-! ### Witnesses: the machine as a whole -/

theorem witness_machine :
    State.reset.pending = [] ∧ Memory.wf State.reset.flash = true ∧ isNext (step State.reset) = true ∧
    isNext (step { State.reset with pending := [.powerOn { bootsel := 1, sfdp := true }] }) = true ∧
    State.reset.fuses.within State.reset.cells ∧ State.reset.dev.live = false ∧ State.reset.dev.on = false ∧
    (withDev devOn).dev.on = true ∧ hubOnly (.keyLoad .tap 0) = some .tap ∧ touchesStore .ageTick = false ∧
    regSpec (0xFFFFFF#24).toNat = none := by
  unfold Fuses.within; decide +kernel

/-! ### Witnesses: engines -/

theorem witness_DecodeOfEncode : (encodeEngine (.latomCas 3 2 1 4 ())).isSome = true ∧
    (encodeEngine (.lstepRotate 71 15 15 ())).isSome = true := by decide

theorem witness_EngineArithmetic :
    (runEng (.add 0 3 1 2)).executes 0 (.add 0 3 1 2) ∧
    aluResult 0 (runEng (.add 0 3 1 2)).dev.engs[0] (.add 0 3 1 2) = some (3, 12) ∧
    (runEng (.padd 0 6 2 4)).executes 0 (.padd 0 6 2 4) ∧
    (pairResult 0 (runEng (.padd 0 6 2 4)).dev.engs[0] (.padd 0 6 2 4)).isSome = true ∧
    (runEng (.stw 0 2 1 3)).executes 0 (.stw 0 2 1 3) ∧
    (runEng (.stw 0 2 1 3)).dev.protWords 0 ≤ dataIndex ((runEng (.stw 0 2 1 3)).dev.engs[0].w 1) 3 := by
  unfold State.executes; decide +kernel

/-- A protected data word: DLEN 54 of image 0 protects words 0 to 8; STW to word 8 traps. -/
def protState : State :=
  withDev { devEng (engAt (.stw 0 2 1 3) regs5) with cfg := section_ Sec.engines [(8, 54)] }

theorem witness_EngineArithmetic_protected : protState.executes 0 (.stw 0 2 1 3) ∧
    dataIndex (protState.dev.engs[0].w 1) 3 < protState.dev.protWords 0 ∧
    ((after (exec (.stw 0 2 1 3) protState)).dev.engs[0]).trap = 5 := by
  unfold State.executes; decide +kernel

theorem witness_EngineBranches :
    (runEng (.bltu 0 3 1 0xFFF)).executes 0 (.bltu 0 3 1 0xFFF) ∧
    branchTarget 0 (runEng (.bltu 0 3 1 0xFFF)).dev.engs[0] (.bltu 0 3 1 0xFFF) = some 0xFFF ∧
    (runEng (.call 0 9)).executes 0 (.call 0 9) := by
  unfold State.executes; decide +kernel

/-- Engine 0 with slot 1 all ones, slot 2 busy. -/
def slotState (i : Instr) : State :=
  withDev (devEng { engAt i regs5 with slots := [(1, BitVec.allOnes 512)], busy := 4 })

theorem witness_SlotFields :
    (slotState (.ext 0 6 1 1 0 48)).executes 0 (.ext 0 6 1 1 0 48) ∧ fieldOk 6 48 ∧ fieldOk 6 8 ∧ fieldOk 6 64 ∧
    (slotState (.ext 0 6 1 1 0 48)).dev.engs[0].isBusy 1 = false ∧
    (slotState (.ext 0 6 1 2 0 64)).executes 0 (.ext 0 6 1 2 0 64) ∧
    (slotState (.ext 0 6 1 2 0 64)).dev.engs[0].isBusy 2 = true ∧
    (slotState (.ext 0 6 1 1 0 7)).executes 0 (.ext 0 6 1 1 0 7) ∧
    (slotState (.ins 0 6 1 1 511 65)).executes 0 (.ins 0 6 1 1 511 65) ∧
    (slotState (.ins 0 6 1 1 511 8)).executes 0 (.ins 0 6 1 1 511 8) ∧
    (slotState (.ins 0 6 1 2 0 8)).executes 0 (.ins 0 6 1 2 0 8) ∧
    (slotState (.szero 0 1)).executes 0 (.szero 0 1) ∧ (slotState (.szero 0 2)).executes 0 (.szero 0 2) ∧
    ((after (exec (.ext 0 6 1 1 0 7) (slotState (.ext 0 6 1 1 0 7)))).dev.engs[0]).trap = 1 ∧
    ((after (exec (.ext 0 6 0 1 504 48) (slotState (.ext 0 6 0 1 504 48)))).dev.engs[0]).w 6 = 0xFF := by
  unfold State.executes fieldOk; decide +kernel

theorem witness_EngineWaits :
    (slotState (.lwait 0 6 1 false)).executes 0 (.lwait 0 6 1 false) ∧
    (slotState (.lwait 0 6 1 false)).dev.engs[0].isBusy 1 = false ∧
    (slotState (.lwait 0 6 2 false)).executes 0 (.lwait 0 6 2 false) ∧
    (slotState (.lwait 0 6 2 false)).dev.engs[0].isBusy 2 = true ∧
    (slotState (.lwait 0 6 0 true)).executes 0 (.lwait 0 6 0 true) ∧
    (slotState (.lwait 0 6 0 true)).dev.engs[0].busy ≠ 0 ∧
    (runEng (.lwait 0 6 0 true)).executes 0 (.lwait 0 6 0 true) ∧ (runEng (.lwait 0 6 0 true)).dev.engs[0].busy = 0 := by
  unfold State.executes; decide +kernel

/-- Engine 0 may select window 15, and has event 4 pending. -/
def eventState (i : Instr) : State :=
  withDev { devEng { engAt i regs5 with events := 0x10 } with cfg := section_ Sec.engines [(0x107, 0x80), (0x10D, 0x02)] }

theorem witness_EngineControl :
    (runEng (.nop 0)).executes 0 (.nop 0) ∧ (runEng (.beat 0)).executes 0 (.beat 0) ∧
    (eventState (.setwin 0 15)).executes 0 (.setwin 0 15) ∧ (eventState (.setwin 0 15)).dev.engs[0].isRoleEngine = true ∧
    ((eventState (.setwin 0 15)).dev.roleCfg 0 6 2).testBit 15 = true ∧
    (runEng (.tmr 0 1)).executes 0 (.tmr 0 1) ∧ (runEng (.halt 0)).executes 0 (.halt 0) ∧
    (eventState (.waite 0 6 0)).executes 0 (.waite 0 6 0) ∧ (eventState (.waite 0 6 0x10)).executes 0 (.waite 0 6 0x10) ∧
    (eventState (.waite 0 6 0xF)).executes 0 (.waite 0 6 0xF) ∧
    (eventState (.waite 0 6 0x10)).dev.engs[0].events &&& 0x10 ≠ 0 ∧
    (eventState (.waite 0 6 0xF)).dev.engs[0].events &&& 0xF = 0 := by
  unfold State.executes; decide +kernel

/-- Engine 0 sends `v`. -/
def sendState (v : Word) : State := withDev (devEng (engAt (.send 0 1) (regs5.set 1 v)))

theorem witness_EngineSends :
    (sendState 5).executes 0 (.send 0 1) ∧ fld ((sendState 5).dev.engs[0].w 1) 40 8 ∉ [1, 2, 3] ∧
    (sendState (put 0 40 8 1)).executes 0 (.send 0 1) ∧ (sendState (put 0 40 8 1)).dev.engs[0].w 1 = put 0 40 8 1 ∧
    (sendState (put 0 40 8 3)).executes 0 (.send 0 1) ∧ (sendState (put 7 40 8 2)).executes 0 (.send 0 1) ∧
    (after (exec (.markFail 0 7) (sendState (put 7 40 8 2)))).dev.bankLost 7 = true ∧
    (after (exec (.markDone 0 0) (sendState (put 0 40 8 1)))).dev.pwr.markDone = [0] := by
  unfold State.executes; decide +kernel

/-- Engine 0 accesses the register whose address w1 holds; FNMASK allows function 0x05 only. -/
def regAccState (i : Instr) : State :=
  withDev { devEng (engAt i (regs5.set 1 (BitVec.ofNat 48 A.ret))) with cfg := section_ Sec.engines [(0x10C, 0x20)] }

theorem witness_EngineRegisterAccess :
    (regAccState (.rrd 0 6 1)).executes 0 (.rrd 0 6 1) ∧ (regAccState (.rrd 0 6 1)).dev.engIssues 0 = true ∧
    (regAccState (.rwr 0 1 2)).executes 0 (.rwr 0 1 2) ∧ (regAccState (.rwr 0 1 2)).dev.engIssues 0 = true ∧
    (regAccState (.rwr 0 1 2)).dev.fnMask 0 (fnOf A.ret) = true ∧ (runEng (.rwr 0 1 2)).executes 0 (.rwr 0 1 2) ∧
    (runEng (.rwr 0 1 2)).dev.fnMask 0 (fnOf 5) = false ∧
    (after (exec (.rwr 0 1 2) (regAccState (.rwr 0 1 2)))).dev.fldR A.ret 0 16 = 7 ∧
    ((after (exec (.rwr 0 1 2) (runEng (.rwr 0 1 2)))).dev.engs[0]).trap = 3 := by
  unfold State.executes; decide +kernel

/-- A kernel's register access. -/
def kernelAcc : State := withDev (devEng { engAt (.rrd 0 6 1) regs5 with role := 5 })

theorem witness_EngineRegisterAccess_kernel : kernelAcc.executes 0 (.rrd 0 6 1) ∧
    kernelAcc.dev.engs[0].isRoleEngine = false ∧ ((after (exec (.rrd 0 6 1) kernelAcc)).dev.engs[0]).trap = 3 := by
  unfold State.executes; decide +kernel

/-- Engine 0 before a reserved word. -/
def badWord : State := withDev (devEng { engAt (.nop 0) regs5 with imem := [(0, 0xFC0000000000)] })

theorem witness_ReservedWords : badWord.dev.live = true ∧ badWord.dev.engRuns 0 = true ∧ badWord.dev.fetched 0 = none ∧
    badWord.dev.engs[0].isRoleEngine = true ∧ badWord.dev.engs[0].run = .running ∧
    ((after (exec (.nop 0) badWord)).dev.engs[0]).trap = 1 := by decide +kernel

/-- Engine 0 with window `kind` (1 ADDR, 2 MEDIA, 3 LOC) of the lines below 0x100, WRITE and POISON allowed; region 0 is
direct and holds the addresses below 0x10000. -/
def accState (kind : Byte) (i : Instr) : State :=
  withDev { devEng { engAt i regs5 with window := some 0, slots := [(1, BitVec.allOnes 512)] } with
    cfg := section_ Sec.regions [(0x0A, 1), (0x10, 1)] ++ section_ Sec.windows [(0, kind), (1, 5), (0x11, 1)] }

/-- The access of engine 0 to `t`. -/
def accHeld (s : State) (t : Target) (op : Op) : Held :=
  s.dev.engHeld 0 t op (match op with | .rd => .slot 0 1 0 | .wr _ => .slot 0 1 0 | _ => .latom 0 0)

/-- LGET of w4 = 0x40 in an ADDR window, LPUT of w1 = 5 in a LOC window, LPOIS of w4 in a MEDIA window. -/
def getState : State := accState 1 (.lget 0 4 1)
def putState : State := accState 3 (.lput 0 1 1)
def poisState : State := accState 2 (.lpois 0 6 4)

/-- The location of line 1. -/
def loc1 : Loc := (getState.dev.heldLoc (accHeld getState (.addr 1) .rd)).getD 0

theorem witness_EngineLineAccesses_get :
    getState.executes 0 (.lget 0 4 1) ∧ getState.dev.engIssues 0 = true ∧ getState.dev.engs[0].isBusy 1 = false ∧
    getState.dev.winTarget 0 0x40 false false = some (.addr 1) ∧
    getState.dev.heldLoc (accHeld getState (.addr 1) .rd) = some loc1 ∧
    getState.dev.engLost (accHeld getState (.addr 1) .rd) = false ∧ getState.dev.takes loc1 (getState.dev.engNote 0) ∧
    ((after (exec (.lget 0 4 1) getState)).dev.ports[0]).rdq.length = 1 ∧
    (runEng (.lget 0 4 1)).executes 0 (.lget 0 4 1) ∧
    (runEng (.lget 0 4 1)).dev.winTarget 0 0x40 false false = none := by
  unfold State.executes Dev.takes Dev.calm; decide +kernel

theorem witness_EngineLineAccesses_put :
    putState.executes 0 (.lput 0 1 1) ∧ putState.dev.engIssues 0 = true ∧
    putState.dev.winTarget 0 5 true false = some (.loc 5) ∧
    putState.dev.heldLoc (accHeld putState (.loc 5) (.wr (putState.dev.engs[0].slot 1))) = some 5 ∧
    putState.dev.takes 5 (putState.dev.engNote 0) ∧
    (((after (exec (.lput 0 1 1) putState)).dev.ports[0]).wrAt 5).isSome = true ∧
    poisState.executes 0 (.lpois 0 6 4) ∧ poisState.dev.engIssues 0 = true ∧
    poisState.dev.winTarget 0 0x40 true true = some (.media 1) ∧
    ((poisState.dev.heldLoc (accHeld poisState (.media 1) .pois)).any (fun l =>
      decide (poisState.dev.ingress (locPort l) = true))) = true ∧
    poisState.dev.takes ((poisState.dev.heldLoc (accHeld poisState (.media 1) .pois)).getD 0) (poisState.dev.engNote 0) ∧
    ((after (exec (.lpois 0 6 4) poisState)).dev.ports[0]).wrq.map (fun w => w.poison) = [true] := by
  unfold State.executes Dev.takes Dev.calm; decide +kernel

/-- Slot 1 is busy with a read that has ended. -/
def busyState : State :=
  withDev (devEng { engAt (.nop 0) regs5 with busy := 2, ended := [(1, 0, some 9)] })

theorem witness_EngineAccessCompletes : busyState.dev.live = true ∧ busyState.dev.engs[0].ended = [(1, 0, some 9)] ∧
    (∀ x ∈ busyState.dev.engs[0].ended, x.1 ≠ 2) ∧
    ((after (exec (.lineAccessDone 0 1 () ()) busyState)).dev.engs[0]).slot 1 = 9 ∧
    ((after (exec (.lineAccessDone 0 2 () ()) busyState)).dev.engs[0]).busy = 2 := by decide +kernel

/-! ### Witnesses: atomics, steps, events, kernels -/

/-- The ADDR window of `accState` before `i`; with `full`, line 1 stands in a full write entry. -/
def atomState (i : Instr) (full : Bool) : State :=
  let s := accState 1 i
  if full then { s with dev := { s.dev with ports := (after (exec (.lput 0 4 1) (accState 1 (.lput 0 4 1)))).dev.ports } } else s

/-- The access of that LATOM. -/
def atomHeld (s : State) (op : BitVec 2) : Held :=
  let x := s.dev.engs[0]
  s.dev.engHeld 0 (.addr 1) (.atom op ((x.w 4).extractLsb' 3 3) (x.pair 6) (x.pair 2)) (.latom 0 x.gen)

/-- The write entry of line 1. -/
def atomEntry : WrEnt :=
  (((atomState (.latomAdd 0 6 4 2 ()) true).dev.ports[0]).wrAt loc1).get (by decide +kernel)

theorem witness_EngineAtomics :
    (atomState (.latomAdd 0 6 4 2 ()) false).executes 0 (.latomAdd 0 6 4 2 ()) ∧
    (atomState (.latomSwap 0 6 4 2 ()) false).executes 0 (.latomSwap 0 6 4 2 ()) ∧
    (atomState (.latomCas 0 6 4 2 ()) true).executes 0 (.latomCas 0 6 4 2 ()) ∧
    (atomState (.latomAdd 0 6 4 2 ()) true).executes 0 (.latomAdd 0 6 4 2 ()) ∧
    latomOf (.latomAdd 0 6 4 2 ()) = some (1, 0, 6, 4, 2) ∧ (atomState (.latomAdd 0 6 4 2 ()) true).dev.engIssues 0 = true ∧
    (atomState (.latomAdd 0 6 4 2 ()) true).dev.winTarget 0 0x40 true false = some (.addr 1) ∧
    (atomState (.latomAdd 0 6 4 2 ()) true).dev.heldLoc (atomHeld (atomState (.latomAdd 0 6 4 2 ()) true) 1) = some loc1 ∧
    (atomState (.latomAdd 0 6 4 2 ()) true).dev.engLost (atomHeld (atomState (.latomAdd 0 6 4 2 ()) true) 1) = false ∧
    (atomState (.latomAdd 0 6 4 2 ()) true).dev.overlay
      ((atomState (.latomAdd 0 6 4 2 ()) true).dev.heldKey (atomHeld (atomState (.latomAdd 0 6 4 2 ()) true) 1)).media = none ∧
    atomNew 3 5 5 9 = some 9 ∧ atomNew 3 5 6 9 = none := by
  unfold State.executes; decide +kernel

theorem witness_EngineAtomics_takes :
    (atomState (.latomAdd 0 6 4 2 ()) true).dev.takesAtEntry loc1 ((atomState (.latomAdd 0 6 4 2 ()) true).dev.engNote 0) atomEntry ∧
    atomEntry.mask = fullMask ∧ atomEntry.poison = false ∧
    (atomState (.latomAdd 0 6 4 2 ()) false).dev.takes loc1 ((atomState (.latomAdd 0 6 4 2 ()) false).dev.engNote 0) := by
  unfold Dev.takes Dev.takesAtEntry Dev.calm; decide +kernel

/-- ADD of 0x0003_0000_0000_0007 to a word of ones: w6 holds OLD, the entry the sum. -/
theorem test_latomAdd_at_entry :
    let t := after (exec (.latomAdd 0 6 4 2 ()) (atomState (.latomAdd 0 6 4 2 ()) true))
    (t.dev.engs[0]).w 6 = 0xFFFFFFFFFFFF ∧
      ((t.dev.ports[0]).wrAt loc1).map (fun q => lineWord q.data 0) = some 0x0003000000000006 := by decide +kernel

theorem test_latomAdd_reads :
    let t := after (exec (.latomAdd 0 6 4 2 ()) (atomState (.latomAdd 0 6 4 2 ()) false))
    (t.dev.engs[0]).run = .waiting ∧ (t.dev.ports[0]).rdq.length = 1 ∧ (t.dev.ports[0]).locked loc1 = true := by decide +kernel

/-- Its read is in flight. -/
def atomFly : Inflight :=
  { loc := loc1, key := KeyUse.plain 1, op := .atom 1 0 0 5, ov := none, spare := none, erased := [], drop := false,
    acc := { who := .latom 0 0, note := 0, master := 0, rid := 0, c0 := 0, placed := false, late := false } }

def atomCapture : State :=
  withDev ((devEng { engAt (.latomAdd 0 6 4 2 ()) regs5 with run := .waiting, wait := .atom 6 }).modPhy 0 (fun x =>
    { x with inflight := [atomFly] }))

def burst9 : List (BitVec 64) := encodeLine 9 loc1 none noInj

theorem witness_EngineAtomics_capture : atomCapture.dev.live = true ∧ atomCapture.dev.calm ∧ atomCapture.dev.injectOff 0 ∧
    (atomCapture.dev.phys[0]).inflight = [atomFly] ∧ atomFly.op = .atom 1 0 0 5 ∧
    (atomCapture.dev.engs[0]).run = .waiting ∧ (atomCapture.dev.engs[0]).wait = .atom 6 ∧
    (atomCapture.dev.ports[0]).wrAt loc1 = none ∧ locPort loc1 = subPort 0 ∧ (atomCapture.dev.ports[0]).rdq = [] ∧
    (decodeLine burst9 loc1 none [] noInj).outc = .clean ∧ (decodeLine burst9 loc1 none [] noInj).counted = [] ∧
    atomNew 1 9 0 5 = some 14 ∧
    ((after (exec (.readDataCapture 0 burst9) atomCapture)).dev.engs[0]).w 6 = 9 := by
  unfold Dev.calm Dev.injectOff; decide +kernel

/-- Engine 0 of a LOC window over everything; subchannel 0 has tile 0, one layer of dies of 64 Ki rows; remap entry 0 of
subchannel 0 retires its row 0 of bank 0 when `retired`. -/
def sweepState (i : Instr) (fitted retired rebuild : Bool) (p : BitVec 34) : State :=
  let d : Dev := { devEng { engAt i (Vector.replicate 16 0) with window := some 0 } with
    cfg := section_ Sec.population (if fitted then [(0x20, 1), (0x21, 1), (0x22, 1), (0x23, 1)] else []) ++
      section_ Sec.protect [(2, 1)] ++ section_ Sec.windows [(0, 3), (1, 3), (0x15, 1)] }
  let d1 := d.modProt 0 (fun x => { x with rebuild := rebuild, p := p })
  withDev (if retired then d1.setReg (A.remap 0 0) (put 0 47 1 1) else d1)

def rebuildState (fitted retired rebuild : Bool) : State := sweepState (.lstepRebuild 0 6 1 ()) fitted retired rebuild 0

theorem witness_PointerSteps_rebuild :
    (rebuildState false false true).executes 0 (.lstepRebuild 0 6 1 ()) ∧ (rebuildState false false true).dev.engIssues 0 = true ∧
    ((rebuildState true true false).dev.prots[0]).rebuild = false ∧
    ((rebuildState true true true).dev.prots[0]).frozen = false ∧ (rebuildState true true true).dev.subFenced 0 = false ∧
    (rebuildState false false true).dev.sweepFrom 0 0 = none ∧ (rebuildState true true true).dev.sweepFrom 0 0 = some 0 ∧
    (rebuildState true true true).dev.sweepFrom 0 1 = some 1 ∧ (rebuildState true true true).dev.stepWindow 0 (sweepLoc 0 0) = true ∧
    (rebuildState true true true).dev.sweepSkips (sweepLoc 0 0) = true ∧
    (rebuildState true false true).dev.sweepSkips (sweepLoc 0 0) = false ∧
    (rebuildState true false true).dev.takes ((rebuildState true false true).dev.lineAt (sweepLoc 0 0))
      ((rebuildState true false true).dev.engNote 0) ∧
    ((after (exec (.lstepRebuild 0 6 1 ()) (rebuildState true true true))).dev.engs[0]).w 6 = 4 ∧
    ((after (exec (.lstepRebuild 0 6 1 ()) (rebuildState false false true))).dev.engs[0]).w 6 = 5 ∧
    (after (exec (.lstepRebuild 0 6 1 ()) (rebuildState true false true))).dev.jobs.map (fun j => j.kind) = [.rebuild 0] := by
  unfold State.executes Dev.takes Dev.calm; decide +kernel

def scrubState (retired : Bool) : State := sweepState (.lstepScrub 0 6 1 ()) true retired false 0

/-- The line at the scrub pointer stands in a full write entry. -/
def scrubFull : State :=
  let s := scrubState false
  let w := sweepState (.lput 0 1 1) true false false 0
  { s with dev := { s.dev with ports := (after (exec (.lput 0 1 1) w)).dev.ports } }

def scrubEntry : WrEnt := ((scrubFull.dev.ports[0]).wrAt 0).get (by decide +kernel)

theorem witness_PointerSteps_scrub :
    (scrubState true).executes 0 (.lstepScrub 0 6 1 ()) ∧ (scrubState true).dev.engIssues 0 = true ∧
    (scrubState true).dev.throttled = false ∧ (scrubState true).dev.protCfg 0 2 2 ≠ 0 ∧
    (scrubState true).dev.sweepSkips (sweepLoc 0 0) = true ∧ (scrubState true).dev.isMarkerRow (sweepLoc 0 0) = false ∧
    (scrubState false).dev.sweepSkips (sweepLoc 0 0) = false ∧
    (scrubState false).dev.takes ((scrubState false).dev.lineAt (sweepLoc 0 0)) ((scrubState false).dev.engNote 0) ∧
    scrubFull.dev.takesAtEntry 0 (scrubFull.dev.engNote 0) scrubEntry ∧ scrubEntry.mask = fullMask ∧
    scrubFull.dev.lineAt (sweepLoc 0 0) = 0 ∧ scrubFull.executes 0 (.lstepScrub 0 6 1 ()) ∧
    ((after (exec (.lstepScrub 0 6 1 ()) (scrubState true))).dev.engs[0]).w 6 = 4 ∧
    ((after (exec (.lstepScrub 0 6 1 ()) scrubFull)).dev.engs[0]).w 6 = 1 ∧
    (after (exec (.lstepScrub 0 6 1 ()) (scrubState false))).dev.jobs.length = 1 := by
  unfold State.executes Dev.takes Dev.takesAtEntry Dev.calm; decide +kernel

/-- Region 0, of one 4 KiB page or 64 lines, is being rotated; its pointer stands at `p`. The page has never been written. -/
def rotState (elastic : Bool) (p : Nat) : State :=
  let d : Dev := { devEng { engAt (.lstepRotate 0 6 1 ()) (Vector.replicate 16 0) with window := some 0 } with
    cfg := section_ Sec.population [(0x20, 1), (0x21, 1), (0x22, 1), (0x23, 1)] ++
      section_ Sec.regions [(0x09, 16), (0x10, if elastic then 2 else 1)] ++ section_ Sec.windows [(0, 1), (1, 1), (0x10, 64)] }
  withDev (((d.setFld (A.rot 0) 47 1 1).setFld (A.rot 0) 0 42 p).modTier (fun t => { t with pmc := [(0, { e := 0, dirty := false })] }))

theorem witness_PointerSteps_rotate :
    (rotState false 0).executes 0 (.lstepRotate 0 6 1 ()) ∧ (rotState false 0).dev.engIssues 0 = true ∧
    (rotState false 0).dev.rotating 0 = true ∧ (rebuildState true true false).dev.rotating 0 = false ∧
    regionElastic (rotState false 0).dev.cfg 0 = false ∧ (rotState false 0).dev.winTarget 0 0 true false = some (.addr 0) ∧
    (rotState false 0).dev.takes (addrMap (rotState false 0).dev.cfg 0) ((rotState false 0).dev.engNote 0) ∧
    regionElastic (rotState true 0).dev.cfg 0 = true ∧ (rotState true 0).dev.calm ∧
    (rotState true 0).dev.winTarget 0 0 true false = some (.addr 0) ∧
    (rotState true 0).dev.pmcGet (pageIdx (rotState true 0).dev.cfg 0 0) = some 0 ∧
    regionSize (rotState true 0).dev.cfg 0 / 4096 ≤ (rotState true 0).dev.rotPtr 0 + 1 ∧
    (after (exec (.lstepRotate 0 6 1 ()) (rotState false 0))).dev.jobs.length = 1 ∧
    ((after (exec (.lstepRotate 0 6 1 ()) (rotState true 0))).dev.engs[0]).w 6 = 5 ∧
    (after (exec (.lstepRotate 0 6 1 ()) (rotState true 0))).dev.rotating 0 = false := by
  unfold State.executes Dev.takes Dev.calm; decide +kernel

/-- A step of engine 0 whose last line is about to be loaded. -/
def lastJob (kind : JobKind) : Job :=
  { id := 0, kind := kind, e := some (0, 0), note := 0, master := 0, page := none, lines := [(0, KeyUse.byLoc)], left := 1, worst := 2 }

def jobDev (s : State) (kind : JobKind) : Dev :=
  { s.dev with jobs := [lastJob kind], engs := s.dev.engs.set 0 { s.dev.engs[0] with run := .waiting, wait := .step 6 } }

theorem witness_PointerSteps_end :
    (jobDev (rebuildState true false true) (.rebuild 0)).jobs = [lastJob (.rebuild 0)] ∧
    ((jobDev (rebuildState true false true) (.rebuild 0)).engs[0]).wait = .step 6 ∧
    (jobDev (rebuildState true false true) (.rebuild 0)).sweepFrom 0 0 = some 0 ∧
    (jobDev (rebuildState true false true) (.rebuild 0)).sweepFrom 0 1 = some 1 ∧
    (jobDev (rotState false 63) (.rotate 0)).rotateUnits 0 ≤ (jobDev (rotState false 63) (.rotate 0)).rotPtr 0 + 1 ∧
    (((jobDev (rebuildState true false true) (.rebuild 0)).jobLoaded 0).prots[0]).p = 1 ∧
    (((jobDev (rebuildState true false true) (.rebuild 0)).jobLoaded 0).engs[0]).w 6 = 2 ∧
    (((jobDev (rotState false 63) (.rotate 0)).jobLoaded 0).engs[0]).w 6 = 5 := by decide +kernel

/-- A scrub engine that waits for events, its timer armed; the age period is not zero. -/
def waitState : State :=
  withDev { devEng { engAt (.nop 0) regs5 with run := .waiting, wait := .event 3 6, tmr := true, role := 3 } with
    cfg := section_ Sec.tiers [(0x38, 1)] }

theorem witness_EngineEvents : waitState.dev.live = true ∧ waitState.dev.engs[0].tmr = true ∧
    waitState.dev.engs[0].run ≠ .fenced ∧ waitState.dev.engs[0].run ≠ .off ∧ waitState.dev.cfgLe Sec.tiers 0x38 2 ≠ 0 ∧
    ((after (exec (.tmrExpire 0) waitState)).dev.engs[0]).w 6 = 2 ∧
    ((after (exec (.mbox .hub 0 7) waitState)).dev.engs[0]).w 6 = 1 ∧
    ((after (exec .ageTick waitState)).dev.engs[0]).events = 0x10 := by decide +kernel

def inv1 : Inv := { kidx := 2, window := 3, tag := 9, src := 4, line := 5, length := 64, pf := false, onE := none }

/-- A kernel-pool engine, number 70, that is idle with image 0; an OPK of kernel 2, with ARGLINE when `arg`, waits. -/
def kernState (arg : Bool) : State :=
  withDev { devOn with
    engs := devOn.engs.set 70 { Engine.off with run := .idle, role := 5 }, kq := [inv1],
    cfg := section_ Sec.population [(0x20, 1), (0x21, 1), (0x22, 1), (0x23, 1)] ++
      section_ Sec.regions [(0x0A, 1), (0x10, 1)] ++
      section_ Sec.engines [(0x580 + 32 * 2, if arg then 5 else 1), (0x580 + 32 * 2 + 2, 0x34), (0x580 + 32 * 2 + 0x0C, 1)] }

theorem witness_KernelsAreDispatched : (kernState false).dev.live = true ∧ (kernState false).dev.kq = [inv1] ∧
    (kernState false).dev.idleFor inv1 = some 70 ∧ (kernState false).dev.flt.fatal = false ∧ (kernState false).dev.engPower = true ∧
    (kernState false).dev.throttled = false ∧ (kernState false).dev.rst.step = 0 ∧ (kernState false).dev.kernFlag 2 2 = false ∧
    (kernState true).dev.kernFlag 2 2 = true ∧ (kernState true).dev.idleFor inv1 = some 70 ∧
    (kernState true).dev.linePort 5 = some (locPort (addrMap (kernState true).dev.cfg 5)) ∧
    (kernState true).dev.bankLost (addrMap (kernState true).dev.cfg 5) = false ∧
    (kernState true).dev.takes (addrMap (kernState true).dev.cfg 5) (BitVec.ofNat 4 ((kernState true).dev.kernCfg 2 6 1)) ∧
    ((after (exec (.kernelDispatch ()) (kernState false))).dev.engs[70]).pc = 0x34 ∧
    ((after (exec (.kernelDispatch ()) (kernState false))).dev.engs[70]).w 4 = 9 ∧
    ((after (exec (.kernelDispatch ()) (kernState true))).dev.engs[70]).wait = .start ∧
    ((after (exec (.kernelDispatch ()) (kernState true))).dev.ports[0]).rdq.length = 1 := by
  unfold Dev.takes Dev.calm; decide +kernel

/-- The same engine runs that kernel; engine 0 is halted. -/
def supState : State :=
  withDev { devEng { engAt (.nop 0) regs5 with run := .halted } with
    engs := (devEng { engAt (.nop 0) regs5 with run := .halted }).engs.set 70
      { Engine.off with run := .running, role := 5, inv := some inv1 },
    cfg := section_ Sec.engines [(0x102, 0x20), (0x108, 1), (0x580 + 32 * 2 + 0x0C, 1)] }

theorem witness_EnginesAreSupervised : supState.dev.live = true ∧ supState.dev.engs[70].inv = some inv1 ∧
    supState.dev.kernCfg 2 0x0C 4 ≠ 0 ∧ supState.dev.engs[70].isKernel = true ∧ supState.dev.engs[70].run ≠ .fenced ∧
    supState.dev.engs[70].wait ≠ .start ∧
    supState.dev.roleCfg 0 8 2 ≠ 0 ∧ (runEng (.nop 0)).dev.engs[0].beats = true ∧ supState.dev.engs[0].run = .halted ∧
    supState.dev.engs[0].isRoleEngine = true ∧ supState.dev.flt.fatal = false ∧ bit (0 : Word) 1 = false ∧
    ((after (exec (.kernelBudgetExceeded 70) supState)).dev.engs[70]).trap = 4 ∧
    ((after (exec (.engineFence .hub 0 1) supState)).dev.engs[0]).fenceCause = 3 ∧
    ((after (exec (.engineRestart .hub 0 1) supState)).dev.engs[0]).pc = 0x20 ∧
    ((after (exec (.heartbeatMiss 70) supState)).dev.engs[70]).fenceCause = 1 := by decide +kernel

/-! ### Witnesses: requests and schedulers -/

/-- A first slot (R98): MTYPE, TAG, SRC 3, NOTE 0, the line address, and bits [55:0]. -/
def reqSlot (mtype tag line rest : Nat) : Slot :=
  BitVec.ofNat 128 (mtype <<< 124 ||| tag <<< 112 ||| 3 <<< 102 ||| line <<< 56 ||| rest)

/-- R98: TAG 0x123, SRC 0x2A5, NOTE 0xB, line address 0x30000000001, written out bit by bit; MTYPE RD. -/
theorem test_decode_request :
    let h : Slot := 0b0001_000100100011_1010100101_1011_110000000000000000000000000000000000000001#72 ++ 0#56
    reqOf h = { tag := 0x123, src := 0x2A5, note := 0xB, line := 0x30000000001 } ∧ reqShape h = some (.q, 1) := by decide

/-- Table 4.3: an OPK of kernel 0x12, window 3, length 0x10000; WORD 5 of an ATOM; an MRD of 2 registers at 0x184C04. -/
theorem test_decode_fields :
    opkOp (0#72 ++ 0b00010010_0011_00000000000000010000000000000000_000000000000#56) = .opk 0x12 3 0x10000 ∧
    atomOp 3 (0#72 ++ 0b00_101_000#8 ++ 0#48) (7#64 ++ 9#64) = .atom 3 5 7 9 ∧
    mrdOp (0#72 ++ 0x184C04#24 ++ 2#4 ++ 0#28) = .mrd 0x184C04 2 ∧
    mwrOp (0#72 ++ 0x184C04#24 ++ 3#4 ++ 0#28) [0#32 ++ 0xB#48 ++ 0xA#48, 0xC#128] = .mwr 0x184C04 3 [0xA, 0xB, 0xC] := by
  decide

def req (tag : BitVec 12) (line : LineAddr) : Req := { tag := tag, src := 3, note := 0, line := line }

/-- The link is up; region 0 is direct, of the addresses below 0x10000; tile 0 is in service, its port without self-refresh. -/
def reqDev : Dev :=
  let d : Dev := { devOn with
    link := { Link.initial with st := .up },
    cfg := section_ Sec.population [(0x20, 1), (0x21, 1), (0x22, 1), (0x23, 1)] ++ section_ Sec.regions [(0x0A, 1), (0x10, 1)] }
  (d.modTile 0 (fun x => { x with powered := true })).setFld (A.dlyState 0) 0 1 1

def heldState (h : Held) (track : List Track) : State :=
  withDev (reqDev.modTxn (fun x => { x with held := [h], track := track }))

def tracked (vc : Vc) (tag : BitVec 12) : List Track :=
  [{ vc := vc, tag := tag, executed := false, built := false, dead := false, seq := none }]

def opkHeld : Held := mkHeld .k (req 7 1) (.opk 2 3 64) none 0 0
def rdHeld (st : Option Status) : Held := mkHeld .q (req 7 1) .rd st 5 0
def flushHeld : Held := mkHeld .q (req 7 0) .flush none 5 0

theorem witness_RequestsAndVerdicts_decoded :
    (withDev reqDev).dev.live = true ∧ reqDev.decodes = true ∧
    (asksFor reqDev (.rd (reqSlot 1 7 1 0))).map (fun x => (x.2.1, x.2.2.2)) = some (req 7 1, none) ∧
    reqDev.linePort 1 = some 0 ∧ (reqDev.ports[0]).sr = .run ∧ reqDev.speculates (req 7 1) = false ∧
    (asksFor reqDev (.wrm (reqSlot 3 7 1 0) 0 [])).map (fun x => x.2.2.2) = some (some .noop) ∧
    ((after (exec (.rd (reqSlot 1 7 1 0)) (withDev reqDev))).dev.txn.held).map (fun h => h.r) = [req 7 1] := by decide +kernel

theorem witness_RequestsAndVerdicts :
    (heldState opkHeld []).dev.txn.held = [opkHeld] ∧ opkHeld.vc = .k ∧ opkHeld.isHub = true ∧ opkHeld.accepted = false ∧
    opkHeld.taken = false ∧ opkHeld.decided = none ∧ opkHeld.op = .opk 2 3 64 ∧ (heldState opkHeld []).dev.flt.fatal = false ∧
    flushHeld.op = .flush ∧ flushHeld.isHub = true ∧ flushHeld.decided = none ∧ (heldState (rdHeld none) []).dev.tier.ops = [] ∧
    (rdHeld none).isHub = true ∧ (∀ p : Fin 4, ((heldState (rdHeld none) []).dev.ports[p]).rdq.any (RdEnt.specOf 5) = false) ∧
    (rdHeld (some .lost)).who = .hub 7 3 ∧ (heldState (rdHeld (some .lost)) (tracked .q 7)).dev.tracksOnly .q 7 := by
  unfold Dev.tracksOnly; decide +kernel

theorem test_verdicts :
    (after (exec (.verdict .k 7 true) (heldState opkHeld []))).dev.kq =
      [{ kidx := 2, window := 3, tag := 7, src := 3, line := 1, length := 64, pf := false, onE := none }] ∧
    (after (exec (.verdict .q 7 true) (heldState (rdHeld (some .lost)) (tracked .q 7)))).dev.txn.outP.length = 1 ∧
    (after (exec (.verdict .q 7 true) (heldState flushHeld []))).dev.txn.flushes.length = 1 ∧
    ((after (exec (.verdict .q 7 true) (heldState (rdHeld none) []))).dev.ports[0]).rdq.length = 1 := by decide +kernel

/-- A FLUSH that covers nothing any more. -/
def flushState : State :=
  withDev (reqDev.modTxn (fun x =>
    { x with flushes := [{ tag := 7, src := 3, cover := [], poison := false }], track := tracked .q 7 }))

theorem witness_RequestsAndVerdicts_flush : flushState.dev.live = true ∧ flushState.dev.tracksOnly .q 7 ∧
    flushState.dev.txn.flushes = [{ tag := 7, src := 3, cover := [], poison := false }] ∧
    (after (exec (.flushDone 7) flushState)).dev.txn.outP.length = 1 := by
  unfold Dev.tracksOnly; decide +kernel

def mrdHeld (a : BitVec 24) (n : BitVec 4) : Held := mkHeld .m (req 9 0) (.mrd a n) none 0 0
def mwrHeld : Held := mkHeld .m (req 9 0) (.mwr (BitVec.ofNat 24 A.ret) 1 [0x1234]) none 0 0

theorem witness_RegisterRequests :
    (heldState (mrdHeld 0 8) []).dev.live = true ∧ (heldState (mrdHeld 0 8) []).dev.regOpen = true ∧
    (mrdHeld 0 8).isHub = true ∧ (mrdHeld 0 8).accepted = false ∧ (mrdHeld 0 8).taken = false ∧ (mrdHeld 0 8).decided = none ∧
    (heldState (mrdHeld 0 8) []).dev.txn.track = [] ∧ (heldState (mrdHeld 0 8) []).dev.link.st = .up ∧
    burstPlain (0 : BitVec 24).toNat (8 : BitVec 4).toNat = true ∧ (mrdHeld 0 0).op = .mrd 0 0 ∧
    burstPlain (0xFFFFF8 : BitVec 24).toNat (8 : BitVec 4).toNat = true ∧
    burstPlain (0xFFFFF9 : BitVec 24).toNat (8 : BitVec 4).toNat = false ∧
    mwrHeld.op = .mwr (BitVec.ofNat 24 A.ret) 1 [0x1234] ∧
    (after (exec (.verdict .m 9 true) (heldState mwrHeld []))).dev.fldR A.ret 0 16 = 0x1234 ∧
    (after (exec (.verdict .m 9 true) (heldState (mrdHeld (BitVec.ofNat 24 A.outstanding) 1) []))).dev.txn.outM.map
        (fun o => o.slots.length) = [2] ∧
    (after (exec (.verdict .m 9 false) (heldState mwrHeld []))).dev.txn.held = [] := by decide +kernel

theorem witness_StatusIsDecided :
    ({ reqDev with noAccord := true }).decideQ (req 7 1) .rd = some .opfault ∧
    reqDev.noAccord = false ∧ reqDev.lookupRegion 0x3FF = some 0 ∧ reqDev.lookupRegion 0x400 = none ∧
    reqDev.decideQ (req 7 0x400) .rd = some .opfault ∧ reqDev.decideQ (req 7 1) (.wrm 0 0) = some .noop ∧
    regionElastic reqDev.cfg 0 = false ∧
    (reqDev.setReg (A.lost 0 0) 1).bankLost (addrMap reqDev.cfg 1) = true ∧
    (reqDev.setReg (A.lost 0 0) 1).decideQ (req 7 1) .rd = some .lost ∧
    ({ reqDev with flt := { FaultState.clear with fatal := true } }).decideQ (req 7 1) (.wr 0) = some .poison ∧
    reqDev.subFenced (locSub (addrMap reqDev.cfg 1)) = false ∧ reqDev.decideQ (req 7 1) (.wr 0) = none := by
  decide +kernel

/-- Port 0 with a queued read of line 1, subchannel 1 fenced; its bank holds `row`, opened long ago. -/
def schedState (row : Option (BitVec 18)) : State :=
  let d := (after (exec (.verdict .q 7 true) (heldState (rdHeld none) []))).dev
  withDev ({ d with flt := { FaultState.clear with subFence := 2 } }.modPort 0 (fun x =>
    { x with cyc := 10000, banks := [(0, { Bank.closed with row := row })] }))

/-- The same port with a write in place of the read. -/
def schedWrite (row : Option (BitVec 18)) : State :=
  let d := (after (exec (.verdict .q 7 true) (heldState (mkHeld .q (req 7 1) (.wr 5) none 0 0) []))).dev
  withDev ({ d with flt := { FaultState.clear with subFence := 2 } }.modPort 0 (fun x =>
    { x with cyc := 10000, banks := [(0, { Bank.closed with row := row })] }))

/-- The read of `schedState` stands there speculatively, its verdict still due. -/
def specState : State :=
  withDev ((schedState (some 0)).dev.modPort 0 (fun x => { x with rdq := x.rdq.map (fun (r : RdEnt) =>
    { r with specWait := true }) }))

theorem witness_plainCycle_read : (schedState (some 0)).dev.plainCycle 0 := by
  unfold Dev.plainCycle Dev.calm; decide +kernel
theorem witness_plainCycle_spec : specState.dev.plainCycle 0 := by
  unfold Dev.plainCycle Dev.calm; decide +kernel
theorem witness_plainCycle_write : (schedWrite (some 0)).dev.plainCycle 0 := by
  unfold Dev.plainCycle Dev.calm; decide +kernel

theorem witness_SchedulerIssues :
    (schedState (some 0)).dev.live = true ∧ (schedState (some 0)).dev.subServes 0 1 = false ∧
    (withDev { reqDev with flt := { FaultState.clear with subFence := 3 } }).dev.subServes 0 0 = false ∧
    (∀ x ∈ (schedState (some 0)).dev.cands 0 0, x.penal = false) ∧
    ((schedState (some 0)).dev.pick 0 0).map (fun c => c.cmd.kind) = some .rd ∧
    ((schedState (some 5)).dev.pick 0 0).map (fun c => c.cmd.kind) = some .pre ∧
    ((schedState none).dev.pick 0 0).map (fun c => c.cmd.kind) = some .act ∧
    ((schedWrite (some 0)).dev.pick 0 0).map (fun c => c.cmd.kind) = some .wr ∧
    (specState.dev.pick 0 0).map (fun c => c.cmd.kind) = some .rd := by decide +kernel

theorem test_schedulerPicks :
    ((schedState (some 0)).dev.ports[0]).rdq.map (fun r => r.specWait) = [false] ∧
    (specState.dev.ports[0]).rdq.map (fun r => r.specWait) = [true] ∧
    ((after (exec (.schedPick 0 0) specState)).dev.ports[0]).rdq.map (fun r => r.picked) = [true] ∧
    ((after (exec (.schedPick 0 0) (schedState (some 0)))).dev.phys[0]).inflight.length = 1 ∧
    ((after (exec (.schedPick 0 0) (schedWrite (some 0)))).dev.ports[0]).wrq = [] := by decide +kernel

/-- The read of line 1 is in flight. -/
def flightState : State :=
  let s := after (exec (.schedPick 0 0) (schedState (some 0)))
  withDev (s.dev.modTxn (fun x => { x with track := tracked .q 7 }))

def burst1 : List (BitVec 64) := encodeLine 0xABC (addrMap reqDev.cfg 1) none noInj

theorem witness_CapturedReads : flightState.dev.live = true ∧ flightState.dev.calm ∧
    (flightState.dev.phys[0]).inflight.map (fun i => (i.op, i.acc.who)) = [(.rd, .hub 7 3)] ∧
    (flightState.dev.phys[0]).inflight.all (fun i => !i.drop && i.loc = addrMap reqDev.cfg 1 && i.spare.isNone &&
      i.erased.isEmpty && i.ov.isNone) = true ∧
    flightState.dev.injectOff 0 ∧ flightState.dev.tracksOnly .q 7 ∧
    (flightState.dev.ports[subPort 0]).wrAt (addrMap reqDev.cfg 1) = none ∧
    (decodeLine burst1 (addrMap reqDev.cfg 1) none [] noInj).outc = .clean ∧
    (decodeLine burst1 (addrMap reqDev.cfg 1) none [] noInj).counted = [] ∧
    (after (exec (.readDataCapture 0 burst1) flightState)).dev.txn.outP.map (fun o => (o.tag, o.slots.length)) = [(7, 5)] ∧
    ((after (exec (.readDataCapture 0 burst1) (withDev (reqDev.modPhy 0 (fun x =>
      { x with inflight := [{ atomFly with drop := true }] }))))).dev.phys[0]).inflight = [] := by
  unfold Dev.calm Dev.injectOff Dev.tracksOnly; decide +kernel

/-- Port 0 with a queued write, its three timers running; note 0 has a QoS window. -/
def timerState : State :=
  let d : Dev := (schedWrite (some 5)).dev
  withDev { d with cfg := d.cfg ++ section_ Sec.sched [(8, 1), (0x0C, 1), (0x10, 1)] }

theorem witness_SchedulerTimers : timerState.dev.live = true ∧ timerState.dev.schedCfg 0 0x0C 4 ≠ 0 ∧
    timerState.dev.schedCfg 0 0x10 4 ≠ 0 ∧ timerState.dev.schedCfg 0 8 4 ≠ 0 ∧
    (timerState.dev.ports[0]).wrq.map (fun w => w.q) = [0] ∧
    (timerState.dev.setFld (A.noteMon 15) 16 16 1).noteWindow 15 ≠ 0 ∧
    ((after (exec (.writeAgeDrain 0 0) timerState)).dev.ports[0]).drain.getLsbD 3 = true ∧
    (bankAt (after (exec (.pageTimeout { tile := 0, cid := 0, bg := 0, bank := 0 }) timerState)).dev.ports[0] 0).due = true ∧
    ((after (exec (.starvePromote 0 0) timerState)).dev.ports[0]).wrq.map (fun w => w.promo) = [1] ∧
    bit ((after (exec (.attnAck .hub (put 0 27 1 1)) (withDev (reqDev.raiseAttn 11)))).dev.reg A.attn) 11 = false := by
  decide +kernel

/-- Tile 0 under refresh (mode 1), owing `n` intervals. -/
def refState (n : Nat) (unit burst : Bool) : State :=
  let d := reqDev.modTile 0 (fun x => { x with owed := n, refUnit := unit, settled := 8192, coolPolls := 1 })
  withDev ({ d with cfg := d.cfg ++ section_ Sec.refresh [(0, 1), (0x18, 1), (0x1C, 1)] }.modPort 0 (fun x =>
    { x with rtBurst := burst, burstEnded := true, banks := [(0, { Bank.closed with row := some 5 })] }))

theorem witness_Refresh : (refState 14 false false).dev.live = true ∧ (refState 14 false false).dev.refreshed 0 = true ∧
    ((refState 14 false false).dev.tiles[0]).owed < 15 ∧ 15 ≤ ((refState 15 false false).dev.tiles[0]).owed ∧
    (refState 1 false false).dev.unitAllowed 0 = true ∧ ((refState 1 true false).dev.tiles[0]).refUnit = true ∧
    8192 ≤ ((refState 1 false false).dev.tiles[0]).settled ∧ (refState 1 false false).dev.present 0 = true ∧
    ((refState 1 false false).dev.tiles[0]).powered = true ∧ ((refState 1 false false).dev.tiles[0]).inSr = false ∧
    (refState 1 false false).dev.refrCfg 0 0x1C 2 ≠ 0 ∧ ((refState 1 false true).dev.ports[0]).rtBurst = true ∧
    (refState 1 false true).dev.rtQueued 0 = false ∧ ((refState 1 false false).dev.ports[0]).burstEnded = true ∧
    ((refState 1 false false).dev.cals[0]).pause = false ∧
    ((after (exec (.refreshInterval 0) (refState 14 false false))).dev.tiles[0]).owed = 15 ∧
    ((after (exec (.refreshUnit 0) (refState 1 false false))).dev.tiles[0]).refUnit = true ∧
    ((after (exec (.refreshUnitDone 0) (refState 1 true false))).dev.tiles[0]).owed = 0 ∧
    ((after (exec (.trackerClear 0) (refState 1 true false))).dev.tiles[0]).settled = 0 ∧
    ((after (exec (.geyserStart 0) (refState 1 false false))).dev.tiles[0]).geyser = true ∧
    ((after (exec (.rtBurstEnd 0) (refState 1 false true))).dev.ports[0]).burstEnded = true := by decide +kernel

theorem witness_Refresh_more :
    (refState 0 false false).dev.ckDriven 0 = true ∧ ((refState 0 false false).dev.tiles[0]).inSr = false ∧
    (refState 1 true false).dev.caOpen (tileSub 0) = true ∧ ((refState 1 true false).dev.cg[grpNo 3]).waits 0 = 0 ∧
    ((after (exec (.tempPoll 0 true) (refState 0 false false))).dev.tiles[0]).hot = true ∧
    ((after (exec (.tempPoll 0 true) (refState 0 false false))).dev.phys[0]).lastCmd.map (fun c => c.kind) = some .mrrK ∧
    ((after (exec (.penaltyEnd { tile := 0, cid := 0, bg := 0, bank := 1 }) (withDev ((refState 0 false false).dev.modTile 0
      (fun x => { x with pens := [(bankIdKey { tile := 0, cid := 0, bg := 0, bank := 1 }, { master := 3, lastAct := 0 })] }))))).dev.tiles[0]).pens
      = [] := by decide +kernel

/-- R154: a forced unit holds its tile until it completes. -/
theorem test_forced_until_done :
    let s1 : State := after (exec (.refreshUnit 0) (withDev ((refState 1 false false).dev.modTile 0 (fun x => { x with forced := true }))))
    (s1.dev.tiles[0]).forced = true ∧ s1.dev.refHolds 0 0 0 0 = true ∧
    ((after (exec (.refreshUnitDone 0) s1)).dev.tiles[0]).forced = false := by decide +kernel

/-- The same in same-bank mode, on a stack of one layer: rows are open in banks 0 and 1. -/
def sbState (next : Option Nat) : State :=
  let d := reqDev.modTile 0 (fun x => { x with owed := 1, refUnit := next.isSome, refNext := next.getD 0 })
  withDev ({ d with cfg := d.cfg ++ section_ Sec.refresh [(0, 2)] }.modPort 0 (fun x =>
    { x with banks := [(0, { Bank.closed with row := some 5 }), (1, { Bank.closed with row := some 5 })] }))

/-- R151: the first REFsb takes bank 0 and the rest of the tile runs on; the last of four takes bank 3. -/
theorem test_sameBank : (sbState none).dev.unitAllowed 0 = true ∧ (sbState none).dev.refMode 0 = 2 ∧
    ((after (exec (.refreshUnit 0) (sbState none))).dev.ports[0].banks.map (fun e => (e.1, e.2.row))).take 2 = [(0, none), (1, some 5)] ∧
    ((after (exec (.refreshUnit 0) (sbState none))).dev.tiles[0]).refNext = 1 ∧
    ((after (exec (.refreshUnitDone 0) (sbState (some 3)))).dev.phys[0].lastCmd.map (fun c => (c.kind, c.bank))) = some (.refSb, 3) ∧
    ((after (exec (.refreshUnitDone 0) (sbState (some 3)))).dev.tiles[0]).owed = 0 := by decide +kernel

/-- Port 0 in a phase of self-refresh. -/
def srState (ph : SrPhase) (inSr : Bool) : State :=
  withDev (((refState 0 false false).dev.modPort 0 (fun x => { x with sr := ph, srArrived := true })).modTile 0
    (fun x => { x with inSr := inSr }))

theorem witness_SelfRefresh : (srState .run false).dev.live = true ∧ (srState .run false).dev.refrCfg 0 0x18 4 ≠ 0 ∧
    ((srState .run false).dev.ports[0]).sr = .run ∧ (srState .run false).dev.portBusy 0 = false ∧
    (srState .run false).dev.pwrState = 0 ∧ (srState .run false).dev.pwrPhase = 0 ∧
    ((srState .run false).dev.cals[0]).pause = false ∧ (srState .run false).dev.rst.step = 0 ∧
    (srState .run false).dev.srTile 0 = true ∧ (0 : Fin 16) ∈ portTiles 0 ∧ (srState .exiting true).dev.calm ∧
    (srState .drain false).dev.portQuiet 0 = true ∧ ((srState .stopped true).dev.ports[0]).srArrived = true ∧
    (srState .stopped true).dev.caOpen (tileSub 0) = true ∧
    (∀ t ∈ portTiles 0, (srState .drain false).dev.refreshed t = true →
      ((srState .drain false).dev.tiles[t]).refUnit = false ∧ ((srState .drain false).dev.tiles[t]).owed = 0) ∧
    ((after (exec (.srIdleEntry 0) (srState .run false))).dev.ports[0]).sr = .drain ∧
    ((after (exec (.srDrainDone 0) (srState .drain false))).dev.ports[0]).sr = .sre ∧
    ((after (exec (.srDrainDone 0) (srState .drain false))).dev.tiles[0]).inSr = true ∧
    ((after (exec (.srClockStop 0) (srState .sre true))).dev.ports[0]).sr = .stopped ∧
    ((after (exec (.srExit 0) (srState .stopped true))).dev.ports[0]).sr = .exiting ∧
    ((after (exec (.srxDone 0) (srState .exiting true))).dev.ports[0]).sr = .run ∧
    ((after (exec (.srxDone 0) (srState .exiting true))).dev.tiles[0]).inSr = false ∧
    (after (exec (.lostClear .hub 0 0 1) (withDev (reqDev.setReg (A.lost 0 0) 3)))).dev.reg (A.lost 0 0) = 2 := by
  unfold Dev.calm; decide +kernel

/-- Table 6.3: the rows are precharged before the Geyser of step 3, not only with SRE; SRX leaves on CA (R163). -/
theorem test_srPrecharge :
    (after (exec (.srDrainDone 0) (withDev ((refState 2 false false).dev.modPort 0 (fun x => { x with sr := .drain }))))).dev.rowsOpen 0
      = false ∧
    ((after (exec (.srDrainDone 0) (withDev ((refState 2 false false).dev.modPort 0 (fun x => { x with sr := .drain }))))).dev.tiles[0]).geyser
      = true ∧
    ((after (exec (.srExit 0) (srState .stopped true))).dev.phys[0]).lastCmd.map (fun c => c.kind) = some .srx := by
  decide +kernel

/-- Subchannel 0 with a burst in its retry buffer; two retries allowed. -/
def alertState (a : AlertSt) : State :=
  withDev ({ reqDev with cfg := section_ Sec.population [(0, 2), (0x20, 1), (0x21, 1), (0x22, 1), (0x23, 1)] }.modPhy 0 (fun x =>
    { x with alert := a, retry := [{ loc := 5, words := [1, 2], resent := 1 }] }))

theorem witness_Alerts : (alertState .low).dev.live = true ∧ ((alertState .low).dev.phys[0]).alert = .low ∧
    ((alertState .idle).dev.phys[0]).testSent = false ∧ ((alertState .low).dev.phys[0]).retry.length = 1 ∧ 1 < (alertState .low).dev.cfgLe Sec.population 0 1 ∧
    ((alertState .idle).dev.phys[0]).alert = .idle ∧
    ((after (exec (.alertFall 0) (alertState .idle))).dev.phys[0]).alert = .low ∧
    ((after (exec (.alertRise 0) (alertState .low))).dev.phys[0]).lastWr = some [1, 2] ∧
    ((after (exec (.alertWinClose 0) (alertState .idle))).dev.phys[0]).retry = [] ∧
    ((after (exec (.alertStuck 0) (alertState .low))).dev.phys[0]).alert = .stuck ∧
    ((after (exec (.alertRise 0) (alertState .stuck))).dev.phys[0]).riseAt = some ((alertState .stuck).dev.now 0) := by decide +kernel

/-- A write levelling of tile 0 runs, its command sent. -/
def alertTest : State := withDev ((alertState .idle).dev.modPhy 0 (fun x => { x with test := some 3, testSent := true }))

theorem witness_Alerts_test : alertTest.dev.live = true ∧ (alertTest.dev.phys[0]).alert = .idle ∧
    (alertTest.dev.phys[0]).testSent = true ∧
    ((after (exec (.alertFall 0) alertTest)).dev.phys[0]).alert = .lowTest := by decide +kernel

/-- A VENDOR part's hub may run test operations: none runs, or write levelling of tile 0 does. -/
def testState (v : Option Word) : State :=
  withDev ((reqDev.setFld (A.dlyState 0) 0 1 0).modPhy 0 (fun x => { x with test := v, testSent := v.isSome }))

theorem witness_TestOperations : (testState none).dev.live = true ∧
    testOpOf (.wlevel .hub 0 (put 0 40 8 1)) = some (.hub, 0, put 0 40 8 1, 3) ∧
    (testState none).testWriter .hub = true ∧ (testState none).testWriter .tap = false ∧
    ((testState none).dev.phys[0]).test = none ∧ (testState none).dev.ready (testTile 0 (put 0 40 8 1)) = false ∧
    (withDev reqDev).dev.ready (testTile 0 (put 0 40 8 1)) = true ∧ fld (put (0 : Word) 40 8 1) 40 8 ≠ 0 ∧
    (testState none).dev.subFenced 0 = false ∧ ((testState (some 3)).dev.phys[0]).test = some 3 ∧
    ((testState none).dev.cals[subPort 0]).pause = false ∧ (testState none).dev.caOpen 0 = true ∧
    ((testState none).dev.phys[0]).testSent = false ∧ ((testState none).dev.tiles[testTile 0 (put 0 40 8 1)]).inSr = false ∧
    ((testState (some 3)).dev.phys[0]).testSent = true ∧ reqDev.present 0 = true ∧
    ((after (exec (.wlevel .hub 0 (put 0 40 8 1)) (testState none))).dev.phys[0]).test.isSome = true ∧
    (after (exec (.wlevel .hub 0 (put 0 40 8 1)) (withDev reqDev))).dev.fldR (A.testStat 0) 45 1 = 1 ∧
    (after (exec (.testOpDone 0 0x1FFF []) (testState (some 3)))).dev.fldR (A.testStat 0) 26 13 = 0x1FFF ∧
    (after (exec (.tileReadyWrite .hub 0 0) (withDev reqDev))).dev.ready 0 = false := by decide +kernel

/-- Port 0 calibrates, its codes wait to land. -/
def calState (pause : Bool) : State :=
  withDev ({ reqDev with cfg := section_ Sec.cal [(0, 1)] }.modCal 0 (fun x =>
    { x with pause := pause, everDone := true, pend := #v[some [1], none] }))

theorem witness_Calibration : (calState true).dev.live = true ∧ bit (1 : Word) 0 = true ∧
    ((withDev reqDev).dev.cals[0]).pause = false ∧ ((withDev reqDev).dev.cals[0]).queued = false ∧
    (reqDev.ports[0]).sr = .run ∧ reqDev.pwrState = 0 ∧ reqDev.pwrPhase = 0 ∧ (∀ q : Fin 4, (reqDev.cals[q]).pause = false) ∧
    ((calState true).dev.cals[0]).pause = true ∧ ((calState true).dev.cals[1]).pause = false ∧ (calState true).dev.calm ∧
    (∀ q : Fin 4, ((calState true).dev.cals[q]).queued = false) ∧ (calState false).dev.cfgLe Sec.cal 0 4 ≠ 0 ∧
    (calState false).dev.trimQuiet 0 = true ∧ ((calState false).dev.cals[subPort 0]).pend[subHalf 0] = some [1] ∧
    ((after (exec (.calStart .hub 0 1) (withDev reqDev))).dev.cals[0]).pause = true ∧
    ((after (exec (.calStart .hub 1 1) (calState true))).dev.cals[1]).queued = true ∧
    (after (exec (.calRefCheck 0 23280 6180) (calState true))).dev.fldR (A.calRef 0) 16 16 = 23280 ∧
    (after (exec (.calPauseEnd 0 [1] [2]) (calState true))).dev.fldR (A.calStatus 0) 0 4 = 1 ∧
    ((after (exec (.calTrimLand 0) (calState false))).dev.cals[0]).codes[0] = [1] ∧
    (after (exec (.calDueTimer 0) (calState false))).dev.fldR (A.calStatus 0) 16 1 = 1 := by
  unfold Dev.calm; decide +kernel

/-- An ALERT_N in a test operation causes no resend (R188). -/
theorem test_alert_in_test_resends_nothing :
    ((after (exec (.alertRise 0) (after (exec (.alertFall 0) alertTest)))).dev.phys[0]).lastWr = none := by decide +kernel

/-! ### Witnesses: sparing, keys, the tier -/

/-- Subchannel 0 counts, tests itself, has 4 spare rows; entry 1 is valid and names row 0 of bank 0. -/
def protDev : Dev :=
  let d : Dev := { reqDev with cfg := reqDev.cfg ++ section_ Sec.protect [(4, 1), (0x0A, 1), (0x0C, 4)] }
  d.setReg (A.remap 0 1) (put 0 47 1 1)

/-- A fill of subchannel 0 whose last write is loaded. -/
def fillState : State := withDev (protDev.modProt 0 (fun x => { x with filling := true, fillP := 2 ^ 34 }))

theorem witness_Sparing : (withDev protDev).dev.live = true ∧ protDev.protCfg 0 4 4 ≠ 0 ∧ protDev.protCfg 0 0x0A 2 ≠ 0 ∧
    bit (0x1C : Word) 4 = true ∧ fld (0x1C : Word) 0 4 ≤ 12 ∧ (protDev.prots[0]).dead.getLsbD (fld (0x1C : Word) 0 4) = false ∧
    ((withDev (protDev.modProt 0 (fun x => { x with fillDue := true }))).dev.prots[0]).fillDue = true ∧
    (∀ t ∈ subTiles 0, protDev.present t = true → protDev.ready t = true) ∧
    fillState.dev.calm ∧ (fillState.dev.prots[0]).fillWritten = true ∧
    ((after (exec (.declare .hub 0 0x1C) (withDev protDev))).dev.prots[0]).dead.getLsbD 12 = true ∧
    (after (exec (.deadWindowEnd 0) (withDev (protDev.setReg (A.symcnt 0 12) 9)))).dev.fldR (A.symcnt 0 12) 0 16 = 0 ∧
    (after (exec (.injectArm .hub 0 (put 0 24 1 1)) (withDev protDev))).dev.fldR (A.inject 0) 24 1 = 1 ∧
    ((after (exec (.fillDone 0) fillState)).dev.prots[0]).filling = false := by
  unfold Dev.calm; decide +kernel

/-- Subchannel 0's fill has started. -/
def filledState : State := after (exec (.fill 0) (withDev (protDev.modProt 0 (fun x => { x with fillDue := true }))))

/-- R216: in the port's cycles the fill puts location 0 into the write queue as poison; requests wait until it has ended. -/
theorem test_fill_writes_poison :
    (filledState.dev.prots[0]).filling = true ∧ filledState.dev.fillHolds 0 = true ∧
    (((after (exec (.schedPick 0 1) filledState)).dev.ports[0]).wrq.map (fun (w : WrEnt) => (locRow w.loc, locCol w.loc, w.poison)))
      = [(0, 0, true)] := by decide +kernel

/-- Table 11.4: a dead p12 of subchannel 0 gives a SPARING record, event DEAD, COORD 0x2180. -/
theorem test_dead_position_is_recorded :
    ((after (exec (.declare .hub 0 0x1C) (withDev protDev))).dev.sill.queue.any (fun r =>
      r.extractLsb' 72 8 = 10 && r.extractLsb' 56 16 = 0x2180 && r.extractLsb' 0 48 = 1)) = true := by decide +kernel

/-- A record body under way; PWRFAIL_N is high, or low. -/
def journalState (high : Bool) : State :=
  withDev { devOn with
    journal := { busy := true, dirty := false, eraseDue := false, image := List.replicate 0x20C0 0 },
    pins := { devOn.pins with pwrfailN := high } }

theorem witness_Journal (high : Bool) : (journalState high).dev.live = true ∧ (journalState high).dev.journal.busy = true ∧
    (journalState high).dev.journal.dirty = false ∧ (journalState high).dev.journal.image.length = 0x20C0 ∧
    (journalState high).dev.pins.pwrfailN = high :=
  ⟨rfl, rfl, rfl, List.length_replicate, rfl⟩

def rowOpOf (k : BitVec 3) : RowOp := { kind := k, v := put 0 39 7 1, waiting := false, sent := false }

/-- A row command of kind `k` on entry 1 of subchannel 0 is under way. -/
def rowState (k : BitVec 3) : State := withDev (protDev.modProt 0 (fun x => { x with rowOp := some (rowOpOf k) }))

/-- The job that has copied the last column of a row. -/
def rowJob : Job :=
  { id := 0, kind := .row 0, e := none, note := 15, master := 0, page := none, lines := [], left := 0, worst := 0 }

/-- A row move, or return, whose column 127 is copied. -/
def copiedState (k : BitVec 3) : State :=
  withDev ({ (rowState k).dev with jobs := [rowJob] }.setReg (A.remap 0 1) (put (put (0 : Word) 46 1 1) 7 7 127))

/-- Tile 0 has both kinds of PPR, and is in service or not. -/
def pprState (ready : Nat) : State :=
  withDev ({ protDev with cfg := section_ Sec.population [(0x20, 1), (0x21, 1), (0x22, 1), (0x23, 1), (0x24, 0x60)] }.setFld
    (A.dlyState 0) 0 1 ready)

/-- MOVE of row 7 to spare row 1 by entry 0. -/
def moveV : Word := put (put 0 13 18 7) 7 6 1

theorem witness_RowCommands_takes : protDev.takes (rowOpLoc 0 moveV 0) 15 := by
  unfold Dev.takes Dev.calm; decide +kernel
theorem witness_RowCommands_takes_return :
    protDev.takes (mkLoc (subPort 0).val 0 0 0 (fld (protDev.reg (A.remap 0 1)) 20 18) 0 0 0) 15 := by
  unfold Dev.takes Dev.calm; decide +kernel

theorem witness_RowCommands : (withDev protDev).dev.live = true ∧ (protDev.prots[0]).rowOp = none ∧ protDev.subFenced 0 = false ∧
    (protDev.prots[0]).rebuild = false ∧ protDev.moveRejected 0 (put moveV 46 2 1) = false ∧ protDev.rst.step = 0 ∧
    protDev.moveRejected 0 (put (put 0 39 7 1) 46 2 1) = true ∧
    entValid (protDev.reg (A.remap 0 (fld (put (0 : Word) 39 7 1) 39 7))) = true ∧
    ((rowState 3).dev.prots[0]).rowOp = some (rowOpOf 3) ∧ (rowState 3).dev.caOpen 0 = true ∧
    ((copiedState 2).dev.prots[0]).rowOp = some (rowOpOf 2) ∧ (copiedState 2).dev.txn.held = [] ∧
    (copiedState 2).dev.tier.ops = [] ∧ (copiedState 2).dev.jobs = [rowJob] ∧
    (copiedState 2).dev.fldR (A.remap 0 (fld (rowOpOf 2).v 39 7)) 7 7 = 127 ∧
    ((after (exec (.remapMove .hub 0 moveV) (withDev protDev))).dev.prots[0]).rowOp.isSome = true ∧
    (after (exec (.remapReturn .hub 0 (put 0 39 7 1)) (withDev protDev))).dev.fldR (A.remapCmd 0) 6 1 = 1 ∧
    entValid ((after (exec (.remapDone 0) (copiedState 2))).dev.reg (A.remap 0 1)) = false ∧
    entValid ((after (exec (.remapDone 0) (copiedState 1))).dev.reg (A.remap 0 1)) = true := by decide +kernel

theorem witness_RowCommands_ppr :
    (pprState 1).dev.feature 0 5 = true ∧ (pprState 1).dev.feature 0 6 = true ∧ (pprState 0).dev.ready 0 = false ∧
    (pprState 1).dev.ready 0 = true ∧ (pprState 1).dev.pprNames 0 0 ∧ (pprState 1).dev.calm ∧ (pprState 0).dev.calm ∧
    (after (exec (.softPpr .hub 0 0) (pprState 1))).dev.fldR (A.ppr 0) 18 1 = 1 ∧
    (after (exec (.hardPpr .hub 0 0) (pprState 0))).dev.fldR (A.ppr 0) 18 1 = 1 ∧
    (after (exec (.hardPpr .hub 0 0) (pprState 1))).dev.fldR (A.ppr 0) 16 2 = 2 ∧
    (after (exec (.pprDone 0) (rowState 4))).dev.fldR (A.ppr 0) 16 2 = 1 := by
  unfold Dev.pprNames Dev.calm; decide +kernel

/-- A part whose KWK is 5 loads slot 31, which is empty or not. -/
def keyState (data : Vector Word 8) (filled : Bool) : State :=
  let c : Crypt := { Crypt.empty with busy := some 31, keyData := data }
  { withDev { devOn with crypt := { c with slots := c.slots.set 31 (if filled then some 1 else none) } } with
    fuses := { Fuses.blank with kwk := 5 } }

/-- The wrapped key whose first block is `wrapCheck 31` under KWK 5, other ciphertext blocks zero. -/
def wrapped31 : Vector Word 8 := #v[0xffb1610de867, 0x827b56de7d81, 0x797d92c, 0x0, 0x0, 0x0, 0x0, 0x0]

theorem witness_Keys : (withDev devOn).dev.live = true ∧ Fuses.blank.state ≠ 4 ∧ devOn.crypt.busy = none ∧
    (keyState wrapped31 false).dev.crypt.busy = some 31 ∧ (keyState wrapped31 false).fuses.kwkOk = true ∧
    unwrapBlock 5 (keyState wrapped31 false).dev.crypt.wrapped 0 = wrapCheck 31 ∧
    ({ keyState wrapped31 false with fuses := Fuses.blank }).fuses.kwkOk = false ∧
    ((keyState wrapped31 true).dev.crypt.slots[31]?.join).isSome = true ∧
    (keyState wrapped31 false).dev.crypt.slots[31]?.join = none ∧
    (after (exec .keyLoadDone { keyState wrapped31 false with fuses := Fuses.blank })).dev.fldR A.keyCmd 32 3 = 2 ∧
    (after (exec (.keyLoad .hub (put 0 36 5 31)) (withDev devOn))).dev.crypt.busy = some 31 ∧
    (after (exec (.keyClear .hub (put 0 36 5 31)) (keyState wrapped31 true))).dev.crypt.slots[31] = some 1 ∧
    (after (exec (.keyClear .hub (put 0 36 5 31)) (withDev devOn))).dev.fldR A.keyCmd 32 3 = 1 := by
  decide +kernel

/-- Region 0 is encrypted and does not rotate. -/
def encDev : Dev := { devOn with cfg := section_ Sec.regions [(0x0A, 1), (0x10, 1), (0x11, 0x80)] }

theorem witness_Rotation : regionUsed encDev.cfg 0 = true ∧ regionEnc encDev.cfg 0 = true ∧ encDev.rotating 0 = false ∧
    fld (1 : Word) 0 32 ≠ encDev.fldR (A.epoch 0) 0 32 ∧
    (after (exec (.rotationStart .hub 1) (withDev encDev))).dev.rotating 0 = true ∧
    (after (exec (.rotationStart .hub 1) (withDev devOn))).dev.fldR A.rotCmd 46 1 = 1 := by decide +kernel

/-- One tier access of page 3 by `op`, in phase `ph`. -/
def tierOp (op : Op) (ph : TierPhase) (oldEntry : BitVec 128) (mv : Option (Fin 4)) : TierOp :=
  { id := 0, idx := 3, unit := 0, h := mkHeld .q (req 7 1) op none 0 0, phase := ph, claim := false, got := [], want := 0,
    copies := 0, wleft := 0, readers := [], gotCorr := false, gotFwd := false, newEntry := 0, oldEntry := oldEntry, staged := [],
    early := false, st := .ok, oldW := 0, late := false, placed := true, move := mv }

/-- Page 3's entry is in the page map cache as it stands, or is not. -/
def tierState (o : TierOp) (entry : Option (BitVec 128)) (pool : List (Nat × Blk)) (mv : Option Move) : State :=
  let d := (reqDev.modTxn (fun x => { x with track := tracked .q 7 })).modTier (fun t =>
    { t with ops := [o], pool := pool, moves := t.moves.set 0 mv })
  withDev (match entry with
    | some e => d.pmcWrite 3 e
    | none => d)

/-- A TIER page of one granule at the pool's first line. -/
def tierEnt : BitVec 128 := mkEnt 2 0 0 0 0 8

/-- A read of page 3 waits for its entry; the line of the page map table has been read, all zeros. -/
def missState : State :=
  withDev ((tierState (tierOp .rd .waitEntry 0 none) none [] none).dev.modTier (fun t => { t with loaded := [(3, some 0)] }))

theorem witness_TierAccess_miss : missState.dev.live = true ∧ missState.dev.txn.held = [] ∧ missState.dev.jobs = [] ∧
    (tierOp .rd .waitEntry 0 none).h.who = .hub 7 3 ∧ missState.dev.tier.initWait = false ∧ missState.dev.powerOpen = true ∧
    missState.dev.pmcGet 3 = none ∧
    (missState.dev.tier.pmc.filter (fun x => x.1 % 8192 = (3 : BitVec 32).toNat % 8192)).length < 8 ∧
    missState.dev.tracksOnly .q 7 ∧ kvGet missState.dev.tier.loaded 3 = some (some 0) ∧
    entState ((0 : Line).extractLsb' (8 * missState.dev.pmtByte 3) 128) = 0 ∧
    (after (exec (.pmcMissFill 3 ()) missState)).dev.txn.outP.length = 1 := by
  unfold Dev.tracksOnly; decide +kernel

theorem witness_TierAccess_write :
    (tierState (tierOp (.wr 9) .reading 0 none) (some 0) [] none).dev.queuesEmpty ∧
    (tierState (tierOp (.wr 9) .reading 0 none) (some 0) [] none).dev.live = true ∧
    (tierState (tierOp (.wr 9) .reading 0 none) (some 0) [] none).dev.jobs = [] ∧
    (tierState (tierOp (.wr 9) .reading 0 none) (some 0) [] none).dev.txn.held = [] ∧
    (tierOp (.wr 9) .reading 0 none).gotAll = true ∧ entState (tierOp (.wr 9) .reading 0 none).oldEntry ≠ 2 ∧
    ((tierState (tierOp (.wr 9) .writing 0 none) (some 0) [] none).dev.pmcGet 3).isSome = true ∧
    (after (exec (.tierWriteMerge 3 ()) (tierState (tierOp (.wr 9) .reading 0 none) (some 0) [] none))).dev.tier.ops.map
      (fun o => o.staged.take 2) = [[some 0, some 9]] ∧
    (after (exec (.tierEntrySwitch 3) (tierState (tierOp (.wr 9) .writing 0 none) (some 0) [] none))).dev.tier.ops = [] := by
  unfold Dev.queuesEmpty; decide +kernel

theorem witness_TierAccess_free :
    entState tierEnt = 2 ∧ entGranules tierEnt = 1 ∧ (tierOp .rd .switched tierEnt none).readers = [] ∧
    (tierState (tierOp .rd .switched tierEnt none) none [(0, .tier 3)] none).dev.poolPlace (entPtr tierEnt) = (0, 0) ∧
    kvGet (tierState (tierOp .rd .switched tierEnt none) none [(0, .tier 1)] none).dev.tier.pool 0 = some (.tier 1) ∧
    kvGet (after (exec (.granuleFree 3) (tierState (tierOp .rd .switched tierEnt none) none [(0, .tier 1)] none))).dev.tier.pool 0 = none ∧
    kvGet (after (exec (.granuleFree 3) (tierState (tierOp .rd .switched tierEnt none) none [(0, .tier 3)] none))).dev.tier.pool 0 =
      some (.tier 2) := by decide +kernel

/-- R244: an entry does not change while a line of the new extent is still to load. -/
theorem test_tierSwitch_waits :
    (after (exec (.tierEntrySwitch 3) (tierState { tierOp (.wr 9) .writing 0 none with wleft := 1 } (some 0) [] none))).dev.tier.ops.length = 1 ∧
    (after (exec (.granuleFree 3) (tierState { tierOp .rd .switched tierEnt none with readers := [0] } none [(0, .tier 1)] none))).dev.tier.ops.length
      = 1 := by decide +kernel

/-- The tier waits for the end of its table's writing. -/
def initState : State := withDev (devOn.modTier (fun t => { t with initWait := true, initP := 1 }))

theorem witness_TierInit : initState.dev.live = true ∧ initState.dev.calm ∧ initState.dev.tierInitOver = true ∧
    (after (exec .tierInitDone initState)).dev.tier.initWait = false := by
  unfold Dev.calm; decide +kernel

/-- Mover 0 runs a PROMOTE of page 3 that has written its lines. -/
def moveState : State := tierState (tierOp .rd .writing 0 (some 0)) (some tierEnt) [] (some { op := 1, idx := 3 })

theorem witness_Moves : (withDev devOn).dev.live = true ∧ moveOf (.promote .hub 3 3) = some (.hub, 3, 3, 1) ∧
    bit (devOn.reg (A.moveCmd 3)) 43 = false ∧ bit ((devOn.setFld (A.moveCmd 3) 43 1 1).reg (A.moveCmd 3)) 43 = true ∧
    devOn.tier.ops = [] ∧ devOn.jobs = [] ∧ devOn.txn.held = [] ∧ devOn.pmcGet 3 = none ∧ moveState.dev.txn.held = [] ∧
    moveState.dev.jobs = [] ∧ moveState.dev.tier.ops = [tierOp .rd .writing 0 (some 0)] ∧
    (moveState.dev.pmcGet 3).isSome = true ∧ moveState.dev.throttled = false ∧
    (moveState.dev.setFld A.therm 18 2 2).throttled = true ∧
    (after (exec (.moveDone 0 ()) moveState)).dev.tier.moves[0] = none ∧
    (after (exec (.promote .hub 3 3) (withDev devOn))).dev.tier.moves[3] = some { op := 1, idx := 3 } := by decide +kernel

/-! ### Witnesses: faults, resets, power -/

/-- The source 161 has BASE 3 and FULL; the others are masked; escalation is off. -/
def faultDev : Dev := (devOn.setFld (A.srcCfg 161) 0 3 3).setFld (A.srcCfg 161) 6 1 1

def report1 : Report := { event := 1, addr := 0, akind := 0, coord := 0, master := none, access := 0 }

theorem witness_Faults : (withDev faultDev).dev.live = true ∧ fixedSev 161 1 = none ∧ (devOn.setFld (A.srcCfg 77) 0 3 0).srcBase 77 = 0 ∧
    faultDev.srcBase 161 = 3 ∧ faultDev.srcCount 161 = 0 ∧ faultDev.escMask 161 = false ∧ (faultDev.srcAt 161).pend = false ∧
    (faultDev.srcAt 161).sev = 0 ∧ faultDev.srcFull 161 = true ∧ faultDev.flt.first = none ∧
    (faultDev.srcAt 161).pathBad = false ∧
    ((after (exec (.path 161) (withDev faultDev))).dev.srcAt 161).pathBad = true ∧
    (faultDev.flt.src.any (fun x => x.2.differs)) = false ∧
    ((withDev { faultDev with flt := { FaultState.clear with src := [(5, { Src.quiet with pendA := true })] } }).dev.flt.src.any
      (fun x => x.2.differs)) = true ∧
    wedgedEvent 127 = some 2 ∧ (faultDev.srcAt 127).sev < 4 ∧
    ({ faultDev with cfg := section_ Sec.faults [(4, 1)] }).cfgLe Sec.faults 4 4 ≠ 0 ∧
    (after (exec (.faultOccurrence 161 report1 false true true) (withDev faultDev))).dev.fldR A.attn 9 1 = 1 ∧
    (after (exec (.faultOccurrence 161 report1 false true true) (withDev faultDev))).dev.fldR A.first 0 8 = 161 ∧
    ((after (exec .disagree (withDev { faultDev with flt := { FaultState.clear with
      src := [(5, { Src.quiet with pendA := true })] } }))).dev.srcAt 160).pend = true ∧
    (after (exec (.wedged 127) (withDev { faultDev with cfg := section_ Sec.faults [(4, 1)] }))).dev.fldR A.attn 10 1 = 1 := by
  decide +kernel

/-- R271: an uncorrectable ECC error of engine 5's memories fences it with cause 2 though source 5 is masked. -/
theorem witness_Faults_ecc : (devOn.setFld (A.srcCfg 5) 0 3 0).srcBase 5 = 0 ∧ fixedSev 5 5 = none ∧
    ((after (exec (.faultOccurrence 5 { report1 with event := 5 } false true true)
      (withDev (devOn.setFld (A.srcCfg 5) 0 3 0)))).dev.engs[5]).fenceCause = 2 := by decide +kernel

/-- R280: a level source that is there already reports nothing more. -/
theorem test_level_once :
    let one := after (exec (.faultOccurrence 161 report1 true true true) (withDev faultDev))
    (one.dev.srcAt 161).count = 1 ∧
    ((after (exec (.faultOccurrence 161 report1 true true true) one)).dev.srcAt 161).count = 1 := by decide +kernel

/-- Source 47 is pending and gone; source 5 counts in a window. -/
def pendState : State :=
  withDev { devOn with flt := { FaultState.clear with
    src := [(5, { Src.quiet with window := true, wcount := 3 }), (47, { Src.quiet with pendA := true, pendB := true })] } }

theorem witness_FaultsEnd : pendState.dev.live = true ∧ (pendState.dev.srcAt 5).window = true ∧
    (∀ b, b < 48 → bit (put (0 : Word) 47 1 1) b = true → (pendState.dev.srcAt (48 * 0 + b)).pres = false) ∧
    bit (0x100 : Word) 8 = true ∧
    ((after (exec (.pendingClear .hub 0 (put 0 47 1 1)) pendState)).dev.srcAt 47).pend = false ∧
    ((after (exec (.faultWindowEnd 5) pendState)).dev.srcAt 5).wcount = 0 ∧
    ((after (exec (.sourceQuiet 5) pendState)).dev.srcAt 5).wcount = 3 := by decide +kernel

/-- A record waits; the ring stands at its last place. -/
def sillState (frozen : Bool) (time : Word) : State :=
  withDev { devOn with sill := { Sill.empty with queue := [sillRec 5 12 0 0 0], next := 4095, frozen := frozen, time := time } }

theorem witness_Sillage : (sillState false 0).dev.on = true ∧ (sillState false 0).dev.sill.frozen = false ∧
    (sillState false 0).dev.sill.lostNow = 0 ∧ (sillState false 0).dev.sill.time + 1 ≠ 0 ∧
    slotField (sillRec 5 12 0 0 0) 79 72 ≠ 11 ∧ (sillState false (~~~ 0)).dev.sill.time = ~~~ 0 ∧
    (sillState false (~~~ 0)).dev.sill.queue.length < 32 ∧
    (after (exec .sillageWrite (sillState false 0))).dev.sill.next = 0 ∧
    (after (exec .sillageWrite (sillState true 0))).dev.sill.queue.length = 1 ∧
    (after (exec .timewrap (sillState false (~~~ 0)))).dev.sill.queue.length = 2 ∧
    (after (exec (.sillageResume .hub 0) (sillState true 0))).dev.sill.frozen = false := by decide +kernel

def pinsUp (up : Bool) : Pins := { Pins.rest with resetN := up }

/-- The block in a power state, with the link up. -/
def pwrDev (state : Nat) : Dev := ({ reqDev with pins := pinsUp true }).setFld A.pwrStatus 0 4 state

/-- Step `k` of a full reset. -/
def rstState (k : Nat) (up : Bool) : State := withDev { pwrDev 0 with rst := { Rst.none with step := k }, pins := pinsUp up }

theorem witness_FullResetStarts : resetBy (withDev (pwrDev 0)) .resetNFall = some 1 ∧
    resetBy (withDev (pwrDev 0)) (.fullReset 0x5A3C) = some 2 ∧
    resetBy (rstState 4 true) (.identFullReset .hub 0x5A3C) = some 3 ∧ (pwrDev 0).rst.step = 0 ∧ (pwrDev 0).pwrState = 0 ∧
    (pwrDev 3).pwrState = 3 ∧ (pwrDev 2).pwrState = 2 ∧
    (after (exec .resetNFall (withDev (pwrDev 0)))).dev.rst.step = 2 ∧
    (after (exec (.fullReset 0x5A3C) (withDev (pwrDev 0)))).dev.fldR A.reset 5 3 = 2 ∧
    (after (exec .resetNFall (rstState 1 true))).dev.rst.step = 1 ∧
    (after (exec .resetNFall (withDev (pwrDev 3)))).dev.pwr.wakeStep = 1 := by decide +kernel

/-- Step 4 held by RESET_N. -/
def heldReset : State := withDev { pwrDev 0 with rst := { Rst.none with step := 4, waitRise := true }, pins := pinsUp false }

theorem witness_FullResetSteps : (rstState 2 true).dev.live = true ∧ (rstState 2 true).dev.pwr.toReset = false ∧
    (rstState 2 true).dev.drained [] = true ∧
    (withDev { (schedWrite none).dev with rst := { Rst.none with step := 2 } }).dev.drained [] = false ∧
    (rstState 3 true).dev.rst.step = 3 ∧ ((rstState 3 true).dev.tiles[0]).powered = true ∧
    ((rstState 3 true).dev.tiles[0]).inSr = false ∧ (rstState 4 true).dev.rst.waitRise = false ∧
    (rstState 4 true).dev.pins.resetN = true ∧ (rstState 4 false).dev.pins.resetN = false ∧ heldReset.dev.rst.waitRise = true ∧
    (after (exec (.drainEnd []) (rstState 2 true))).dev.fldR A.reset 0 1 = 1 ∧
    (after (exec .drainTimeout (rstState 2 true))).dev.rst.step = 3 ∧
    (after (exec (.coreResetEnd 1) (rstState 4 true))).dev.rst.step = 5 ∧
    (after (exec (.coreResetEnd 1) (rstState 4 false))).dev.rst.waitRise = true ∧
    (after (exec (.resetNRise 1) heldReset)).dev.rst.step = 5 := by decide +kernel

theorem witness_Supplies : State.reset.dev.on = false ∧ (withDev (pwrDev 0)).dev.on = true ∧
    (withDev (pwrDev 0)).dev.pins.pwrfailN = true ∧ (withDev (pwrDev 0)).dev.journal.busy = false ∧
    (withDev (pwrDev 0)).dev.side.flashOp = none ∧
    (after (exec .pwrfail (withDev (pwrDev 0)))).dev.pins.pwrfailN = false ∧
    (after (exec .thermtrip (withDev (pwrDev 0)))).dev.live = false := by decide +kernel

/-- An erase is under way. -/
def eraseState : State := withDev { pwrDev 0 with side := { Side.idle with flashOp := some (1, 0x1000, 0) } }

theorem witness_Supplies_erase : eraseState.dev.pins.pwrfailN = true ∧ eraseState.dev.journal.busy = false ∧
    eraseState.dev.side.flashOp = some (1, 0x1000, 0) := by decide

/-- PWRFAIL_N is low, an erase of the journal waits. -/
def riseState : State := withDev { pwrDev 0 with
  journal := { busy := false, dirty := false, eraseDue := true, image := [] }, pins := { Pins.rest with pwrfailN := false } }

theorem witness_Supplies_rise : riseState.dev.live = true ∧ riseState.dev.journal.busy = false ∧
    (after (exec .pwrfailRise riseState)).dev.pins.pwrfailN = true ∧
    (after (exec .pwrfailRise riseState)).dev.journal.eraseDue = false ∧
    (after (exec .powerLoss (withDev (pwrDev 0)))).dev.on = false := by decide +kernel

/-- P1, P2 and P3 are permitted; the poll has a time limit. -/
def permDev : Dev :=
  { pwrDev 0 with cfg := (pwrDev 0).cfg ++ section_ Sec.power ((List.range 8).map (fun i => (i, 0xFF))) }

theorem witness_PowerEntries : permDev.live = true ∧ permDev.steadyP0 ∧ entryOf (.enterP1 .hub) = some (.hub, 1) ∧
    (pwrDev 0).permits 1 = false ∧ permDev.permits 3 = true ∧ permDev.flt.fatal = false ∧ permDev.noAccord = false ∧
    ({ permDev with journal := { permDev.journal with busy := true } }).journal.busy = true ∧ permDev.journal.busy = false ∧
    permDev.cgBusy = false ∧ permDev.pollUs ≠ 0 ∧ (∀ m ∈ permDev.txn.rx, m.vc ≠ .k) ∧
    (after (exec (.enterP1 .hub) (withDev (pwrDev 0)))).dev.fldR A.pwrStatus 12 4 = 3 ∧
    (after (exec (.enterP2 .hub) (withDev { permDev with journal := { permDev.journal with busy := true } }))).dev.fldR
      A.pwrStatus 12 4 = 4 ∧
    (after (exec (.enterP1 .hub) (withDev permDev))).dev.pwrPhase = 1 := by
  unfold Dev.steadyP0; decide +kernel

/-- The entry to P1 polls block `k`; a kernel request in the receive buffer makes the engines refuse. -/
def pollState (k : Nat) (refuse : Bool) : State :=
  let d := ((after (exec (.enterP1 .hub) (withDev permDev))).dev).modTxn (fun x =>
    { x with rx := if refuse then [{ vc := .k, tag := 1, slots := [] }] else [] })
  withDev { d with pwr := { d.pwr with poll := k } }

theorem witness_PowerPolls : (pollState 0 false).dev.live = true ∧ (pollState 4 false).dev.pwrPhase = 1 ∧
    (pollState 4 false).dev.pwr.poll ≤ 4 ∧ (pollState 0 true).dev.pollRefuse 0 = true ∧ (pollState 0 false).dev.pollRefuse 0 = false ∧
    (pollState 0 false).dev.pollReady 1 0 = true ∧ (pollState 0 false).dev.pollRefuse 1 = false ∧
    (pollState 4 false).dev.pollRefuse 4 = false ∧ (pollState 4 false).dev.pollReady 1 4 = true ∧
    (pollState 4 false).dev.pwr.latched = 0 ∧ (pollState 4 false).dev.pwrTarget = 1 ∧ (pollState 4 false).dev.calm ∧
    (withDev { (pollState 0 false).dev with kq := [inv1] }).dev.pollReady 1 0 = false ∧
    (after (exec .blockAgree (pollState 0 true))).dev.fldR A.pwrStatus 16 3 = 1 ∧
    (after (exec .blockAgree (pollState 0 false))).dev.pwr.poll = 1 ∧
    (after (exec .blockAgree (pollState 4 false))).dev.pwrState = 1 ∧
    (after (exec .pollTimeout (pollState 4 false))).dev.fldR A.refusals 32 8 = 1 := by
  unfold Dev.calm; decide +kernel

/-- A wake from P3 at step `k`. -/
def wakeState (k : Nat) : State :=
  let d := (pwrDev 3).setFld A.pwrStatus 4 4 3
  withDev { d with pwr := { d.pwr with wakeStep := k } }

theorem witness_Wakes : (withDev (pwrDev 0)).dev.live = true ∧ (pwrDev 1).pwrPhase = 0 ∧ (pwrDev 3).pwrState = 3 ∧
    wakeOf (pwrDev 1) .krxSignalWake = some 1 ∧
    wakeOf { pwrDev 3 with pwr := { Pwr.p0 with timerOn := true } } .wakeTimer = some 2 ∧
    wakeOf (pwrDev 3) .wakeNFall = some 0 ∧ (pollState 0 false).dev.pwrPhase = 1 ∧ (wakeState 1).dev.pwrPhase = 3 ∧
    (wakeState 1).dev.pwr.wakeStep ≠ 0 ∧ (wakeState 1).dev.wakeStepDone = true ∧ (wakeState 1).dev.pwr.toReset = false ∧
    (wakeState 7).dev.pwr.wakeStep ≤ 7 ∧
    (after (exec .wakeNFall (withDev (pwrDev 3)))).dev.pwr.wakeStep = 1 ∧
    (after (exec .krxSignalWake (withDev (pwrDev 1)))).dev.pwr.wakeEvents = 2 ∧
    (after (exec .wakeNFall (pollState 0 false))).dev.pwr.latched = 1 ∧
    (after (exec (.wakeStepEnd true) (wakeState 1))).dev.pwr.wakeStep = 2 := by decide +kernel

theorem witness_Wakes_fail : 1 ≤ (wakeState 7).dev.pwr.wakeStep ∧ (wakeState 7).dev.pwr.toReset = false ∧
    (after (exec .wakeFail (wakeState 2))).dev.rst.step = 4 := by decide +kernel

/-- THROTTLE is 182; level `lvl`, the die at `temp`. -/
def thermState (lvl temp : Nat) : State :=
  withDev (({ pwrDev 0 with cfg := section_ Sec.clock [(1, 182)] }.setFld A.therm 18 2 lvl).setFld A.therm 32 8 temp)

def temps (v : Byte) : List Byte := [100, 100, 100, 100, 100, 100, 100, v]

theorem witness_Thermal : (thermState 0 0).dev.live = true ∧ (∀ k, k < 8 → sensorOf (temps 189) k ≤ 189) ∧
    (thermState 0 0).dev.applied = true ∧ (thermState 0 0).dev.pwrState = 0 ∧ (thermState 0 0).dev.throttleAt = 182 ∧
    (thermState 2 183).dev.fldR A.therm 18 2 = 2 ∧ (thermState 2 183).dev.dieTemp + 3 ≤ 182 + 4 ∧
    (after (exec (.sensorRead (temps 186)) (thermState 0 0))).dev.fldR A.therm 18 2 = 2 ∧
    (after (exec (.sensorRead (temps 182)) (thermState 0 0))).dev.fldR A.attn 6 1 = 1 ∧
    (after (exec (.sensorRead (temps 189)) (thermState 0 0))).dev.fldR A.therm 21 3 = 7 ∧
    (after (exec .throttleStepDown (thermState 2 183))).dev.fldR A.therm 18 2 = 1 ∧
    (after (exec .throttleStepDown (thermState 2 184))).dev.fldR A.therm 18 2 = 2 := by decide +kernel

/-! ### Witnesses: the Accord -/

/-- A load attempt: from the flash's first or second slot, or a push. -/
def loadState (src : BitVec 3) (second : Bool) (v : Option Verdict) : State :=
  let l : Loader := { Loader.idle with active := true, src := src, second := second }
  withDev { pwrDev 0 with applied := false, loader := { l with verdict := v, pushOpen := decide (src ≠ 1) } }

/-- The loader waits for a push; I3C has its address. -/
def waitPush : State :=
  withDev ({ pwrDev 0 with applied := false, noAccord := true, side := { Side.idle with i3cAddr := some 8 } })

theorem witness_LoadAttempts : (loadState 1 false (some (.fail 1))).dev.live = true ∧
    (loadState 1 false (some (.fail 1))).dev.loader.active = true ∧ (1 : BitVec 8) ∉ [(5 : BitVec 8), 6, 9] ∧
    (loadState 1 true (some (.fail 1))).dev.loader.second = true ∧ (loadState 2 false none).dev.loader.pushOpen = true ∧
    (loadState 2 false none).dev.loader.verdict = none ∧ waitPush.dev.pushReady = true ∧ waitPush.dev.i3cOn = true ∧
    waitPush.dev.noAccord = true ∧ bit (1 : Word) 0 = true ∧
    (after (exec .accordLoadFail (loadState 1 true (some (.fail 1))))).dev.noAccord = true ∧
    (after (exec .flashTimeout (loadState 1 true none))).dev.fldR A.accStatus 40 8 = 16 ∧
    (after (exec .sourceTimeout (loadState 2 false none))).dev.fldR A.accStatus 32 8 = 16 ∧
    (after (exec (.pushStart .hub 1) waitPush)).dev.loader.src = 2 ∧
    (after (exec .i3cPushOpen waitPush)).dev.loader.src = 3 ∧
    (after (exec (.pushData .hub 0x0605) (loadState 2 false none))).dev.loader.push = [5, 6, 0, 0, 0, 0] := by decide +kernel

/-- A tile that the Accord removed is still powered, in self-refresh; tile 0's RAMP runs. -/
def rampState : State :=
  withDev (({ pwrDev 0 with loader := { Loader.idle with active := true, src := 1, verdict := some (.ok [] 7 9) } }.modTile 1
    (fun x => { x with powered := true, inSr := true })).modTile 0 (fun x => { x with ramping := true }))

theorem witness_AccordApplies : rampState.dev.live = true ∧ rampState.dev.loader.active = true ∧
    rampState.dev.loader.verdict = some (.ok [] 7 9) ∧ rampState.dev.applied = true ∧ rampState.dev.present 1 = false ∧
    (rampState.dev.tiles[1]).powered = true ∧ (rampState.dev.tiles[1]).inSr = true ∧ rampState.dev.calm ∧
    (rampState.dev.tiles[0]).ramping = true ∧ (rampState.dev.tiles[1]).ramping = false ∧
    ((after (exec (.tileRemovePowerOff 1) rampState)).dev.tiles[1]).powered = false ∧
    ((after (exec (.tileRampDone 0) rampState)).dev.tiles[0]).hot = true := by
  unfold Dev.calm; decide +kernel

/-- Tiles 0 and 1 ramp, their DRAM still in reset: tile 0 waits for tile 1 (R176). -/
def rampTwo : State := withDev ((rampState.dev).modTile 1 (fun x => { x with ramping := true }))

theorem witness_AccordApplies_waits : rampTwo.dev.live = true ∧ (rampTwo.dev.tiles[0]).ramping = true ∧
    rampTwo.dev.pins.dramResetN.getLsbD 0 = false ∧ (1 : Fin 16) ∈ portTiles (tilePort 0) ∧ (rampTwo.dev.tiles[1]).ramping = true ∧
    (rampTwo.dev.tiles[1]).ramped = false ∧
    ((after (exec (.tileRampDone 0) rampTwo)).dev.tiles[0]).ramping = true ∧
    ((after (exec (.tileRampDone 1) (after (exec (.tileRampDone 0) rampTwo)))).dev.tiles[0]).ramping = false := by decide +kernel

/-- BOOTSEL is 01: the loader waits for the hub's push. -/
def waitHub : State := withDev ({ pwrDev 0 with
  applied := false, loader := { Loader.idle with active := true, src := 2 } }.setFld A.lc 4 2 1)

theorem witness_LoadAttempts_bootsel : waitHub.dev.live = true ∧ waitHub.dev.pushReady = true ∧ waitHub.dev.bootsel = 1 ∧
    waitHub.fuses.noLoad = false ∧ (after (exec (.pushStart .hub 1) waitHub)).dev.loader.pushOpen = true := by decide +kernel

/-- WMARK of port 0 has a shadow that is open, or pending. -/
def cgState (opened pend : BitVec 16) : State :=
  let g : CgGroup := { CgGroup.following with opened := opened, pend := pend }
  withDev ({ pwrDev 0 with shadow := [(A.wmark 0, 0x20001)], cg := (pwrDev 0).cg.set 2 g }.setFld A.accStatus 20 4 2)

def wm : BitVec 24 := BitVec.ofNat 24 (A.wmark 0)

theorem witness_CommitGroups : (cgState 1 0).dev.live = true ∧ (regSpec wm.toNat).isSome = true ∧
    (regSpec wm.toNat).any (fun sp => sp.cg ≠ 0 && sp.inst < 16 && sp.grp = 2) = true ∧
    ((cgState 0 1).dev.cg[2]).isPend 0 = true ∧ ((cgState 1 0).dev.cg[2]).isPend 0 = false ∧
    (cgState 1 0).dev.fldR A.accStatus 20 4 = 2 ∧ fld (0x302 : Word) 0 8 = 2 ∧ fld (0x302 : Word) 8 7 < groupSize 2 ∧
    bit (0x302 : Word) 15 = false ∧ ((cgState 1 0).dev.cg[2]).isOpen 0 = true ∧ ((cgState 1 0).dev.cg[2]).isOpen 3 = false ∧
    (cgState 0 1).dev.cgPaused 2 0 = false ∧ (cgState 0 1).dev.cgBoundary 2 0 = true ∧ (cgState 0 1).dev.calm ∧
    ((cgState 0 1).dev.shadow.map Prod.fst).Nodup ∧ (cgState 0 1).dev.regOpen = true ∧
    (after (exec (.cgWrite .hub wm 5) (cgState 0 1))).dev.fldR (A.cgState 2) 40 1 = 1 ∧
    ((after (exec (.cgWrite .hub wm 5) (cgState 0 0))).dev.cg[2]).isOpen 0 = true ∧
    ((after (exec (.cgCommit .hub 2) (cgState 1 0))).dev.cg[2]).isPend 0 = true ∧
    ((after (exec (.cgCommit .hub 0x302) (cgState 1 0))).dev.cg[2]).emptyCommit.count 3 = 1 ∧
    (after (exec (.cgAbort .hub 2) (cgState 1 0))).dev.shadow = [] ∧
    (after (exec (.cgLand 2 0) (cgState 0 1))).dev.reg (A.wmark 0) = 0x20001 ∧
    ((after (exec (.cgIdleHold 2 0) (cgState 0 1))).dev.cg[2]).hold = 1 ∧
    (after (exec (.regWrite .hub (BitVec.ofNat 24 A.ret) 9) (cgState 0 0))).dev.fldR A.ret 0 16 = 9 := by
  unfold Dev.calm; decide +kernel

/-! ### Witnesses: the link -/

/-- A flit of header `hdr` whose slot 0 is `m`, with its CRC. -/
def goodFlit (hdr : BitVec 64) (m : Slot) : Flit :=
  { hdr := hdr, slots := m :: List.replicate 13 0, crc := crc64 (flitBytes hdr (m :: List.replicate 13 0)) }

/-- A data flit of SEQ 0 with one RD of tag 7; an idle flit that acknowledges SEQ 5. -/
def rdFlit : Flit := goodFlit (BitVec.ofNat 64 (1 <<< 60 ||| 0x100)) (BitVec.ofNat 128 (1 <<< 124 ||| 7 <<< 112))
def ackFlit : Flit := goodFlit (BitVec.ofNat 64 (1 <<< 35 ||| 5 <<< 36)) 0

def tx5 (seq : BitVec 12) : TxFlit := { seq := seq, slots := padSlots [], tries := 0 }

/-- 20 active lanes, lane 20 spare, lane 21 out, in both directions. -/
def lanes20 : Vector Lane 22 :=
  Vector.ofFn (fun (i : Fin 22) => if i.val < 20 then .active i.val else if i.val = 20 then .spare else .out)

/-- The words of a flit on the physical lanes of a map (Table 3.1). -/
def onLanes (v : Vector Lane 22) (f : Flit) : List (List (BitVec 48)) :=
  (List.range 22).map (fun p => match laneAt v p with
    | .active k => laneWords (flitWords f) (laneWidth v) k
    | _ => [])

/-- The link up, with two unacknowledged flits. -/
def linkState (f : Link → Link) : State :=
  withDev ({ reqDev with link := f { Link.initial with
    st := .up, rxLanes := lanes20, txLanes := lanes20, replay := [tx5 5, tx5 6] } })

/-- The same flit with a CRC that is off by one. -/
def badFlit : Flit := { rdFlit with crc := rdFlit.crc + 1 }

set_option maxRecDepth 20000 in
theorem witness_flit_words : unstripe lanes20 (onLanes lanes20 rdFlit) = rdFlit ∧ unstripe lanes20 (onLanes lanes20 ackFlit) = ackFlit ∧
    unstripe lanes20 (onLanes lanes20 badFlit) = badFlit := by decide +kernel
set_option maxRecDepth 20000 in
theorem witness_flit_crc : flitGood rdFlit = true ∧ flitGood ackFlit = true ∧ flitGood badFlit = false := by decide +kernel

/-- R63, Table 3.1: at width 20 lane 3 carries words 3 and 23, at width 16 words 3, 19 and 35, at width 12 the fourth beat has
words 36 to 39 and pad words of zeros. -/
theorem test_lane_words :
    let ws : List (BitVec 48) := (List.range 40).map (fun i => BitVec.ofNat 48 (i + 1))
    laneWords ws 20 3 = [4, 24] ∧ laneWords ws 16 3 = [4, 20, 36] ∧ laneWords ws 12 3 = [4, 16, 28, 40] ∧
    laneWords ws 12 4 = [5, 17, 29, 0] := by decide +kernel

theorem witness_FlitsReceived : (linkState id).dev.live = true ∧ (linkState id).dev.link.st = .up ∧
    (linkState id).dev.link.standby = false ∧ (linkState id).dev.link.req = none ∧ (linkState id).dev.link.rxChange = none ∧
    (linkState id).dev.link.rxLanes = lanes20 ∧ bit rdFlit.hdr 35 = false ∧ fld rdFlit.hdr 60 4 = 1 ∧
    fld rdFlit.hdr 48 12 = (linkState id).dev.link.exp.toNat ∧ (validSlots rdFlit).length = 1 ∧
    (validSlots rdFlit).all (fun m => reqShape m = some (.q, 1)) = true ∧ (linkState id).dev.txn.part = [] ∧
    bit ackFlit.hdr 35 = true ∧ fld ackFlit.hdr 60 4 = 0 ∧ (linkState id).dev.link.replay = [] ++ [tx5 5] ++ [tx5 6] ∧
    fld ackFlit.hdr 36 12 = (tx5 5).seq.toNat ∧
    ((linkState id).dev.link.replay.map (fun (x : TxFlit) => x.seq)).Nodup := by decide +kernel

def out1 : OutMsg := { vc := .q, tag := 7, resync := false, started := false, slots := [5] }

theorem witness_FlitsSent : (linkState id).dev.link.announced = none ∧ (linkState (fun l => { l with ctlq := [5] })).dev.link.ctlq ≠ [] ∧
    (linkState (fun l => { l with resend := [6] })).dev.link.resend = [(tx5 6).seq] ∧
    (linkState id).dev.link.replay.find? (fun x => x.seq = 6) = some (tx5 6) ∧ (linkState id).dev.link.replay.length < 256 ∧
    (linkState id).dev.link.xoffP = false ∧ (linkState id).dev.txn.outP = [] ∧ (linkState id).dev.txn.outM = [] := by
  decide +kernel

/-- The same before an Accord applies, where the default profile gives the timers. -/
def dfltState (f : Link → Link) : State := withDev { (linkState f).dev with applied := false }

theorem witness_Replays : (dfltState id).dev.linkCfg 0x34 2 4096 ≠ 0 ∧ (dfltState id).dev.linkCfg 0x32 2 2048 ≠ 0 ∧
    (dfltState (fun l => { l with nakOut := true })).dev.link.nakOut = true ∧
    (∀ x ∈ (dfltState id).dev.link.replay, x.tries < (dfltState id).dev.replayMax) ∧
    (dfltState id).dev.link.replay.dropWhile (fun x => x.seq ≠ 6) = [tx5 6] ∧
    (after (exec (.nak 6) (dfltState id))).dev.link.resend = [6] ∧
    (after (exec .ackTimeout (dfltState id))).dev.link.resend = [5, 6] ∧
    (after (exec .nakTimeout (dfltState (fun l => { l with nakOut := true })))).dev.link.ctlq.length = 1 ∧
    (after (exec (.rttEcho 0 128) (linkState (fun l => { l with st := .training, probesLeft := 1 })))).dev.link.rttMax = 128 ∧
    (after (exec (.rttProbe 9) (linkState id))).dev.link.ctlq.length = 1 := by decide +kernel

def laneState (f : Link → Link) : State := linkState (fun l => f { l with replay := [] })

theorem witness_Lanes : (laneState id).dev.live = true ∧ (laneState id).dev.link.failing = [] ∧ (laneState id).dev.link.req = none ∧
    (laneAt (laneState id).dev.link.rxLanes 0).isActive = true ∧
    (∃ i : Fin 22, (laneAt (laneState id).dev.link.rxLanes i.val).isSpare = true) ∧
    ({ (laneState id).dev with applied := false }).linkCfg 0x37 1 64 ≠ 0 ∧
    ({ (laneState id).dev with applied := false }).linkCfg 0x38 4 1000 ≠ 0 ∧
    (laneState (fun l => { l with rxChange := some { cmd := 3, lane := 21 } })).dev.link.changeDue .rx { cmd := 3, lane := 21 } = true ∧
    (laneState (fun l => { l with announced := some { cmd := 1, lane := 0 } })).dev.link.changeDue .tx { cmd := 1, lane := 0 } = true ∧
    (laneState (fun l => { l with announced := some { cmd := 4, lane := 0 } })).dev.link.changeDue .tx { cmd := 4, lane := 0 } = true ∧
    (laneState id).dev.mild 125 ∧ (laneState id).dev.mild 126 ∧ (laneState id).dev.link.reqWait = [] ∧
    bit (0x35 : Word) 5 = true ∧ fld (0x35 : Word) 0 5 < 22 ∧ (laneAt (laneState id).dev.link.rxLanes 21).isOut = true ∧
    (after (exec (.laneLockLoss 0) (laneState id))).dev.link.failing = [0] ∧
    laneAt (after (exec (.laneSwap .tx 0) (laneState (fun l => { l with announced := some { cmd := 1, lane := 0 } })))).dev.link.txLanes
      20 = .active 0 ∧
    (after (exec (.laneTest .rx 21) (laneState (fun l => { l with rxChange := some { cmd := 4, lane := 21 } })))).dev.link.laneTest =
      some 21 ∧
    (after (exec (.laneTestStart .hub 0x35) (laneState id))).dev.link.req = some { cmd := 4, lane := 21 } ∧
    (after (exec (.laneTestDone 0) (laneState (fun l => { l with laneTest := some 21 })))).dev.fldR A.laneTest 7 1 = 1 ∧
    (after (exec (.laneMarginThresh 0) (laneState id))).dev.link.margin[0] = 1 := by
  unfold Dev.mild; decide +kernel

/-- An idle flit sent after a SWAP of lane 0. -/
def swapFlit : Flit := goodFlit (BitVec.ofNat 64 (5 <<< 48)) 0
def swapLanes : List (List (BitVec 48)) := onLanes (swapLane lanes20 0) swapFlit

/-- A SWAP of lane 0 is asked for; nothing is announced yet. -/
def swapState : State := laneState (fun l => { l with failing := [0], req := some { cmd := 1, lane := 0 } })

set_option maxRecDepth 20000 in
theorem witness_Lanes_swapped_good : flitGood (unstripe (swapLane lanes20 0) swapLanes) = true := by decide +kernel
set_option maxRecDepth 20000 in
theorem witness_Lanes_swapped_bad : flitGood (unstripe lanes20 swapLanes) = false := by decide +kernel
theorem witness_Lanes_swapped : swapState.dev.live = true ∧ swapState.dev.link.req = some { cmd := 1, lane := 0 } ∧
    swapState.dev.link.rxChange = none ∧ swapState.dev.link.rxLanes = lanes20 ∧ swapState.dev.link.standby = false ∧
    ({ cmd := 1, lane := 0 } : Change).lanes lanes20 = swapLane lanes20 0 ∧ swapState.dev.mild 125 ∧
    (∀ x ∈ swapState.dev.link.failing, x = 0) ∧ fld (unstripe (swapLane lanes20 0) swapLanes).hdr 60 4 = 0 ∧
    bit (unstripe (swapLane lanes20 0) swapLanes).hdr 35 = false := by
  unfold Dev.mild; decide +kernel

set_option maxRecDepth 20000 in
/-- R86: the flit that is good only under the requested map has it adopted. -/
theorem test_adopted_by_flit :
    laneAt (after (exec (.dataFlitRx swapLanes) swapState)).dev.link.rxLanes 20 = .active 0 := by decide +kernel

/-- R84: the announcement in flit n leaves the lanes of flit n + 1 as they are; SWAP copies the failing lane's words then. -/
theorem test_announced_at_n_plus_2 :
    let s1 := after (exec .flitTx (laneState (fun l => { l with announce := some { cmd := 1, lane := 0 } })))
    let s2 := after (exec .flitTx s1)
    laneAt s1.dev.link.txLanes 0 = .active 0 ∧ laneAt s2.dev.link.txLanes 0 = .active 0 ∧
    s2.dev.link.lanesOut[20]? = s2.dev.link.lanesOut[0]? ∧ s1.dev.link.lanesOut[20]? = some (.prbs31 false) ∧
    laneAt (after (exec .flitTx s2)).dev.link.txLanes 20 = .active 0 := by decide +kernel

/-- The link trains at the first rate, its echoes in. -/
def trainState (rtt : Nat) (f : Link → Link) : State :=
  withDev { (laneState (fun l => f { l with st := .training, target := 1, rttMax := rtt })).dev with applied := false }

theorem witness_Training : (laneState id).dev.noneAsked ∧ (laneState id).dev.mild 124 ∧ (trainState 128 id).dev.link.rate = 0 ∧
    10 ≤ notOut (trainState 128 id).dev.link.rxLanes ∧ 10 ≤ notOut (trainState 128 id).dev.link.txLanes ∧
    (trainState 129 id).dev.mild 124 ∧ bit (7 : Word) 0 = true ∧ fld (7 : Word) 1 2 ≠ 0 ∧
    widthOf ((trainState 128 id).dev.trainRank .rx (fun p => (0x1FFFFF : BitVec 22).getLsbD p &&
      !(laneAt (trainState 128 id).dev.link.rxLanes p).isOut)).length ≠ 0 ∧
    (trainState 128 id).dev.link.retryWait = false ∧
    (trainState 129 (fun l => { l with retryWait := true })).dev.link.retryWait = true ∧
    notOut (trainState 129 (fun l => { l with rxLanes := Vector.replicate 22 .out, target := 3 })).dev.link.rxLanes < 10 ∧
    (laneState (fun l => { l with st := .training, rate := 1 })).dev.link.rate ≠ 0 ∧
    (laneState (fun l => { l with st := .training, rate := 1 })).dev.pwrPhase ≠ 3 ∧
    (after (exec (.trainingEnd 0x1FFFFF 0x1FFFFF) (trainState 128 id))).dev.link.rate = 1 ∧
    (after (exec .linkUp (laneState (fun l => { l with st := .training, rate := 1 })))).dev.link.st = .up := by
  unfold Dev.noneAsked Dev.mild; decide +kernel

/-- R92: with few lanes left at the lowest rate a failed training waits 100 ms, then the out lanes are tested. -/
def fewState : State := trainState 129 (fun l => { l with rxLanes := Vector.replicate 22 .out, target := 3 })

theorem witness_Training_waits : fewState.dev.live = true ∧ fewState.dev.link.target = 3 ∧ notOut fewState.dev.link.rxLanes < 10 ∧
    128 < fewState.dev.link.rttMax ∧ fewState.dev.mild 124 ∧
    (after (exec (.trainingEnd 0x1FFFFF 0x1FFFFF) fewState)).dev.link.retryWait = true ∧
    notOut (after (exec (.trainingRetryTimer 0x3FFFFF 0x3FFFFF)
      (trainState 129 (fun l => { l with rxLanes := Vector.replicate 22 .out, retryWait := true })))).dev.link.rxLanes = 22 := by
  unfold Dev.mild; decide +kernel

/-- A RESYNC is owed (bit 17 of RESYNC), or sent and unacknowledged (bit 16) with epoch 255. -/
def resyncState (bits : Word) : State :=
  withDev (({ (laneState id).dev with applied := false }).setReg A.resync bits)

theorem witness_Resync : (resyncState (put 0 17 1 1)).dev.resyncDue = true ∧ (resyncState 0).dev.resyncDue = false ∧
    bit ((resyncState (put 0xFF00 16 1 1)).dev.reg A.resync) 16 = true ∧
    (resyncState (put 0xFF00 16 1 1)).dev.fldR A.resync 8 8 = 0xFF ∧ (resyncState 0).dev.linkCfg 0x3C 2 100 ≠ 0 ∧
    (resyncState 0).dev.txn.outM.any (fun o => o.resync) = false ∧
    (after (exec .resyncSend (resyncState (put 0 17 1 1)))).dev.txn.epoch = 1 ∧
    (after (exec .resyncRepeat (resyncState (put 0xFF00 16 1 1)))).dev.txn.outM.length = 1 ∧
    (after (exec (.resyncAck .hub 0xFF) (resyncState (put 0xFF00 16 1 1)))).dev.fldR A.resync 16 1 = 0 := by decide +kernel

/-! ### Witnesses: the sideband block -/

/-- "LCTK", TYPE 2 (ADVANCE), everything else zero: nonce 0, UID 0. -/
def advanceTok : TokenBytes := BitVec.ofNat 2048 (0x4B54434C ||| 2 <<< 32)

/-- A BLANK part with vendor key 0 provisioned. -/
def blankState : State := { withDev (pwrDev 0) with fuses := { Fuses.blank with keys := Fuses.blank.keys.set 0 5 } }

theorem witness_Tokens : blankState.dev.live = true ∧ (tokenOf (.advance advanceTok true)).isSome = true ∧
    tokType advanceTok = 2 ∧ tokCheck blankState.fuses blankState.dev advanceTok = 1 ∧
    tokCheck State.reset.fuses blankState.dev advanceTok = 7 ∧ tokNoFuse 2 = false ∧ tokNoFuse 6 = true ∧
    tokFormat advanceTok = true ∧ tokFormat 0 = false ∧
    ({ blankState with fuses := { Fuses.blank with lcReturned := 0xFF } }).fuses.zeroising = true ∧
    (after (exec (.advance advanceTok true) blankState)).fuses.state = 1 ∧
    (after (exec (.advance advanceTok true) { blankState with fuses := Fuses.blank })).fuses.state = 0 := by decide +kernel

/-- An erase, a program or a read is under way; I3C has its address. -/
def flashState (op : BitVec 2) : State :=
  withDev { pwrDev 0 with side := { Side.idle with flashOp := some (op, 0x1000, 6), i3cAddr := some 8 } }

theorem witness_FlashAndI3c : (withDev (pwrDev 0)).dev.side.flashOp = none ∧
    flashOf (.flashErase .hub 0) = some (.hub, 0, 1) ∧ (pwrDev 0).fldR A.flashAddr 0 32 < 0x800000 ∧
    ((pwrDev 0).setFld A.flashAddr 0 32 0x7FFFFF).fldR A.flashAddr 0 32 + 1 ≤ 0x800000 ∧
    ¬ ((pwrDev 0).setFld A.flashAddr 0 32 0x800000).fldR A.flashAddr 0 32 < 0x800000 ∧
    (pwrDev 0).pins.pwrfailN = true ∧ Fuses.blank.state ≠ 4 ∧ (flashState 1).dev.side.flashOp = some (1, 0x1000, 6) ∧
    (flashState 1).dev.i3cOn = true ∧ burstPlain (0 : BitVec 24).toNat (1 : BitVec 4).toNat = true ∧
    progPlain 0x1000 6 = true ∧
    (after (exec (.flashErase .hub 0) (withDev (pwrDev 0)))).dev.fldR A.flashCmd 7 1 = 1 ∧
    (after (exec (.flashErase .hub 0) (withDev ((pwrDev 0).setFld A.flashAddr 0 32 0x800000)))).dev.fldR A.flashCmd 8 2 = 2 ∧
    memRead (after (exec (.flashOpDone true) (flashState 2))).flash 0x1005 = 0 ∧
    (after (exec (.flashOpDone true) (flashState 3))).dev.reg (A.flashData 0) = 0xFFFFFFFFFFFF ∧
    (after (exec (.i3cEntdaa 9) (withDev (pwrDev 0)))).dev.side.i3cAddr = some 9 ∧
    (after (exec (.i3cSillageRead 0) (flashState 3))).dev.side.i3cOut.length = 16 := by decide +kernel

theorem witness_Tap : (scanOf .extest).map (fun x => x.1) = some 0 ∧ State.reset.tapOpen 0 = true ∧
    State.reset.dev.pins.resetN = false ∧ (withDev (pwrDev 0)).dev.pins.resetN = true ∧
    ({ State.reset with fuses := { Fuses.blank with lcVendor := 0xFF } }).tapOpen 1 = false ∧
    (withDev (pwrDev 0)).dev.live = true ∧ (withDev (pwrDev 0)).dev.regOpen = true ∧
    (withDev (pwrDev 0)).tapOpen 2 = true ∧
    (after (exec (.sample 5) State.reset)).dev.side.tapOut = 5 ∧
    (after (exec (.sample 5) (withDev (pwrDev 0)))).dev.side.tapBypass = true ∧
    (after (exec (.tapRegAccess (BitVec.ofNat 24 A.ret) (some 9)) (withDev (pwrDev 0)))).dev.fldR A.ret 0 16 = 9 := by
  decide +kernel

/-! ### Worked examples of the spec -/

/-- Chapter 0: PROT[5].STEER. -/
theorem test_registerAddress : A.steer 5 = 0x121410 := by decide

/-- Chapter 1: position p7, layer 3 of tile 11. -/
theorem test_coord : coordMem (tileSub 11) (11 % 2) 7 3 = 0x36E6 := by decide

/-- Chapter 3: RTT 86 and MARGIN 1024 give H, E and LINK.HEADROOM. -/
theorem test_headroom :
    let s := withDev ((devOn.setFld A.linkRtt 0 8 86).setFld A.headroom 0 16 1024)
    s.dev.levelH = 11824 ∧ s.dev.levelE = 20016 ∧ s.readReg A.headroom = 0x4E302E300400 := by decide +kernel

/-- The masks and the selects of the map of chapter 5. -/
def mapCfg : Memory :=
  section_ Sec.addrmap
    ((List.zip (List.range 9) [0x8080, 0x10100, 0x4040, 0x40000000000, 0x1000200, 0x2000400, 0x4000800, 0x8001000, 0x10002000]).flatMap
      (fun m => List.zip (List.range' (8 * m.1) 8) (leBytes 8 m.2)) ++
    List.zip (List.range' 0x48 18) ((List.range' 24 18).map (BitVec.ofNat 8)) ++
    List.zip (List.range' 0x60 7) ((List.range' 14 7).map (BitVec.ofNat 8)) ++
    List.zip (List.range' 0x68 3) ((List.range' 21 3).map (BitVec.ofNat 8)))

/-- Chapter 5: port 1, sub 0, rank 1, CID 2, row 0x1234, bank group 1, bank 1, column 0x59; its COORD without a position. -/
theorem test_addrMap : addrMap mapCfg (BitVec.ofNat 42 (0x041234567AC0 / 64)) = mkLoc 1 0 1 2 0x1234 1 1 0x59 ∧
    coordLoc (addrMap mapCfg (BitVec.ofNat 42 (0x041234567AC0 / 64))) = 0x2BE6 := by decide +kernel

/-- Chapter 10: ENG[19].KRUN during the worked invocation. -/
theorem test_krun :
    (withDev { devOn with engs := devOn.engs.set 19 { Engine.off with run := .running, inv := some {
      kidx := 0x12, window := 3, tag := 0x011, src := 0x0A5, line := 0xC00000001, length := 65536, pf := false, onE := none } } }).readReg
        0x184C04 = 0x801230000011 := by decide +kernel

/-- Chapter 11: source 85 is pending at MINOR, then sources 77 and 114 report. -/
def twoFaults : State :=
  let cfg := put (put (put (put 0 0 3 2) 6 1 1) 24 8 4) 32 16 1000
  let d := (((devOn.setReg (A.srcCfg 77) cfg).setReg (A.srcCfg 85) (put (put 0 0 3 2) 6 1 1)).setReg (A.srcCfg 114)
    (put cfg 0 3 3)).setReg A.faultCfg 0x3F03
  let s := withDev { d with sill := { d.sill with time := 0x1DCD6500 }, flt := { d.flt with
    src := [(85, { Src.quiet with pendA := true, pendB := true, sevA := 2, sevB := 2, count := 1 })] } }
  let s1 := after (exec (.faultOccurrence 77
    { event := 1, addr := 0x040000400140, akind := 1, coord := 0x37E6, master := some 0x0A5, access := 1 } false true true) s)
  after (exec (.faultOccurrence 114
    { event := 2, addr := 0, akind := 0, coord := coordCtl 4 2, master := none, access := 0 } false true true) s1)

theorem test_twoFaults_records : twoFaults.readReg 0x1A0934 = 0x040000400140 ∧ twoFaults.readReg 0x1A0935 = 0x1DCD6500 ∧
    twoFaults.readReg 0x1A0936 = 0x37E68A516405 ∧ twoFaults.readReg 0x1A0937 = 0x010174C00000 ∧
    twoFaults.readReg 0x1A09C8 = 0 ∧ twoFaults.readReg 0x1A09C9 = 0x1DCD6500 ∧
    twoFaults.readReg 0x1A09CA = 0x840400006808 ∧ twoFaults.readReg 0x1A09CB = 0x010170800000 := by decide +kernel

theorem test_twoFaults_device : twoFaults.readReg A.first = 0x14D ∧ twoFaults.dev.errActive = true ∧
    twoFaults.readReg A.attn = 0x9200 ∧
    (twoFaults.dev.sill.queue.head?.map (fun r => slotField r 47 0)) = some 0x640452E90005 := by decide +kernel

end Sys2Proof.Tests
end

section
/-! SUPPORT. What a command does to the state outside the device (R3, log 3): all but the commands of `touchesStore` act on
the device alone, and those leave the queue of commands as it is. Then unoccupied addresses (R11), the reset state, and the
statements about the machine as a whole that these settle. -/

namespace Sys2Proof.Machine

/-! ### States that differ in the device alone -/

/-- `t` is `s` but for the device. -/
def State.onlyDev (s t : State) : Prop := ∃ d : Dev, t = { s with dev := d }

theorem State.onlyDev_refl (s : State) : s.onlyDev s := ⟨s.dev, rfl⟩

theorem State.onlyDev_withDev (s : State) (d : Dev) : s.onlyDev { s with dev := d } := ⟨d, rfl⟩

theorem State.onlyDev_ite {s t u : State} {p : Prop} [Decidable p] (ht : s.onlyDev t) (hu : s.onlyDev u) :
    s.onlyDev (if p then t else u) := by
  split
  · exact ht
  · exact hu

/-- A change of the device before what acts on the device alone makes no difference. -/
theorem State.onlyDev_of_withDev {s t : State} {d : Dev} (h : State.onlyDev { s with dev := d } t) : s.onlyDev t := h

theorem State.onlyDev.pending {s t : State} (h : s.onlyDev t) : t.pending = s.pending := by
  obtain ⟨d, rfl⟩ := h; rfl

/-! ### Named operations that act on the device alone -/

theorem State.flashAttempt_onlyDev (s : State) (slot second : Bool) (first : BitVec 8) :
    s.onlyDev (s.flashAttempt slot second first) := s.onlyDev_withDev _

theorem State.pushAttempt_onlyDev (s : State) (src : BitVec 3) (opened : Bool) : s.onlyDev (s.pushAttempt src opened) :=
  s.onlyDev_withDev _

theorem State.loaderStart_onlyDev (s : State) : s.onlyDev s.loaderStart :=
  State.onlyDev_ite (s.flashAttempt_onlyDev _ _ _) (s.pushAttempt_onlyDev _ _)

theorem State.loadFail_onlyDev (s : State) (code : BitVec 8) : s.onlyDev (s.loadFail code) :=
  State.onlyDev_ite (State.onlyDev_of_withDev (State.flashAttempt_onlyDev _ _ _ _))
    (State.onlyDev_ite (s.onlyDev_withDev _) (s.onlyDev_withDev _))

theorem State.pushOpen_onlyDev (s : State) (src : BitVec 3) : s.onlyDev (s.pushOpen src) :=
  State.onlyDev_ite (s.pushAttempt_onlyDev _ _) s.onlyDev_refl

theorem State.pushBytes_onlyDev (s : State) (src : BitVec 3) (bs : List Byte) : s.onlyDev (s.pushBytes src bs) :=
  State.onlyDev_ite (s.onlyDev_withDev _) s.onlyDev_refl

theorem State.pushCtlWrite_onlyDev (s : State) (v : Word) : s.onlyDev (s.pushCtlWrite v) :=
  State.onlyDev_ite (s.pushOpen_onlyDev _) s.onlyDev_refl

theorem State.reload_onlyDev (s : State) (boot : BitVec 2) : s.onlyDev (s.reload boot) :=
  State.onlyDev_of_withDev (State.loaderStart_onlyDev _)

theorem State.flashCmdWrite_onlyDev (s : State) (m : Master) (v : Word) : s.onlyDev (s.flashCmdWrite m v) :=
  State.onlyDev_ite s.onlyDev_refl (s.onlyDev_withDev _)

theorem State.tapDenied_onlyDev (s : State) : s.onlyDev s.tapDenied := s.onlyDev_withDev _

theorem State.tapScan_onlyDev (s : State) (k : Nat) (f : Side → Side) : s.onlyDev (s.tapScan k f) :=
  State.onlyDev_ite s.tapDenied_onlyDev (State.onlyDev_ite (s.onlyDev_withDev _) (s.onlyDev_withDev _))

/-! ### Outcomes that act on the device alone -/

/-- The outcome is a next state that differs from `s` in the device alone. -/
def State.devOutcome (s : State) (o : Host.Outcome State Fault Refusal) : Prop := ∃ t, o = .next t ∧ s.onlyDev t

theorem State.devOutcome_next {s t : State} (h : s.onlyDev t) : s.devOutcome (.next t) := ⟨t, rfl, h⟩

theorem State.devOutcome_stNext {s t : State} (h : s.onlyDev t) : s.devOutcome (stNext s t) :=
  State.devOutcome_next (State.onlyDev_ite h s.onlyDev_refl)

theorem State.devOutcome_devNext (s : State) (d : Dev) : s.devOutcome (devNext s d) :=
  State.devOutcome_stNext (s.onlyDev_withDev d)

/-- An engine's command has the outcome of its instruction, or one on the device alone: a trap, a dropped output, nothing. -/
theorem State.engineRuns_cases (s : State) (e : Fin 72) (i : Instr) (o : Host.Outcome State Fault Refusal) :
    s.engineRuns e i o = o ∨ s.devOutcome (s.engineRuns e i o) := by
  have hstay : s.devOutcome (.next s) := State.devOutcome_next s.onlyDev_refl
  have hdev (d : Dev) : s.devOutcome (.next { s with dev := d }) := State.devOutcome_next (s.onlyDev_withDev d)
  unfold State.engineRuns
  split
  · split
    · exact .inr (hdev _)
    · split
      · exact .inl rfl
      · exact .inr hstay
  · split
    · exact .inr (hdev _)
    · exact .inr hstay

theorem State.devOutcome_engineRuns (s : State) (e : Fin 72) (i : Instr) (d : Dev) :
    s.devOutcome (s.engineRuns e i (devNext s d)) := by
  obtain ho | hdev := s.engineRuns_cases e i (devNext s d)
  · rw [ho]
    exact s.devOutcome_devNext d
  · exact hdev

theorem execAccordLoadFail_devOutcome (s : State) : s.devOutcome (execAccordLoadFail s) := by
  refine State.devOutcome_stNext ?_
  split
  · exact State.onlyDev_ite (s.loadFail_onlyDev _) s.onlyDev_refl
  · exact s.onlyDev_refl

theorem execCoreResetEnd_devOutcome (boot : BitVec 2) (s : State) : s.devOutcome (execCoreResetEnd boot s) :=
  State.devOutcome_stNext (State.onlyDev_ite s.onlyDev_refl
    (State.onlyDev_ite (State.onlyDev_of_withDev (State.reload_onlyDev _ _)) (s.onlyDev_withDev _)))

theorem execResetNRise_devOutcome (boot : BitVec 2) (s : State) : s.devOutcome (execResetNRise boot s) :=
  State.devOutcome_stNext (State.onlyDev_ite (State.onlyDev_of_withDev (State.reload_onlyDev _ _)) (s.onlyDev_withDev _))

/-- A command that is not one of `touchesStore` answers a next state that differs in the device alone. -/
theorem exec_devOutcome (c : Instr) (s : State) (h : touchesStore c = false) : s.devOutcome (exec c s) := by
  cases c with
  | powerOn | powerLoss | pwrfail | pwrfailRise | retainEnd | retainTimeout | wakeStepEnd | wakeFail | journalRecordDone
  | regWrite | verdict | rwr | tapRegAccess | vendorKey | advance | ownerKey | ownerKwk | enterField | testUnlock | revoke
  | floor | returnOwner | returnVendor | void | badformat | zeroiseDone | flashOpDone => cases h
  | coreResetEnd => exact execCoreResetEnd_devOutcome _ s
  | resetNRise => exact execResetNRise_devOutcome _ s
  | accordLoadFail => exact execAccordLoadFail_devOutcome s
  | sourceTimeout | flashTimeout => exact State.devOutcome_stNext (State.onlyDev_ite (s.loadFail_onlyDev _) s.onlyDev_refl)
  | pushStart => exact State.devOutcome_stNext (s.pushCtlWrite_onlyDev _)
  | pushData => exact State.devOutcome_stNext (s.pushBytes_onlyDev _ _)
  | i3cPushOpen => exact State.devOutcome_stNext (State.onlyDev_ite (s.pushOpen_onlyDev _) s.onlyDev_refl)
  | i3cPushData => exact State.devOutcome_stNext (State.onlyDev_ite (s.pushBytes_onlyDev _ _) s.onlyDev_refl)
  | flashErase | flashProgram | flashRead => exact State.devOutcome_stNext (s.flashCmdWrite_onlyDev _ _)
  | sillageWrite | timewrap => exact State.devOutcome_next (State.onlyDev_ite (s.onlyDev_withDev _) s.onlyDev_refl)
  | idcode => exact State.devOutcome_next (s.onlyDev_withDev _)
  | extest | sample | preload | acTest => exact State.devOutcome_next (s.tapScan_onlyDev _ _)
  | nop | add | sub | and | or | xor | shl | shr | sar | mul | sltu | addi | andi | ori | ldi | lih | beq | bne | blt | bltu
  | jmp | call | jr | ldw | stw | ext | ins | szero | lget | lput | lwait | latomAdd | latomSwap | latomCas | lpois
  | lstepRebuild | lstepScrub | lstepRotate | setwin | padd | psub | fadd | fmin | fmax | send | waite | halt | beat | tmr
  | rrd => exact s.devOutcome_engineRuns _ _ _
  | _ => exact s.devOutcome_devNext _

/-! ### Operations on the fuses and the flash leave the queue -/

theorem State.pending_ite {t u : State} {p : Prop} [Decidable p] {q : List Instr} (ht : t.pending = q) (hu : u.pending = q) :
    (if p then t else u).pending = q := by
  split
  · exact ht
  · exact hu

theorem State.journalErase_pending (s : State) : s.journalErase.pending = s.pending := State.pending_ite rfl rfl

theorem State.journalGo_pending (s : State) : s.journalGo.pending = s.pending := by
  have herase : (if s.dev.journal.eraseDue then s.journalErase else s).pending = s.pending :=
    State.pending_ite s.journalErase_pending rfl
  exact State.pending_ite herase herase

theorem State.journalEnd_pending (s : State) (ok : Bool) : (s.journalEnd ok).pending = s.pending :=
  State.pending_ite rfl (State.pending_ite ((State.journalGo_pending _).trans (State.journalErase_pending _))
    (State.pending_ite rfl rfl))

theorem State.flashBreak_pending (s : State) : s.flashBreak.pending = s.pending := by
  unfold State.flashBreak
  split <;> rfl

theorem State.coreReset_pending (s : State) : s.coreReset.pending = s.pending := s.flashBreak_pending

theorem State.powerUp_pending (s : State) (boot : BitVec 2) (sfdp : Bool) : (s.powerUp boot sfdp).pending = s.pending :=
  (State.loaderStart_onlyDev _).pending

theorem State.powerGone_pending (s : State) : s.powerGone.pending = s.pending :=
  State.pending_ite ((State.journalEnd_pending _ _).trans (State.flashBreak_pending _)) (State.flashBreak_pending _)

theorem State.wakeToReset_pending (s : State) : s.wakeToReset.pending = s.pending := State.coreReset_pending _

theorem State.failWake_pending (s : State) (src ev : Nat) : (s.failWake src ev).pending = s.pending :=
  State.pending_ite (State.wakeToReset_pending _) (State.wakeToReset_pending _)

theorem State.pwrfailLow_pending (s : State) : s.pwrfailLow.pending = s.pending := by
  unfold State.pwrfailLow
  dsimp only
  split
  · rfl
  · exact State.flashBreak_pending _

theorem State.submit_pending (s : State) (t : TokenBytes) (blown : Bool) : (s.submit t blown).pending = s.pending := rfl

theorem State.submitOf_pending (s : State) (ty : Nat) (t : TokenBytes) (blown : Bool) :
    (s.submitOf ty t blown).pending = s.pending := State.pending_ite (s.submit_pending t blown) rfl

theorem State.tokenCmdWrite_pending (s : State) (m : Master) (v : Word) : (s.tokenCmdWrite m v).pending = s.pending :=
  State.pending_ite (State.submit_pending _ _ _) rfl

theorem State.zeroLog_pending (s : State) : s.zeroLog.pending = s.pending := State.pending_ite rfl rfl

theorem State.zeroise_pending (s : State) : s.zeroise.pending = s.pending := s.zeroLog_pending

theorem State.zeroTorn_pending (s : State) : s.zeroTorn.pending = s.pending := by
  have hlog : (if 1 ≤ Config.freeNat s.dev.freeCtr % 4 then s.zeroLog else s).pending = s.pending :=
    State.pending_ite s.zeroLog_pending rfl
  exact State.pending_ite rfl (State.pending_ite (State.pending_ite hlog hlog) (State.pending_ite hlog hlog))

theorem State.flashDone_pending (s : State) (ok : Bool) : (s.flashDone ok).pending = s.pending := by
  unfold State.flashDone
  split
  · rfl
  · exact State.pending_ite s.flashBreak_pending
      (State.pending_ite rfl (State.pending_ite rfl (State.pending_ite rfl rfl)))

/-! ### Register writes leave the queue -/

theorem State.writeReg_pending (s : State) (m : Master) (a : Nat) (v : Word) : (s.writeReg m a v).pending = s.pending := by
  unfold State.writeReg
  split
  · rfl
  · exact State.pending_ite rfl (State.pending_ite (s.pushCtlWrite_onlyDev v).pending
      (State.pending_ite (s.pushBytes_onlyDev _ _).pending (State.pending_ite (State.pending_ite rfl rfl)
      (State.pending_ite rfl (State.pending_ite (s.tokenCmdWrite_pending m v)
      (State.pending_ite (s.flashCmdWrite_onlyDev m v).pending rfl))))))

theorem State.writeNow_pending (s : State) (m : Master) (a : Nat) (v : Word) : (s.writeNow m a v).pending = s.pending := by
  have hw : (s.writeReg m a v).pending = s.pending := s.writeReg_pending m a v
  unfold State.writeNow
  dsimp only
  split
  · exact State.pending_ite hw hw
  · exact hw

theorem State.writeBurst_pending (plain : Bool) (l : List (Nat × Word)) (s : State) :
    (s.writeBurst plain l).1.pending = s.pending := by
  induction l generalizing s with
  | nil => rfl
  | cons x r ih =>
    have htick : (if plain then s else { s with dev := s.dev.tickFree }).pending = s.pending := State.pending_ite rfl rfl
    exact (ih _).trans (State.pending_ite ((State.writeReg_pending _ _ _ _).trans htick) htick)

theorem State.accessM_pending (s : State) (h : Held) : (s.accessM h).pending = s.pending := by
  unfold State.accessM
  dsimp only
  split
  · rfl
  · exact State.writeBurst_pending _ _ _
  · rfl

theorem State.serveM_pending (n : Nat) (s : State) : (State.serveM n s).pending = s.pending := by
  induction n generalizing s with
  | zero => rfl
  | succ n ih =>
    unfold State.serveM
    split
    · exact State.pending_ite ((ih _).trans (s.accessM_pending _)) rfl
    · rfl

theorem State.verdictAt_pending (s : State) (vc : Vc) (tag : BitVec 12) (ok : Bool) :
    (s.verdictAt vc tag ok).pending = s.pending := by
  unfold State.verdictAt
  dsimp only
  split
  · rfl
  · cases vc with
    | q | k => rfl
    | m => exact State.serveM_pending _ _

/-! ### Outcomes that leave the queue -/

/-- The outcome is a next state whose queue of commands is that of `s`. -/
def State.queueOutcome (s : State) (o : Host.Outcome State Fault Refusal) : Prop := ∃ t, o = .next t ∧ t.pending = s.pending

theorem State.devOutcome.queueOutcome {s : State} {o : Host.Outcome State Fault Refusal} (h : s.devOutcome o) :
    s.queueOutcome o := by
  obtain ⟨t, ho, ht⟩ := h
  exact ⟨t, ho, ht.pending⟩

theorem State.queueOutcome_next {s t : State} (h : t.pending = s.pending) : s.queueOutcome (.next t) := ⟨t, rfl, h⟩

theorem State.queueOutcome_stNext {s t : State} (h : t.pending = s.pending) : s.queueOutcome (stNext s t) :=
  State.queueOutcome_next (State.pending_ite h rfl)

theorem State.queueOutcome_engineRuns {s : State} (e : Fin 72) (i : Instr) {o : Host.Outcome State Fault Refusal}
    (h : s.queueOutcome o) : s.queueOutcome (s.engineRuns e i o) := by
  obtain ho | hdev := s.engineRuns_cases e i o
  · rwa [ho]
  · exact hdev.queueOutcome

theorem execRwr_queueOutcome (e : Fin 72) (ra rb : Fin 16) (s : State) : s.queueOutcome (execRwr e ra rb s) :=
  State.queueOutcome_engineRuns _ _
    (State.queueOutcome_stNext (State.pending_ite rfl (State.pending_ite rfl (State.writeNow_pending _ _ _ _))))

theorem execTapRegAccess_queueOutcome (a : BitVec 24) (w : Option Word) (s : State) :
    s.queueOutcome (execTapRegAccess a w s) := by
  refine State.queueOutcome_next (State.pending_ite s.tapDenied_onlyDev.pending (State.pending_ite rfl ?_))
  cases w with
  | none => rfl
  | some v => exact s.writeNow_pending _ _ _

theorem execWakeStepEnd_queueOutcome (crcOk : Bool) (s : State) : s.queueOutcome (execWakeStepEnd crcOk s) :=
  State.queueOutcome_stNext (State.pending_ite rfl (State.pending_ite s.wakeToReset_pending
    (State.pending_ite (s.failWake_pending _ _) rfl)))

/-- The commands of `touchesStore` answer a next state too, and leave the queue. -/
theorem exec_queueOutcome_of_touchesStore (c : Instr) (s : State) (h : touchesStore c = true) : s.queueOutcome (exec c s) := by
  cases c with
  | powerOn => exact State.queueOutcome_next (State.pending_ite rfl (s.powerUp_pending _ _))
  | powerLoss => exact State.queueOutcome_next (State.pending_ite ((State.powerGone_pending _).trans s.zeroTorn_pending) rfl)
  | pwrfail => exact State.queueOutcome_stNext (State.pending_ite s.pwrfailLow_pending rfl)
  | pwrfailRise => exact State.queueOutcome_stNext (State.journalGo_pending _)
  | retainEnd | retainTimeout => exact State.queueOutcome_stNext (State.pending_ite (State.coreReset_pending _) rfl)
  | wakeStepEnd => exact execWakeStepEnd_queueOutcome _ s
  | wakeFail => exact State.queueOutcome_stNext (State.pending_ite (State.failWake_pending _ _ _) rfl)
  | journalRecordDone => exact State.queueOutcome_stNext (s.journalEnd_pending _)
  | regWrite => exact State.queueOutcome_stNext (State.pending_ite (s.writeNow_pending _ _ _) rfl)
  | verdict => exact State.queueOutcome_stNext (s.verdictAt_pending _ _ _)
  | rwr => exact execRwr_queueOutcome _ _ _ s
  | tapRegAccess => exact execTapRegAccess_queueOutcome _ _ s
  | vendorKey | advance | ownerKey | ownerKwk | enterField | testUnlock | revoke | floor | returnOwner | returnVendor
  | void => exact State.queueOutcome_stNext (s.submitOf_pending _ _ _)
  | badformat => exact State.queueOutcome_stNext (State.pending_ite rfl (s.submit_pending _ _))
  | zeroiseDone => exact State.queueOutcome_stNext (State.pending_ite s.zeroise_pending rfl)
  | flashOpDone => exact State.queueOutcome_stNext (s.flashDone_pending _)
  | _ => cases h

/-! ### Addresses that no register occupies (R11) -/

theorem State.readReg_of_unoccupied (s : State) {a : Nat} (h : regSpec a = none) : s.readReg a = 0 := by
  simp [State.readReg, h]

theorem State.writeReg_of_unoccupied (s : State) (m : Master) {a : Nat} (v : Word) (h : regSpec a = none) :
    s.writeReg m a v = s := by
  simp [State.writeReg, h]

/-- The registers whose writes ask for something once their completion has left are occupied. -/
theorem afterOf_of_unoccupied {a : Nat} (v : Word) (h : regSpec a = none) : afterOf a v = none := by
  have ne_of_isSome {b : Nat} (hb : (regSpec b).isSome = true) : a ≠ b := fun e => by simp [← e, h] at hb
  have hreset : a ≠ A.fullReset := ne_of_isSome (by decide)
  have hlink : a ≠ A.linkCtl := ne_of_isSome (by decide)
  have hpwr : a ≠ A.pwrCtl := ne_of_isSome (by decide)
  simp [afterOf, hreset, hlink, hpwr]

theorem State.writeNow_of_unoccupied (s : State) (m : Master) {a : Nat} (v : Word) (h : regSpec a = none) :
    s.writeNow m a v = s := by
  simp [State.writeNow, afterOf_of_unoccupied v h, s.writeReg_of_unoccupied m v h]

theorem exec_regWrite (m : Master) (a : BitVec 24) (v : Word) (s : State) :
    exec (.regWrite m a v) s = stNext s (if s.dev.regOpen then s.writeNow m a.toNat v else s) := rfl

/-! ### The reset state -/

@[simp] theorem Dev.reset_reg (a : Nat) : Dev.reset.reg a = regReset a := rfl

theorem Dev.reset_ports (p : Fin 4) : Dev.reset.ports[p] = Port.empty := by simp [Dev.reset]

theorem Dev.reset_engs (e : Fin 72) : Dev.reset.engs[e] = Engine.off := by simp [Dev.reset]

theorem Dev.reset_cg (g : Fin 9) : Dev.reset.cg[g] = CgGroup.following := by simp [Dev.reset]

@[simp] theorem Dev.reset_srcAt (n : Nat) : Dev.reset.srcAt n = Src.quiet := rfl

/-! ### Settled statements -/

/-- Settles O2: a command of `touchesStore` keeps the queue, any other one acts on the device alone. -/
theorem everyCommandAnswersANextState : Obligations.EveryCommandAnswersANextState := by
  intro c s
  cases h : touchesStore c with
  | false => exact (exec_devOutcome c s h).queueOutcome
  | true => exact exec_queueOutcome_of_touchesStore c s h

/-- Settles O3, from what the reset state holds of each kind of unit. -/
theorem resetState : Obligations.ResetState :=
  ⟨rfl, rfl, Dev.reset_reg, rfl,
    fun p => ⟨congrArg Port.rdq (Dev.reset_ports p), congrArg Port.wrq (Dev.reset_ports p)⟩,
    fun e => congrArg Engine.run (Dev.reset_engs e), fun g => congrArg CgGroup.opened (Dev.reset_cg g),
    rfl, rfl, Dev.reset_srcAt⟩

/-- Settles O9: the write goes to no register and asks for nothing after its completion. -/
theorem unoccupiedAddresses : Obligations.UnoccupiedAddresses := by
  intro s a h
  refine ⟨s.readReg_of_unoccupied h, fun m v => ?_⟩
  simp [exec_regWrite, stNext, s.writeNow_of_unoccupied m v h]

end Sys2Proof.Machine
end

section
/-! SUPPORT. Commands without effect: on a block that is not live (R327, R328, R363), and from a master whose writes do not
count (R24). That such a command leaves the state as it is is the model's choice (log 3). -/

namespace Sys2Proof.Machine

/-! ### Commands without effect (R24, R327, R328, R363, log 3) -/

theorem State.engineRuns_of_dead {s : State} (e : Fin 72) (i : Instr) (o : Host.Outcome State Fault Refusal)
    (h : s.dev.live = false) : s.engineRuns e i o = .next s := by
  simp [State.engineRuns, h]

/-- A block that is not live takes no command but power on and off, the ticks of Caldera's clock, and the TAP's. -/
theorem exec_of_dead (c : Instr) (s : State) (h : s.dev.live = false) (htap : isTap c = false) (hon : ∀ f, c ≠ .powerOn f)
    (hloss : c ≠ .powerLoss) (htick : c ≠ .sillageWrite) (hwrap : c ≠ .timewrap) : exec c s = .next s := by
  cases c with
  | powerOn f => exact absurd rfl (hon f)
  | powerLoss => exact absurd rfl hloss
  | sillageWrite => exact absurd rfl htick
  | timewrap => exact absurd rfl hwrap
  | idcode | extest | sample | preload | acTest | tapRegAccess => cases htap
  | nop | add | sub | and | or | xor | shl | shr | sar | mul | sltu | addi | andi | ori | ldi | lih | beq | bne | blt | bltu
  | jmp | call | jr | ldw | stw | ext | ins | szero | lget | lput | lwait | latomAdd | latomSwap | latomCas | lpois
  | lstepRebuild | lstepScrub | lstepRotate | setwin | padd | psub | fadd | fmin | fmax | send | waite | halt | beat | tmr
  | rrd | rwr => exact State.engineRuns_of_dead _ _ _ h
  | _ => exact stNext_of_dead _ h

/-! ### The commands that a dead block's rule leaves out, without power -/

theorem exec_powerLoss_of_off {s : State} (h : s.dev.on = false) : exec .powerLoss s = .next s := by
  simp [exec, execPowerLoss, h]

theorem exec_sillageWrite_of_off {s : State} (h : s.dev.on = false) : exec .sillageWrite s = .next s := by
  simp [exec, execSillageWrite, h]

theorem exec_timewrap_of_off {s : State} (h : s.dev.on = false) : exec .timewrap s = .next s := by
  simp [exec, execTimewrap, h]

theorem exec_powerOn_of_on {s : State} (f : PowerUp) (h : s.dev.on = true) : exec (.powerOn f) s = .next s := by
  simp [exec, execPowerOn, h]

/-! ### Writes that count only from the hub -/

theorem stNext_self (s : State) : stNext s s = .next s := by simp [stNext]

theorem devNext_self (s : State) : devNext s s.dev = .next s := stNext_self s

section
variable {m : Master} (hm : m ≠ .hub)
include hm

theorem Dev.keyCmdWrite_of_not_hub (d : Dev) (v : Word) : d.keyCmdWrite m v = d := by simp [Dev.keyCmdWrite, hm]

theorem State.keyCmdWrite_of_not_hub (s : State) (v : Word) : s.keyCmdWrite m v = s.dev := by
  simp [State.keyCmdWrite, Dev.keyCmdWrite_of_not_hub hm]

theorem State.flashCmdWrite_of_not_hub (s : State) (v : Word) : s.flashCmdWrite m v = s := by
  simp [State.flashCmdWrite, hm]

theorem Dev.pendingWrite_of_not_hub (d : Dev) (k : Nat) (v : Word) : d.pendingWrite m k v = d := by
  simp [Dev.pendingWrite, hm]

theorem Dev.firstWrite_of_not_hub (d : Dev) (v : Word) : d.firstWrite m v = d := by simp [Dev.firstWrite, hm]

theorem Dev.engCtlWrite_of_not_hub (d : Dev) (e : Fin 72) (v : Word) : d.engCtlWrite m e v = d := by
  simp [Dev.engCtlWrite, hm]

theorem Dev.mboxWrite_of_not_hub (d : Dev) (e : Fin 72) (v : Word) : d.mboxWrite m e v = d := by
  simp [Dev.mboxWrite, hm]

theorem Dev.enterCmd_of_not_hub (d : Dev) (t : Nat) : d.enterCmd m t = d := by simp [Dev.enterCmd, hm]

end

/-- A write that counts only from the hub has no effect from another master. -/
theorem exec_hubOnly_of_not_hub (c : Instr) (m : Master) (s : State) (hc : hubOnly c = some m) (hm : m ≠ .hub) :
    exec c s = .next s := by
  cases c <;> cases hc
  case keyLoad v => exact (congrArg (devNext s) (s.keyCmdWrite_of_not_hub hm _)).trans (devNext_self s)
  case keyClear v => exact (congrArg (devNext s) (s.dev.keyCmdWrite_of_not_hub hm _)).trans (devNext_self s)
  case flashErase v | flashProgram v | flashRead v =>
    exact (congrArg (stNext s) (s.flashCmdWrite_of_not_hub hm _)).trans (stNext_self s)
  case pendingClear k v => exact (congrArg (devNext s) (s.dev.pendingWrite_of_not_hub hm _ _)).trans (devNext_self s)
  case firstClear v => exact (congrArg (devNext s) (s.dev.firstWrite_of_not_hub hm _)).trans (devNext_self s)
  case engineFence e v | engineRestart e v =>
    exact (congrArg (devNext s) (s.dev.engCtlWrite_of_not_hub hm _ _)).trans (devNext_self s)
  case mbox e v => exact (congrArg (devNext s) (s.dev.mboxWrite_of_not_hub hm _ _)).trans (devNext_self s)
  case enterP1 | enterP2 | enterP3 => exact (congrArg (devNext s) (s.dev.enterCmd_of_not_hub hm _)).trans (devNext_self s)
  case identFullReset v => exact (congrArg (devNext s) (if_neg (by simp [hm]))).trans (devNext_self s)

/-- Settles O7, from what a dead block takes, what an unpowered one takes, and who may write. -/
theorem commandsWithoutEffect : Obligations.CommandsWithoutEffect :=
  ⟨exec_of_dead,
    fun _ h => ⟨exec_powerLoss_of_off h, exec_sillageWrite_of_off h, exec_timewrap_of_off h⟩,
    fun _ f h => exec_powerOn_of_on f h,
    exec_hubOnly_of_not_hub⟩

end Sys2Proof.Machine
end

section
/-! SUPPORT. Commit groups (R52 to R54) and plain register writes (R24): what a write of a CG register, COMMIT, ABORT, a
landing and the IDLE hold do to the shadow, the groups and the registers. -/

namespace Sys2Proof.Machine

/-! ### Bits and fields of a word with one bit put -/

theorem putBit_getLsbD {w : Nat} (x : BitVec w) (i j : Nat) (b : Bool) :
    (putBit x i b).getLsbD j = if j = i then decide (i < w) && b else x.getLsbD j := by
  have hone : (BitVec.ofNat w (1 <<< i)).getLsbD j = (decide (j < w) && decide (i = j)) := by
    rw [BitVec.getLsbD_ofNat, Nat.one_shiftLeft, Nat.testBit_two_pow]
  have hlt : x.getLsbD j = true → j < w := BitVec.lt_of_getLsbD
  cases b with
  | false =>
    rw [putBit, if_neg Bool.false_ne_true, BitVec.getLsbD_and, BitVec.getLsbD_not, hone]
    by_cases hj : j = i
    · simp [hj]
    · simpa [hj, Ne.symm hj] using hlt
  | true =>
    rw [putBit, if_pos rfl, BitVec.getLsbD_or, hone]
    by_cases hj : j = i
    · simpa [hj] using hj ▸ hlt
    · simp [hj, Ne.symm hj]

/-- A field that does not hold the bit put stands. -/
theorem fld_putBit_other {w : Nat} (x : BitVec w) {i lo len : Nat} (b : Bool) (h : i < lo ∨ lo + len ≤ i) :
    fld (putBit x i b) lo len = fld x lo len := by
  apply Nat.eq_of_testBit_eq
  intro k
  rw [fld_testBit, fld_testBit, putBit_getLsbD]
  by_cases hk : k < len
  · rw [if_neg (by omega)]
  · simp [hk]

theorem bit_putBit_same {w : Nat} (x : BitVec w) {i : Nat} (b : Bool) (h : i < w) : bit (putBit x i b) i = b := by
  rw [bit, putBit_getLsbD, if_pos rfl, decide_eq_true h, Bool.true_and]

theorem bit_putBit_other {w : Nat} (x : BitVec w) {i j : Nat} (b : Bool) (h : j ≠ i) :
    bit (putBit x i b) j = bit x j := by
  rw [bit, putBit_getLsbD, if_neg h, bit]

/-! ### Keyed lists -/

@[simp] theorem kvGet_kvSet_same {α : Type} (l : List (Nat × α)) (a : Nat) (v : α) : kvGet (kvSet l a v) a = some v := by
  induction l with
  | nil => simp [kvSet, kvGet]
  | cons e r ih =>
    obtain ⟨k, w⟩ := e
    by_cases hlt : a < k
    · simp [kvSet, kvGet, hlt]
    · by_cases heq : a = k
      · simp [kvSet, kvGet, heq]
      · simp [kvSet, kvGet, hlt, heq, ih]

theorem kvGet_eq_none {α : Type} {l : List (Nat × α)} {a : Nat} (h : a ∉ l.map Prod.fst) : kvGet l a = none := by
  induction l with
  | nil => rfl
  | cons e r ih =>
    obtain ⟨k, w⟩ := e
    rw [List.map_cons, List.mem_cons, not_or] at h
    rw [kvGet, if_neg h.1, ih h.2]

/-- A list filtered by its keys holds at a key what it held, where the filter keeps the key. -/
theorem kvGet_filter {α : Type} (c : Nat → Bool) (l : List (Nat × α)) (a : Nat) :
    kvGet (l.filter (fun e => c e.1)) a = if c a then kvGet l a else none := by
  induction l with
  | nil => simp [kvGet]
  | cons e r ih =>
    obtain ⟨k, w⟩ := e
    by_cases ha : a = k
    · subst ha
      cases hc : c a <;> simp [kvGet, hc, ih]
    · cases hc : c k <;> simp [kvGet, hc, ha, ih]

/-! ### Settling with nothing held -/

/-- With no request, access or step held, nothing enters the queues. -/
theorem Dev.settleN_of_calm (n : Nat) {d : Dev} (h : d.calm) : Dev.settleN n d = d := by
  obtain ⟨hheld, hops, hjobs⟩ := h
  have hround : (Dev.admitList d.txn.held [] [] d).jobsEnd.tierAdvance = d := by
    simp [hheld, Dev.admitList, Dev.jobsEnd, hjobs, Dev.each, Dev.tierAdvance, hops, Dev.tierRun]
  induction n with
  | zero => rfl
  | succ n ih => rw [Dev.settleN, hround, ih]

theorem Dev.enterQueues_of_calm {d : Dev} (h : d.calm) : d.enterQueues = d := Dev.settleN_of_calm 4 h

/-! ### Registers outside the commit groups -/

/-- The register at `a` has no CG bits. -/
def noCg (a : Nat) : Bool := (regSpec a).all (fun sp => sp.cg = 0)

theorem inGroup_of_noCg {a : Nat} (g i : Nat) (h : noCg a = true) : inGroup g i a = false := by
  unfold noCg at h
  unfold inGroup
  cases hsp : regSpec a with
  | none => rfl
  | some sp =>
    have hcg : sp.cg = 0 := by simpa [hsp] using h
    simp [hcg]

theorem ne_of_inGroup {g i a b : Nat} (ha : inGroup g i a = true) (hb : noCg b = true) : a ≠ b := by
  rintro rfl
  rw [inGroup_of_noCg g i hb] at ha
  cases ha

theorem noCg_of_inGroup {g i a : Nat} (ha : inGroup g i a = true) : noCg a = false :=
  Bool.eq_false_iff.mpr fun hb => ne_of_inGroup ha hb rfl

theorem noCg_cgState : ∀ g : Fin 9, noCg (A.cgState g.val) = true := by decide

theorem noCg_calTrim : ∀ (p : Fin 4) (j : Fin 2), noCg (A.calTrim p.val j.val) = true := by decide

theorem noCg_calStatus : ∀ p : Fin 4, noCg (A.calStatus p.val) = true := by decide

theorem noCg_budgetSum : noCg A.budgetSum = true := by decide

theorem noCg_accStatus : noCg A.accStatus = true := by decide

/-! ### Writes of CG registers (R53, R54) -/

theorem Dev.cgWrite_of_pend {d : Dev} {a : Nat} {v : Word} {sp : RegSpec} (hsp : regSpec a = some sp) (hcg : sp.cg ≠ 0)
    (hp : d.cg[grpNo sp.grp].isPend sp.inst = true) : d.cgWrite a v = d.setFld (A.cgState sp.grp) 40 1 1 := by
  simp only [Dev.cgWrite, hsp, hcg, hp, if_true, if_false]

theorem Dev.cgWrite_of_not_pend {d : Dev} {a : Nat} {v : Word} {sp : RegSpec} (hsp : regSpec a = some sp) (hcg : sp.cg ≠ 0)
    (hp : d.cg[grpNo sp.grp].isPend sp.inst = false) :
    d.cgWrite a v = { d.modCg (grpNo sp.grp) (fun x => { x with opened := putBit x.opened sp.inst true }) with
      shadow := kvSet d.shadow a ((((kvGet d.shadow a).getD (d.reg a)) &&& ~~~ sp.cg) ||| (v &&& sp.cg)) } := by
  simp only [Dev.cgWrite, hsp, hcg, hp, if_false, Bool.false_eq_true]

theorem exec_cgWrite (m : Master) (a : BitVec 24) (v : Word) {s : State} (h : s.dev.live = true) :
    exec (.cgWrite m a v) s = .next { s with dev := s.dev.cgWrite a.toNat v } := devNext_of_live _ h

/-- While the unit is pending, a write only raises the group's error flag. -/
theorem cgWrite_pending (s : State) (m : Master) (a : BitVec 24) (v : Word) (sp : RegSpec) (h : s.dev.live = true)
    (hsp : regSpec a.toNat = some sp) (hcg : sp.cg ≠ 0) (hp : s.dev.cg[grpNo sp.grp].isPend sp.inst = true) :
    ∃ d : Dev, exec (.cgWrite m a v) s = .next { s with dev := d } ∧
      d = { s.dev with rf := d.rf } ∧ d.fldR (A.cgState sp.grp) 40 1 = 1 ∧ s.dev.regsBut d [A.cgState sp.grp] := by
  refine ⟨s.dev.setFld (A.cgState sp.grp) 40 1 1, ?_, rfl, ?_, fun b hb => ?_⟩
  · rw [exec_cgWrite m a v h, Dev.cgWrite_of_pend hsp hcg hp]
  · exact s.dev.fldR_setFld_same _ 40 1 1 (by decide) (by decide)
  · rw [Dev.reg_setFld, if_neg (by simpa using hb)]

/-- While the unit is not pending, a write opens it and goes to the shadow. -/
theorem cgWrite_shadow (s : State) (m : Master) (a : BitVec 24) (v : Word) (sp : RegSpec) (h : s.dev.live = true)
    (hsp : regSpec a.toNat = some sp) (hcg : sp.cg ≠ 0) (hi : sp.inst < 16)
    (hp : s.dev.cg[grpNo sp.grp].isPend sp.inst = false) :
    ∃ d : Dev, exec (.cgWrite m a v) s = .next { s with dev := d } ∧ d.rf = s.dev.rf ∧
      (d.cg[grpNo sp.grp]).isOpen sp.inst = true ∧ kvGet d.shadow a.toNat =
        some ((((kvGet s.dev.shadow a.toNat).getD (s.dev.reg a.toNat)) &&& ~~~ sp.cg) ||| (v &&& sp.cg)) := by
  refine ⟨_, exec_cgWrite m a v h, ?_⟩
  rw [Dev.cgWrite_of_not_pend hsp hcg hp]
  refine ⟨rfl, ?_, kvGet_kvSet_same _ _ _⟩
  simp only [Dev.modCg_cg_same]
  exact bit_putBit_same _ _ hi

/-- Once a unit's shadow is discarded, the shadow holds none of its registers. -/
theorem Dev.kvGet_cgDrop (d : Dev) {g i a : Nat} (h : inGroup g i a = true) : kvGet (d.cgDrop g i).shadow a = none := by
  rw [Dev.cgDrop, kvGet_filter (fun k => !inGroup g i k), h]
  rfl

/-! ### COMMIT and ABORT (R53, R54, log 59) -/

theorem groupSize_le (g : Nat) : groupSize g ≤ 16 := by
  unfold groupSize
  split_ifs <;> decide

/-- A write of CG_COMMIT that names one unit, while an Accord is applied (Table 2.14). -/
theorem Dev.cgCommitWrite_one {d : Dev} {v : Word} (b : Bool) (hacc : d.fldR A.accStatus 20 4 = 2) (hlo : 1 ≤ fld v 0 8)
    (hhi : fld v 0 8 ≤ 8) (hone : bit v 15 = false) (hi : fld v 8 7 < groupSize (fld v 0 8)) :
    d.cgCommitWrite (putBit v 16 b) = d.cgCommitOne (fld v 0 8) b (fld v 8 7) := by
  have hg : fld (putBit v 16 b) 0 8 = fld v 0 8 := fld_putBit_other v b (by decide)
  have hinst : fld (putBit v 16 b) 8 7 = fld v 8 7 := fld_putBit_other v b (by decide)
  have hall : bit (putBit v 16 b) 15 = false := (bit_putBit_other v b (by decide)).trans hone
  have hop : bit (putBit v 16 b) 16 = b := bit_putBit_same v b (by decide)
  simp [Dev.cgCommitWrite, hg, hinst, hall, hop, hacc, within, hlo, hhi, hi, Dev.each]

section
variable {d : Dev} {g i : Nat} (hp : d.cg[grpNo g].isPend i = false)
include hp

theorem Dev.cgCommitOne_open (ho : d.cg[grpNo g].isOpen i = true) : d.cgCommitOne g false i =
    d.modCg (grpNo g) (fun y => { y with opened := putBit y.opened i false, pend := putBit y.pend i true }) := by
  simp only [Dev.cgCommitOne, hp, ho, if_true, if_false, Bool.false_eq_true]

theorem Dev.cgCommitOne_empty (ho : d.cg[grpNo g].isOpen i = false) : d.cgCommitOne g false i =
    d.modCg (grpNo g) (fun y => { y with emptyCommit := i :: y.emptyCommit }) := by
  simp only [Dev.cgCommitOne, hp, ho, if_false, Bool.false_eq_true]

theorem Dev.cgAbortOne_open (ho : d.cg[grpNo g].isOpen i = true) : d.cgCommitOne g true i =
    (d.cgDrop g i).modCg (grpNo g) (fun y => { y with opened := putBit y.opened i false }) := by
  simp only [Dev.cgCommitOne, hp, ho, if_true, if_false, Bool.false_eq_true]

theorem Dev.cgAbortOne_empty (ho : d.cg[grpNo g].isOpen i = false) : d.cgCommitOne g true i = d := by
  simp only [Dev.cgCommitOne, hp, ho, if_true, if_false, Bool.false_eq_true]

/-- COMMIT acts on the commit groups alone: an open unit becomes pending, one that follows counts once more (log 59). -/
theorem Dev.cgCommitOne_commit (hi : i < 16) : d.cgCommitOne g false i = { d with cg := (d.cgCommitOne g false i).cg } ∧
    (d.cg[grpNo g].isOpen i = true → ((d.cgCommitOne g false i).cg[grpNo g]).isPend i = true ∧
      ((d.cgCommitOne g false i).cg[grpNo g]).isOpen i = false) ∧
    (d.cg[grpNo g].isOpen i = false → ((d.cgCommitOne g false i).cg[grpNo g]).emptyCommit.count i =
      d.cg[grpNo g].emptyCommit.count i + 1) := by
  cases ho : d.cg[grpNo g].isOpen i with
  | true =>
    rw [Dev.cgCommitOne_open hp ho]
    refine ⟨rfl, fun _ => ?_, fun h => by cases h⟩
    rw [Dev.modCg_cg_same]
    exact ⟨bit_putBit_same _ _ hi, bit_putBit_same _ _ hi⟩
  | false =>
    rw [Dev.cgCommitOne_empty hp ho]
    refine ⟨rfl, (fun h => by cases h), fun _ => ?_⟩
    rw [Dev.modCg_cg_same]
    exact List.count_cons_self

/-- ABORT closes the unit and discards its shadow. -/
theorem Dev.cgCommitOne_abort (hi : i < 16) : (d.cgCommitOne g true i).rf = d.rf ∧
    ((d.cgCommitOne g true i).cg[grpNo g]).isOpen i = false ∧
    (d.cg[grpNo g].isOpen i = true → ∀ a, inGroup g i a = true → kvGet (d.cgCommitOne g true i).shadow a = none) := by
  cases ho : d.cg[grpNo g].isOpen i with
  | true =>
    rw [Dev.cgAbortOne_open hp ho]
    refine ⟨rfl, ?_, fun _ a ha => d.kvGet_cgDrop ha⟩
    rw [Dev.modCg_cg_same]
    exact bit_putBit_same _ _ hi
  | false =>
    rw [Dev.cgAbortOne_empty hp ho]
    exact ⟨rfl, ho, fun h => by cases h⟩

end

theorem exec_cgCommit (m : Master) (v : Word) {s : State} (h : s.dev.live = true) :
    exec (.cgCommit m v) s = .next { s with dev := s.dev.cgCommitWrite (putBit v 16 false) } := devNext_of_live _ h

theorem exec_cgAbort (m : Master) (v : Word) {s : State} (h : s.dev.live = true) :
    exec (.cgAbort m v) s = .next { s with dev := s.dev.cgCommitWrite (putBit v 16 true) } := devNext_of_live _ h

/-! ### Landing (R53, R54) -/

/-- `y` is `x` but for registers without CG bits and the QOS windows. -/
def Dev.onlyPlainRegs (x y : Dev) : Prop :=
  (∃ rf qos, y = { x with rf := rf, qos := qos }) ∧ ∀ a, noCg a = false → y.reg a = x.reg a

theorem Dev.onlyPlainRegs_refl (d : Dev) : d.onlyPlainRegs d := ⟨⟨d.rf, d.qos, rfl⟩, fun _ _ => rfl⟩

theorem Dev.onlyPlainRegs.trans {x y z : Dev} (h : x.onlyPlainRegs y) (k : y.onlyPlainRegs z) : x.onlyPlainRegs z := by
  obtain ⟨⟨_, _, rfl⟩, hreg⟩ := h
  obtain ⟨⟨rf, qos, rfl⟩, kreg⟩ := k
  exact ⟨⟨rf, qos, rfl⟩, fun a ha => (kreg a ha).trans (hreg a ha)⟩

theorem Dev.onlyPlainRegs_setReg (d : Dev) {a : Nat} (v : Word) (h : noCg a = true) : d.onlyPlainRegs (d.setReg a v) := by
  refine ⟨⟨_, _, rfl⟩, fun b hb => ?_⟩
  have hne : b ≠ a := by rintro rfl; rw [h] at hb; cases hb
  rw [Dev.reg_setReg, if_neg hne]

theorem Dev.onlyPlainRegs_setFld (d : Dev) {a : Nat} (lo len v : Nat) (h : noCg a = true) :
    d.onlyPlainRegs (d.setFld a lo len v) := d.onlyPlainRegs_setReg _ h

theorem Dev.trimSet_onlyPlainRegs (d : Dev) (p : Fin 4) (j : Fin 2) : d.onlyPlainRegs (d.trimSet p j) := by
  unfold Dev.trimSet
  dsimp only
  have htrim := fun v => d.onlyPlainRegs_setReg v (noCg_calTrim p j)
  split
  · exact (htrim _).trans (Dev.onlyPlainRegs_setFld _ _ _ _ (noCg_calStatus p))
  · exact htrim _

/-- What a landing brings with it leaves the CG registers. -/
theorem Dev.cgLanded_onlyPlainRegs (d : Dev) (g i : Nat) : d.onlyPlainRegs (d.cgLanded g i) := by
  unfold Dev.cgLanded
  split
  · exact (d.onlyPlainRegs_setReg _ noCg_budgetSum).trans (Dev.onlyPlainRegs_setFld _ _ _ _ noCg_accStatus)
  · exact (d.trimSet_onlyPlainRegs _ _).trans (Dev.trimSet_onlyPlainRegs _ _ _)
  · exact ⟨⟨d.rf, _, rfl⟩, fun _ _ => rfl⟩
  · exact d.onlyPlainRegs_refl

/-- Registers loaded from a list touch the register file alone. -/
theorem Dev.each_setReg_eq (l : List (Nat × Word)) (d : Dev) :
    ∃ rf, Dev.each (fun (e : Nat × Word) y => y.setReg e.1 e.2) l d = { d with rf := rf } := by
  induction l generalizing d with
  | nil => exact ⟨d.rf, rfl⟩
  | cons e r ih => exact ih (d.setReg e.1 e.2)

/-- A register loaded from a list without repeats reads as its entry. -/
theorem Dev.reg_each_setReg {l : List (Nat × Word)} (hnd : (l.map Prod.fst).Nodup) (d : Dev) (a : Nat) :
    (Dev.each (fun (e : Nat × Word) y => y.setReg e.1 e.2) l d).reg a = (kvGet l a).getD (d.reg a) := by
  induction l generalizing d with
  | nil => rfl
  | cons e r ih =>
    obtain ⟨k, v⟩ := e
    obtain ⟨hk, hr⟩ := List.nodup_cons.mp hnd
    rw [Dev.each, ih hr, Dev.reg_setReg, kvGet]
    by_cases ha : a = k
    · rw [ha, kvGet_eq_none hk]
      simp
    · simp [ha]

/-- For a pending unit a commit waits. -/
theorem CgGroup.waits_ne_zero {x : CgGroup} {i : Nat} (h : x.isPend i = true) : x.waits i ≠ 0 := by
  simp [CgGroup.waits, h, b2n]

theorem grpNo_val (g : Fin 9) : grpNo g.val = g := Fin.ofNat_val_eq_self g

/-- The group after its unit `i` has landed. -/
def CgGroup.landed (x : CgGroup) (i : Nat) : CgGroup :=
  { x with pend := putBit x.pend i false, emptyCommit := x.emptyCommit.filter (· ≠ i), hold := putBit x.hold i false }

theorem CgGroup.landed_isPend (x : CgGroup) {i : Nat} (h : i < 16) : (x.landed i).isPend i = false := bit_putBit_same _ _ h

theorem CgGroup.landed_count (x : CgGroup) (i : Nat) : (x.landed i).emptyCommit.count i = 0 := by
  simp [CgGroup.landed, List.count_eq_zero]

/-- The landing of a pending unit touches the registers, the shadow and the group, and loads the unit's registers. -/
theorem Dev.cgLandSet_of_pend {d : Dev} {g : Fin 9} {i : Nat} (hp : d.cg[g].isPend i = true)
    (hnd : (d.shadow.map Prod.fst).Nodup) :
    (∃ rf, d.cgLandSet g.val i =
      { d with rf := rf, shadow := (d.cgDrop g.val i).shadow, cg := d.cg.set g (d.cg[g].landed i) }) ∧
    ∀ a, inGroup g.val i a = true → (d.cgLandSet g.val i).reg a = (kvGet d.shadow a).getD (d.reg a) := by
  obtain ⟨rf, hload⟩ := Dev.each_setReg_eq (d.shadow.filter (fun e => inGroup g.val i e.1)) d
  have hnd' : ((d.shadow.filter (fun e => inGroup g.val i e.1)).map Prod.fst).Nodup :=
    hnd.sublist (List.filter_sublist.map _)
  simp only [Dev.cgLandSet, grpNo_val, hp, if_true]
  refine ⟨?_, fun a ha => ?_⟩
  · rw [hload]
    exact ⟨_, rfl⟩
  · rw [Dev.reg_setFld, if_neg (ne_of_inGroup ha (noCg_cgState g)), Dev.modCg_reg]
    refine (Dev.reg_each_setReg hnd' d a).trans ?_
    rw [kvGet_filter (inGroup g.val i), if_pos ha]

/-- A landing that may take place, with nothing held. -/
theorem exec_cgLand {s : State} {g : Fin 9} {i : Fin 16} (h : s.dev.live = true) (hcalm : s.dev.calm)
    (hi : i.val < groupSize g.val) (hp : (s.dev.cg[g]).isPend i.val = true) (hrun : s.dev.cgPaused g.val i.val = false)
    (hb : s.dev.cgBoundary g.val i.val = true) (hnd : (s.dev.shadow.map Prod.fst).Nodup) :
    exec (.cgLand g i) s = .next { s with dev := (s.dev.cgLandSet g.val i.val).cgLanded g.val i.val } := by
  have hw : (s.dev.cg[g]).waits i.val ≠ 0 := CgGroup.waits_ne_zero hp
  obtain ⟨⟨rf, hset⟩, -⟩ := Dev.cgLandSet_of_pend hp hnd
  obtain ⟨⟨rf', qos, hlanded⟩, -⟩ := (s.dev.cgLandSet g.val i.val).cgLanded_onlyPlainRegs g.val i.val
  have hcalm' : ((s.dev.cgLandSet g.val i.val).cgLanded g.val i.val).calm := by
    rw [hlanded, hset]
    exact hcalm
  refine (devNext_of_live _ h).trans ?_
  simp only [hi, if_true, Dev.cgLand, grpNo_val, hw, hrun, hb, hp, decide_false, Bool.not_true, Bool.or_self, if_false,
    Bool.false_eq_true, Dev.enterQueues_of_calm hcalm']

/-- A pending unit lands at its boundary: its registers take their shadow values, and its shadow is gone. -/
theorem cgLand_lands (s : State) (g : Fin 9) (i : Fin 16) (h : s.dev.live = true) (hcalm : s.dev.calm)
    (hi : i.val < groupSize g.val) (hp : (s.dev.cg[g]).isPend i.val = true) (hrun : s.dev.cgPaused g.val i.val = false)
    (hb : s.dev.cgBoundary g.val i.val = true) (hnd : (s.dev.shadow.map Prod.fst).Nodup) :
    ∃ d : Dev, exec (.cgLand g i) s = .next { s with dev := d } ∧ (d.cg[g]).isPend i.val = false ∧
      (∀ a w, kvGet s.dev.shadow a = some w → inGroup g.val i.val a = true → d.reg a = w) ∧
      (d.cg[g]).emptyCommit.count i.val = 0 ∧ ∀ a, inGroup g.val i.val a = true → kvGet d.shadow a = none := by
  refine ⟨_, exec_cgLand h hcalm hi hp hrun hb hnd, ?_⟩
  obtain ⟨⟨rf, hset⟩, hreg⟩ := Dev.cgLandSet_of_pend hp hnd
  obtain ⟨⟨rf', qos, hlanded⟩, hplain⟩ := (s.dev.cgLandSet g.val i.val).cgLanded_onlyPlainRegs g.val i.val
  have hcg : ((s.dev.cgLandSet g.val i.val).cgLanded g.val i.val).cg[g] = (s.dev.cg[g]).landed i.val := by
    rw [hlanded, hset]
    exact Vector.getElem_set_self _
  have hshadow : ((s.dev.cgLandSet g.val i.val).cgLanded g.val i.val).shadow = (s.dev.cgDrop g.val i.val).shadow := by
    rw [hlanded, hset]
  rw [hcg, hshadow]
  refine ⟨CgGroup.landed_isPend _ i.isLt, fun a w hw ha => ?_, CgGroup.landed_count _ _, fun a ha => s.dev.kvGet_cgDrop ha⟩
  rw [hplain a (noCg_of_inGroup ha), hreg a ha, hw]
  rfl

/-! ### The IDLE hold (R52) -/

theorem cgIdleHold_holds (s : State) (g : Fin 9) (i : Fin 16) (h : s.dev.live = true) (hg : g = 2 ∨ g = 4) (hi : i.val < 4)
    (hp : (s.dev.cg[g]).isPend i.val = true) : ∃ d : Dev, exec (.cgIdleHold g i) s = .next { s with dev := d } ∧
      d = { s.dev with cg := d.cg } ∧ (d.cg[g]).hold.getLsbD i.val = true := by
  have hw : (s.dev.cg[g]).waits i.val ≠ 0 := CgGroup.waits_ne_zero hp
  have hexec : exec (.cgIdleHold g i) s =
      .next { s with dev := s.dev.modCg g (fun y => { y with hold := putBit y.hold i.val true }) } := by
    refine (congrArg (devNext s) (if_pos ?_)).trans (devNext_of_live _ h)
    simp only [Bool.and_eq_true, Bool.or_eq_true, decide_eq_true_eq]
    exact ⟨⟨hg, hi⟩, hw⟩
  refine ⟨_, hexec, rfl, ?_⟩
  rw [Dev.modCg_cg_same]
  exact bit_putBit_same _ _ i.isLt

/-! ### Plain registers (R24) -/

/-- A write of a register without W1C bits: its RW bits take the value, the others stand. -/
theorem writeWord_write_getLsbD (m old v : Word) (i : Nat) :
    (writeWord (.write m) old v).getLsbD i = if m.getLsbD i then v.getLsbD i else old.getLsbD i := by
  have hw1c : v &&& (RegSpec.write m).w1c = 0 := BitVec.and_zero
  rw [writeWord, hw1c, BitVec.getLsbD_and, BitVec.getLsbD_or, BitVec.getLsbD_and, BitVec.getLsbD_and, BitVec.getLsbD_not,
    BitVec.getLsbD_not]
  by_cases hi : i < 48
  · change ((old.getLsbD i && (decide (i < 48) && !m.getLsbD i) || v.getLsbD i && m.getLsbD i) && _) = _
    cases m.getLsbD i <;> simp [hi]
  · simp [BitVec.getLsbD_of_ge _ i (Nat.not_lt.mp hi)]

/-- A field within the bits that software writes reads as written. -/
theorem fld_writeWord_in {lo len : Nat} (old v : Word) (lo' len' : Nat) (h : 0 < len) (hl : lo + len ≤ 48)
    (hin : lo ≤ lo' ∧ lo' + len' ≤ lo + len) :
    fld (writeWord (.write (ones (lo + len - 1) lo)) old v) lo' len' = fld v lo' len' := by
  apply Nat.eq_of_testBit_eq
  intro k
  rw [fld_testBit, fld_testBit, writeWord_write_getLsbD, ones_getLsbD lo len _ h hl]
  by_cases hk : k < len'
  · have hin' : lo ≤ lo' + k ∧ lo' + k < lo + len := by omega
    simp [hin']
  · simp [hk]

/-- A field apart from the bits that software writes stands. -/
theorem fld_writeWord_out {lo len : Nat} (old v : Word) (lo' len' : Nat) (h : 0 < len) (hl : lo + len ≤ 48)
    (hout : lo' + len' ≤ lo ∨ lo + len ≤ lo') :
    fld (writeWord (.write (ones (lo + len - 1) lo)) old v) lo' len' = fld old lo' len' := by
  apply Nat.eq_of_testBit_eq
  intro k
  rw [fld_testBit, fld_testBit, writeWord_write_getLsbD, ones_getLsbD lo len _ h hl]
  by_cases hk : k < len'
  · have hout' : ¬ (lo ≤ lo' + k ∧ lo' + k < lo + len) := by omega
    simp [hout']
  · simp [hk]

/-- What software may do to RET (Table 6.8). -/
def retSpec : RegSpec := .write (ones 15 0)

theorem regSpec_ret : regSpec A.ret = some retSpec := by decide

/-- A write of RET is a plain one, whoever writes. -/
theorem State.writeReg_ret (s : State) (m : Master) (v : Word) :
    s.writeReg m A.ret v = { s with dev := s.dev.plainWrite retSpec A.ret v } := by
  rw [State.writeReg, regSpec_ret]
  rfl

theorem afterOf_ret (v : Word) : afterOf A.ret v = none := by
  simp [afterOf, show A.ret ≠ A.fullReset by decide, show A.ret ≠ A.linkCtl by decide, show A.ret ≠ A.pwrCtl by decide]

theorem State.writeNow_ret (s : State) (m : Master) (v : Word) :
    s.writeNow m A.ret v = { s with dev := s.dev.plainWrite retSpec A.ret v } := by
  simp only [State.writeNow, afterOf_ret, s.writeReg_ret]

theorem Dev.plainWrite_regsBut (d : Dev) (sp : RegSpec) (a : Nat) (v : Word) : d.regsBut (d.plainWrite sp a v) [a] := by
  intro b hb
  rw [Dev.plainWrite, Dev.reg_setReg, if_neg (by simpa using hb)]

/-- A write of RET sets its bits [15:0]. -/
theorem Dev.fldR_plainWrite_ret (d : Dev) (v : Word) : (d.plainWrite retSpec A.ret v).fldR A.ret 0 16 = fld v 0 16 := by
  rw [Dev.fldR, Dev.plainWrite, Dev.reg_setReg, if_pos rfl]
  exact fld_writeWord_in (lo := 0) (len := 16) _ _ 0 16 (by decide) (by decide) (by decide)

/-- A write of RET leaves its bits [47:16]. -/
theorem Dev.fldR_plainWrite_ret_high (d : Dev) (v : Word) :
    (d.plainWrite retSpec A.ret v).fldR A.ret 16 32 = d.fldR A.ret 16 32 := by
  rw [Dev.fldR, Dev.plainWrite, Dev.reg_setReg, if_pos rfl]
  exact fld_writeWord_out (lo := 0) (len := 16) _ _ 16 32 (by decide) (by decide) (by decide)

theorem ret_toNat : (BitVec.ofNat 24 A.ret).toNat = A.ret := by decide

/-- A register write of RET from any master. -/
theorem exec_regWrite_ret {s : State} (m : Master) (v : Word) (h : s.dev.live = true) (hopen : s.dev.regOpen = true) :
    exec (.regWrite m (BitVec.ofNat 24 A.ret) v) s = .next { s with dev := s.dev.plainWrite retSpec A.ret v } := by
  rw [exec_regWrite, stNext_of_live _ h, if_pos hopen, ret_toNat, s.writeNow_ret]

/-- Settles O54, from a write of a CG register, the commit and the abort of one unit, the landing of a pending one, the IDLE
hold, and a write of RET. -/
theorem commitGroups : Obligations.CommitGroups := by
  refine ⟨fun s m a v sp h hsp hcg hi => ⟨cgWrite_pending s m a v sp h hsp hcg, cgWrite_shadow s m a v sp h hsp hcg hi⟩,
    fun s m v h hacc hlo hhi hone hlt => ?_, cgLand_lands, cgIdleHold_holds, fun s m v h hopen => ?_⟩
  · intro g i hp
    have hi : i < 16 := hlt.trans_le (groupSize_le _)
    refine ⟨⟨_, exec_cgCommit m v h, ?_⟩, ⟨_, exec_cgAbort m v h, ?_⟩⟩
    · rw [Dev.cgCommitWrite_one false hacc hlo hhi hone hlt]
      exact Dev.cgCommitOne_commit hp hi
    · rw [Dev.cgCommitWrite_one true hacc hlo hhi hone hlt]
      exact Dev.cgCommitOne_abort hp hi
  · exact ⟨_, exec_regWrite_ret m v h hopen, rfl, s.dev.fldR_plainWrite_ret v, s.dev.fldR_plainWrite_ret_high v,
      s.dev.plainWrite_regsBut _ _ _⟩

end Sys2Proof.Machine
end

section
/-! SUPPORT. Register requests of the hub (R23, R97, R104): what accepting one does, what its access reads and writes, and
how it is answered. -/

namespace Sys2Proof.Machine

/-! ### What registers read does not depend on the requests held -/

/-- The device with `l` in place of the requests and accesses held. -/
def Dev.withHeld (d : Dev) (l : List Held) : Dev := d.modTxn (fun x => { x with held := l })

section
variable {d : Dev} {l : List Held} (h : l.filter (fun h => h.taken) = d.txn.held.filter (fun h => h.taken))
include h

/-- Only what was taken behind a locked line uses entries of a port (R105). -/
theorem Dev.takenAt_withHeld (p : Fin 4) : (d.withHeld l).takenAt p = d.takenAt p := by
  have hheld : (d.withHeld l).txn.held.filter (fun h => h.taken) = d.txn.held.filter (fun h => h.taken) := h
  simp only [Dev.takenAt, hheld]
  rfl

theorem Dev.readSched_withHeld (p : Fin 4) (x : Nat) (v : Word) : (d.withHeld l).readSched p x v = d.readSched p x v := by
  have htaken := Dev.takenAt_withHeld h p
  have hrd : (d.withHeld l).rdUse p = d.rdUse p := by simp only [Dev.rdUse, htaken]; rfl
  have hwr : (d.withHeld l).occupancy p = d.occupancy p := by simp only [Dev.occupancy, Dev.wrUse, htaken]; rfl
  have hover : ∀ n, (d.withHeld l).overBudget p n = d.overBudget p n := by
    intro n
    simp only [Dev.overBudget, Dev.noteCount, htaken]
    rfl
  simp only [Dev.readSched, hrd, hwr, hover]
  rfl

end

/-- A register reads the same whatever is held, as long as the same requests were taken behind a locked line. -/
theorem State.readReg_withHeld {s : State} {l : List Held}
    (h : l.filter (fun h => h.taken) = s.dev.txn.held.filter (fun h => h.taken)) (a : Nat) :
    State.readReg { s with dev := s.dev.withHeld l } a = s.readReg a := by
  simp only [State.readReg, Dev.readSched_withHeld h]
  rfl

/-! ### Tracks and answers (R114 to R116) -/

/-- The track of a request accepted with the link up. -/
def newTrack (vc : Vc) (tag : BitVec 12) : Track :=
  { vc := vc, tag := tag, executed := false, built := false, dead := false, seq := none }

/-- The message of VC M that carries an RSP_M. -/
def rspMsg (tag : BitVec 12) (slots : List Slot) : OutMsg :=
  { vc := .m, tag := tag, resync := false, started := false, slots := slots }

theorem Dev.openTrack_of_none {d : Dev} (vc : Vc) (tag : BitVec 12) (ht : d.txn.track = []) (hup : d.link.st = .up) :
    d.openTrack vc tag = d.modTxn (fun x => { x with track := [newTrack vc tag] }) := by
  simp [Dev.openTrack, Dev.modTxn, ht, hup, newTrack]

/-- The track of a request that is executed, with its response built. -/
def doneTrack (vc : Vc) (tag : BitVec 12) : Track := { newTrack vc tag with executed := true, built := true }

theorem Dev.markExec_newTrack {d : Dev} {vc : Vc} {tag : BitVec 12} (ht : d.txn.track = [newTrack vc tag]) :
    d.markExec vc tag = d.modTxn (fun x => { x with track := [{ newTrack vc tag with executed := true }] }) := by
  simp [Dev.markExec, Dev.modTxn, modFirst, Track.isNew, ht, newTrack]

theorem Dev.attnValue_withTxn (d : Dev) (x : Txn) : { d with txn := x }.attnValue = d.attnValue := rfl

/-- The response of the one request tracked, just executed: its message joins VC M. -/
theorem Dev.respond_newTrack {d : Dev} {tag : BitVec 12} (mk : Nat → List Slot) (ht : d.txn.track = [newTrack .m tag]) :
    d.respond .m tag false mk =
      d.modTxn (fun x => { x with track := [doneTrack .m tag], outM := x.outM ++ [rspMsg tag (mk d.attnValue)] }) := by
  have hmark := Dev.markExec_newTrack ht
  simp [Dev.respond, Dev.respondWith, ht, hmark, Dev.modTxn, Dev.attnValue_withTxn, Dev.sendMsg, modFirst, newTrack,
    doneTrack, rspMsg]

/-- The answer of a burst that R23 covers, to the one request tracked. -/
theorem Dev.answerM_newTrack {d : Dev} {r : Req} (w : Bool) {a : BitVec 24} {n : BitVec 4} (vals : List Word)
    (hplain : burstPlain a.toNat n.toNat = true) (ht : d.txn.track = [newTrack .m r.tag]) :
    d.answerM r w a n vals =
      let slots := rspM r.tag r.src (if n = 0 then .noop else .ok) n w (if w then [] else vals) d.attnValue
      d.modTxn (fun x => { x with track := [doneTrack .m r.tag], outM := x.outM ++ [rspMsg r.tag slots] }) := by
  rw [Dev.answerM, if_pos hplain, Dev.respond_newTrack _ ht]

/-! ### Bursts (R23) -/

theorem burstPlain_zero (a : BitVec 24) : burstPlain a.toNat 0 = true := by
  simp [burstPlain, a.isLt.le]

theorem burstPlain_ret : burstPlain (BitVec.ofNat 24 A.ret).toNat (1 : BitVec 4).toNat = true := by decide

/-- The words of a burst write of RET alone. -/
theorem burstWords_ret (v : Word) : (List.range (1 : BitVec 4).toNat).map
    (fun k => ((BitVec.ofNat 24 A.ret).toNat + k, [v].getD k 0)) = [(A.ret, v)] := rfl

/-- A burst write of RET alone writes it and asks for nothing after its completion. -/
theorem State.writeBurst_ret (s : State) (v : Word) :
    s.writeBurst true [(A.ret, v)] = ({ s with dev := s.dev.plainWrite retSpec A.ret v }, []) := by
  have hmod : A.ret % 16777216 = A.ret := by decide
  simp [State.writeBurst, hmod, s.writeReg_ret, afterOf_ret]

theorem Dev.afterWrites_nil (d : Dev) (tag : BitVec 12) : d.afterWrites tag [] = d := by
  simp [Dev.afterWrites, Dev.modTxn]

/-- A write of RET leaves the attention code. -/
theorem Dev.plainWrite_ret_attnValue (d : Dev) (v : Word) : (d.plainWrite retSpec A.ret v).attnValue = d.attnValue := by
  have hfld : (d.plainWrite retSpec A.ret v).fldR A.attn 0 12 = d.fldR A.attn 0 12 :=
    congrArg (fld · 0 12) (d.plainWrite_regsBut _ _ _ A.attn (by decide))
  simp only [Dev.attnValue, Dev.attnPending, hfld]
  rfl

/-! ### The verdict on the one request held -/

/-- The request with its acceptance. -/
def Held.accept (h : Held) : Held := { h with accepted := true }

/-- The device once the one request held is accepted: tracked, and ready for its access. -/
def Dev.acceptM (d : Dev) (h : Held) : Dev := (d.openTrack .m h.r.tag).withHeld [h.accept]

theorem Dev.openTrack_held (d : Dev) (vc : Vc) (tag : BitVec 12) : (d.openTrack vc tag).txn.held = d.txn.held := by
  unfold Dev.openTrack
  split <;> rfl

theorem Dev.acceptM_regOpen (d : Dev) (h : Held) : (d.acceptM h).regOpen = d.regOpen := by
  unfold Dev.acceptM Dev.openTrack
  split <;> rfl

/-- A request leaves the list of those held, and at most its message the receive buffer. -/
theorem Dev.unhold_eq (d : Dev) (h : Held) :
    ∃ rx, d.unhold h = d.modTxn (fun x => { x with held := dropFirst (· = h) x.held, rx := rx }) := by
  unfold Dev.unhold Dev.rxDrop
  split
  · exact ⟨_, rfl⟩
  · exact ⟨_, rfl⟩

/-- VC M holds one request of the hub, which waits for its verdict. -/
structure Dev.awaits (d : Dev) (h : Held) : Prop where
  held : d.txn.held = [h]
  vc : h.vc = .m
  hub : h.isHub = true
  fresh : h.accepted = false
  untaken : h.taken = false

section
variable {s : State} {h : Held} (hw : s.dev.awaits h)
include hw

theorem Dev.awaits.find : s.dev.txn.held.find? (fun k => k.vc = .m && k.r.tag = h.r.tag && k.isHub && !k.accepted && !k.taken) =
    some h := by
  simp [hw.held, hw.vc, hw.hub, hw.fresh, hw.untaken]

/-- A request that is turned down goes, unanswered. -/
theorem State.verdictAt_refuse : s.verdictAt .m h.r.tag false = { s with dev := s.dev.withHeld [] } := by
  simp only [State.verdictAt, hw.find]
  simp [hw.held, dropFirst, Dev.modTxn, State.serveM, Dev.withHeld]

/-- A request that is accepted, while registers are served, has its access at once. -/
theorem State.verdictAt_accept (hopen : s.dev.regOpen = true) : s.verdictAt .m h.r.tag true =
    State.accessM { s with dev := s.dev.acceptM h } h.accept := by
  have hd : (s.dev.openTrack .m h.r.tag).modTxn
      (fun x => { x with held := modFirst (· = h) (fun y => { y with accepted := true }) x.held }) = s.dev.acceptM h := by
    simp [Dev.acceptM, Dev.withHeld, Dev.modTxn, Dev.openTrack_held, hw.held, modFirst, Held.accept]
  have hheld : (s.dev.acceptM h).txn.held = [h.accept] := rfl
  have hvc : h.accept.vc = .m := hw.vc
  have hserved : (s.dev.acceptM h).regOpen = true := (Dev.acceptM_regOpen _ _).trans hopen
  simp only [State.verdictAt, hw.find, if_true, hd, hheld, List.length_singleton, State.serveM]
  simp [hvc, hserved, show h.accept.accepted = true from rfl]

end

/-- Everything that the verdict of the one request held rests on: no other request is tracked, and the link is up. -/
structure Dev.awaitsAlone (d : Dev) (h : Held) : Prop extends d.awaits h where
  untracked : d.txn.track = []
  up : d.link.st = .up

section
variable {s : State} {h : Held} (hw : s.dev.awaitsAlone h)
include hw

/-- The device as the access of the request leaves the transaction unit, before the answer. -/
theorem Dev.acceptM_unhold : ∃ rx, (s.dev.acceptM h).unhold h.accept =
    s.dev.modTxn (fun x => { x with track := [newTrack .m h.r.tag], held := [], rx := rx }) := by
  obtain ⟨rx, hrx⟩ := (s.dev.acceptM h).unhold_eq h.accept
  refine ⟨rx, hrx.trans ?_⟩
  simp [Dev.acceptM, Dev.openTrack_of_none .m h.r.tag hw.untracked hw.up, Dev.withHeld, Dev.modTxn, dropFirst]

/-- Once the request is accepted, registers read as they do once it is tracked. -/
theorem State.readReg_acceptM (a : Nat) : State.readReg { s with dev := s.dev.acceptM h } a =
    State.readReg { s with dev := s.dev.openTrack .m h.r.tag } a := by
  refine State.readReg_withHeld (s := { s with dev := s.dev.openTrack .m h.r.tag }) ?_ a
  simp [Dev.openTrack_held, hw.held, hw.untaken, Held.accept]

/-- An accepted MRD of a burst that R23 covers is answered with the registers as they read once it is tracked. -/
theorem State.verdictAt_mrd (hopen : s.dev.regOpen = true) {a : BitVec 24} {n : BitVec 4} (hop : h.op = .mrd a n)
    (hplain : burstPlain a.toNat n.toNat = true) : ∃ d : Dev, s.verdictAt .m h.r.tag true = { s with dev := d } ∧
      d.rf = s.dev.rf ∧ d.txn.held = [] ∧ d.txn.outM = s.dev.txn.outM ++ [rspMsg h.r.tag (rspM h.r.tag h.r.src
        (if n = 0 then .noop else .ok) n false
        (State.readBurst { s with dev := s.dev.openTrack .m h.r.tag } a.toNat n.toNat) s.dev.attnValue)] := by
  obtain ⟨rx, hrx⟩ := Dev.acceptM_unhold hw
  have hburst : State.readBurst { s with dev := s.dev.acceptM h } a.toNat n.toNat =
      State.readBurst { s with dev := s.dev.openTrack .m h.r.tag } a.toNat n.toNat := by
    simp only [State.readBurst, State.readReg_acceptM hw]
  have haccess : s.verdictAt .m h.r.tag true =
      { s with
        dev := ((s.dev.acceptM h).unhold h.accept).answerM h.r false a n
          (State.readBurst { s with dev := s.dev.acceptM h } a.toNat n.toNat) } := by
    rw [State.verdictAt_accept hw.toawaits hopen, State.accessM, show h.accept.op = .mrd a n from hop]
    rfl
  rw [hburst, hrx, Dev.answerM_newTrack false _ hplain rfl] at haccess
  exact ⟨_, haccess, rfl, rfl, rfl⟩

/-- An accepted MWR of RET writes it and is answered. -/
theorem State.verdictAt_mwr_ret (hopen : s.dev.regOpen = true) {v : Word} (hop : h.op = .mwr (BitVec.ofNat 24 A.ret) 1 [v]) :
    ∃ d : Dev, s.verdictAt .m h.r.tag true = { s with dev := d } ∧ d.rf = (s.dev.plainWrite retSpec A.ret v).rf ∧
      d.txn.held = [] ∧ d.txn.outM = s.dev.txn.outM ++
        [rspMsg h.r.tag (rspM h.r.tag h.r.src .ok 1 true [] s.dev.attnValue)] := by
  obtain ⟨rx, hrx⟩ := Dev.acceptM_unhold hw
  have haccess : s.verdictAt .m h.r.tag true =
      { s with
        dev := (((s.dev.acceptM h).unhold h.accept).plainWrite retSpec A.ret v).answerM h.r true
          (BitVec.ofNat 24 A.ret) 1 [] } := by
    have hop' : h.accept.op = .mwr (BitVec.ofNat 24 A.ret) 1 [v] := hop
    rw [State.verdictAt_accept hw.toawaits hopen, State.accessM, hop']
    simp only [burstPlain_ret, burstWords_ret, State.writeBurst_ret, Dev.afterWrites_nil]
    rfl
  rw [hrx, Dev.answerM_newTrack true _ burstPlain_ret rfl, Dev.plainWrite_ret_attnValue] at haccess
  exact ⟨_, haccess, rfl, rfl, rfl⟩

end

/-- Settles O28, from the access that each accepted request has, and the refusal. -/
theorem registerRequestsAreServed : Obligations.RegisterRequestsAreServed := by
  intro s h hlive hopen hheld hvc hhub hfresh htaken _ htrack hup
  have hw : s.dev.awaitsAlone h :=
    { held := hheld, vc := hvc, hub := hhub, fresh := hfresh, untaken := htaken, untracked := htrack, up := hup }
  intro seen answers rsp
  have hexec (ok : Bool) : exec (.verdict .m h.r.tag ok) s = .next (s.verdictAt .m h.r.tag ok) := stNext_of_live _ hlive
  refine ⟨fun a n hop hn hplain => ?_, fun v hop => ?_, fun a hop => ?_, ?_⟩
  · obtain ⟨d, hd, hrf, hout⟩ := State.verdictAt_mrd hw hopen hop hplain
    rw [if_neg hn] at hout
    exact ⟨d, (hexec true).trans (congrArg _ hd), hrf, hout⟩
  · obtain ⟨d, hd, hrf, hout⟩ := State.verdictAt_mwr_ret hw hopen hop
    have hreg (b : Nat) : d.reg b = (s.dev.plainWrite retSpec A.ret v).reg b := congrArg (sget (regReset b) · b) hrf
    have hret : d.fldR A.ret 0 16 = fld v 0 16 := (congrArg (fld · 0 16) (hreg _)).trans (s.dev.fldR_plainWrite_ret v)
    have hothers : s.dev.regsBut d [A.ret] := fun b hb => (hreg b).trans (s.dev.plainWrite_regsBut _ _ _ b hb)
    exact ⟨d, (hexec true).trans (congrArg _ hd), hret, hothers, hout⟩
  · obtain ⟨d, hd, hrf, hout⟩ := State.verdictAt_mrd hw hopen hop (burstPlain_zero a)
    exact ⟨d, (hexec true).trans (congrArg _ hd), hrf, hout⟩
  · exact (hexec false).trans (congrArg _ (State.verdictAt_refuse hw.toawaits))

end Sys2Proof.Machine
end

section
/-! SUPPORT. The status of a request at decode (R42, R103, R104). -/

namespace Sys2Proof.Machine

/-- Without an Accord every request fails (R42). -/
theorem Dev.decideQ_of_noAccord {d : Dev} (r : Req) (op : Op) (h : d.noAccord = true) : d.decideQ r op = some .opfault :=
  if_pos h

/-- So does one outside the regions. -/
theorem Dev.decideQ_of_noRegion {d : Dev} {r : Req} (op : Op) (hr : d.lookupRegion r.line = none) :
    d.decideQ r op = some .opfault := by
  simp [Dev.decideQ, hr]

section
variable {d : Dev} {r : Req} {k : Nat} (hacc : d.noAccord = false) (hk : d.lookupRegion r.line = some k)
include hacc hk

theorem Dev.decideQ_of_maskZero {op : Op} (hm : op.maskZero = true) : d.decideQ r op = some .noop := by
  simp [Dev.decideQ, hacc, hk, hm]

/-- A read of a direct line in a LOST bank is LOST, before a fence or FATAL is looked at (R104). -/
theorem Dev.decideQ_of_bankLost {op : Op} (hm : op.maskZero = false) (hold : op.needsOld = true)
    (he : regionElastic d.cfg k = false) (hl : d.bankLost (addrMap d.cfg r.line) = true) : d.decideQ r op = some .lost := by
  simp [Dev.decideQ, hacc, hk, hm, hold, he, hl]

/-- What needs nothing of the line's old data is never LOST, so that FATAL and the fence alone decide. -/
theorem Dev.decideQ_of_not_needsOld {op : Op} (hm : op.maskZero = false) (hold : op.needsOld = false) : d.decideQ r op =
    if d.flt.fatal = true ∨ (regionElastic d.cfg k = false ∧ d.subFenced (locSub (addrMap d.cfg r.line)) = true)
    then some .poison else none := by
  cases hf : d.flt.fatal <;> simp [Dev.decideQ, hacc, hk, hm, hold, Dev.entLost, hf]

end

/-- Settles O29: the status by the absence of an Accord or a region, then by an empty mask, a LOST bank, FATAL and a fence. -/
theorem statusIsDecidedInOrder : Obligations.StatusIsDecidedInOrder := by
  intro d r op
  refine ⟨Dev.decideQ_of_noAccord r op, fun _ hr => Dev.decideQ_of_noRegion op hr, fun k l hacc hk hop => ?_,
    fun k hacc hk hop he hl => ?_, fun k l hacc hk hop hf => ?_, fun k l hacc hk hop hf hopen => ?_⟩
  · subst hop
    exact Dev.decideQ_of_maskZero hacc hk rfl
  · subst hop
    exact Dev.decideQ_of_bankLost hacc hk rfl rfl he hl
  · subst hop
    rw [Dev.decideQ_of_not_needsOld hacc hk rfl rfl, if_pos (.inl hf)]
  · subst hop
    rw [Dev.decideQ_of_not_needsOld hacc hk rfl rfl, if_neg]
    rintro (hfatal | ⟨he, hfenced⟩)
    · simp [hf] at hfatal
    · simp [he, hfenced] at hopen

end Sys2Proof.Machine
end

section
/-! SUPPORT. What leaves the registers of the ACCORD function alone; then load attempts and pushes (R38 to R42, R369). -/

namespace Sys2Proof.Machine

/-! ### Registers of the ACCORD function -/

section
variable {a : Nat} (ha : fnOf a = 0x01)
include ha

/-- A register of another function is not `a`. -/
theorem ne_of_fnOf {b : Nat} (hb : fnOf b ≠ 0x01) : a ≠ b := fun h => hb (h ▸ ha)

theorem Dev.reg_setFld_of_fnOf (d : Dev) {b : Nat} (lo len v : Nat) (hb : fnOf b ≠ 0x01) :
    (d.setFld b lo len v).reg a = d.reg a := by
  rw [Dev.reg_setFld, if_neg (ne_of_fnOf ha hb)]

theorem Dev.reg_sillPush (d : Dev) (ty : Nat) (coord : BitVec 16) (i : Nat) (data : Word) :
    (d.sillPush ty coord i data).reg a = d.reg a := by
  obtain ⟨_, _, he, hr⟩ := d.sillPush_eq ty coord i data
  rw [he]
  exact hr a (ne_of_fnOf ha (by decide))

theorem Dev.reg_raiseAttn (d : Dev) (c : Nat) : (d.raiseAttn c).reg a = d.reg a := by
  obtain ⟨_, _, he, hr⟩ := d.setAttn_eq (d.fldR A.attn 0 12 ||| 2 ^ c)
  rw [Dev.raiseAttn, he]
  exact hr a (ne_of_fnOf ha (by decide)) (ne_of_fnOf ha (by decide))

/-- Of the ACCORD function's registers the entry to the no-Accord state writes STATUS.STATE alone. -/
theorem Dev.reg_enterNoAccord (d : Dev) : d.enterNoAccord.reg a = (d.setFld A.accStatus 20 4 3).reg a := by
  have hattn : ((d.setFld A.accStatus 20 4 3).sillAccord.raiseAttn 11).reg a = (d.setFld A.accStatus 20 4 3).reg a :=
    (Dev.reg_raiseAttn ha _ _).trans (Dev.reg_sillPush ha _ _ _ _ _)
  refine Eq.trans ?_ hattn
  unfold Dev.enterNoAccord
  dsimp only
  split_ifs <;> rfl

end

theorem fnOf_accStatus : fnOf A.accStatus = 0x01 := by decide

theorem Dev.enterNoAccord_noAccord (d : Dev) : d.enterNoAccord.noAccord = true := by
  unfold Dev.enterNoAccord
  dsimp only
  split_ifs <;> rfl

theorem Dev.enterNoAccord_loader (d : Dev) : d.enterNoAccord.loader = .idle := by
  unfold Dev.enterNoAccord
  dsimp only
  split_ifs <;> rfl

/-- STATUS.STATE reads 3 in the no-Accord state (Table 2.8). -/
theorem Dev.enterNoAccord_state (d : Dev) : d.enterNoAccord.fldR A.accStatus 20 4 = 3 := by
  rw [Dev.fldR, Dev.reg_enterNoAccord fnOf_accStatus]
  exact d.fldR_setFld_same _ 20 4 3 (by decide) (by decide)

/-- The codes of STATUS stand when the no-Accord state begins. -/
theorem Dev.enterNoAccord_code (d : Dev) {lo : Nat} (len : Nat) (h : 24 ≤ lo) :
    d.enterNoAccord.fldR A.accStatus lo len = d.fldR A.accStatus lo len := by
  rw [Dev.fldR, Dev.reg_enterNoAccord fnOf_accStatus]
  exact d.fldR_setFld_other _ 20 4 3 _ _ (by decide) (by decide) (.inr h)

/-! ### The start of an attempt (R369) -/

theorem Dev.reg_attemptStart (d : Dev) : d.attemptStart.reg A.accStatus =
    put (put (put (put (d.reg A.accStatus) 20 4 1) 24 3 0) 27 1 0) 28 4 0 := by
  simp [Dev.attemptStart, show A.accStatus ≠ A.buildLo by decide, show A.accStatus ≠ A.buildHi by decide,
    show A.accStatus ≠ A.secver by decide, show A.accStatus ≠ A.budgetSum by decide]

/-- STATUS.STATE reads LOADING. -/
theorem Dev.attemptStart_state (d : Dev) : d.attemptStart.fldR A.accStatus 20 4 = 1 := by
  rw [Dev.fldR, Dev.reg_attemptStart, fld_put_other, fld_put_other, fld_put_other, fld_put_same] <;> decide

/-- The codes of STATUS stand when an attempt starts. -/
theorem Dev.attemptStart_code (d : Dev) {lo : Nat} (len : Nat) (h : 32 ≤ lo) :
    d.attemptStart.fldR A.accStatus lo len = d.fldR A.accStatus lo len := by
  rw [Dev.fldR, Dev.reg_attemptStart, fld_put_other, fld_put_other, fld_put_other, fld_put_other, Dev.fldR] <;> omega

/-- Registers and their fields read alike where the register files are the same. -/
theorem Dev.reg_of_rf {x y : Dev} (h : y.rf = x.rf) (a : Nat) : y.reg a = x.reg a := congrArg (sget (regReset a) · a) h

theorem Dev.fldR_of_rf {x y : Dev} (h : y.rf = x.rf) (a lo len : Nat) : y.fldR a lo len = x.fldR a lo len :=
  congrArg (fld · lo len) (Dev.reg_of_rf h a)

theorem State.fldR_flashAttempt (s : State) (slot second : Bool) (first : BitVec 8) (a lo len : Nat) :
    (s.flashAttempt slot second first).dev.fldR a lo len = s.dev.attemptStart.fldR a lo len :=
  Dev.fldR_of_rf rfl a lo len

/-- An attempt on a push is LOADING. -/
theorem State.pushAttempt_state (s : State) (src : BitVec 3) (opened : Bool) :
    (s.pushAttempt src opened).dev.fldR A.accStatus 20 4 = 1 :=
  (Dev.fldR_of_rf rfl A.accStatus 20 4).trans (Dev.attemptStart_state s.dev)

/-! ### Failed attempts (R38, R40, R42) -/

/-- Only the codes 5, 6 and 9 are reported as ACCORD_AUTH (Table 11.2). -/
theorem Dev.accordAuth_of_other (d : Dev) {c : BitVec 8} (h : c ∉ [(5 : BitVec 8), 6, 9]) : d.accordAuth c = d := by
  refine if_neg ?_
  simpa [or_assoc] using h

theorem Dev.fldR_setCode (d : Dev) {lo : Nat} (h : lo + 8 ≤ 48) (c : BitVec 8) :
    (d.setFld A.accStatus lo 8 c.toNat).fldR A.accStatus lo 8 = c.toNat := by
  rw [d.fldR_setFld_same _ _ _ _ (by decide) h, Nat.mod_eq_of_lt c.isLt]

/-- The second slot's code does not touch the first one's. -/
theorem Dev.fldR_setCodes (d : Dev) (c : BitVec 8) (v : Nat) :
    ((d.setFld A.accStatus 32 8 c.toNat).setFld A.accStatus 40 8 v).fldR A.accStatus 32 8 = c.toNat := by
  rw [Dev.fldR_setFld_other _ _ 40 8 _ 32 8 (by decide) (by decide) (by decide), Dev.fldR_setCode _ (by decide)]

section
variable {s : State} {c : BitVec 8} (hc : c ∉ [(5 : BitVec 8), 6, 9])
include hc

/-- A failed first flash slot is followed by the other one, its code kept (R38). -/
theorem State.loadFail_first (hsrc : s.dev.loader.src = 1) (hfirst : s.dev.loader.second = false) :
    (s.loadFail c).dev.loader.active = true ∧ (s.loadFail c).dev.loader.second = true ∧
      (s.loadFail c).dev.loader.slot = !s.dev.loader.slot ∧ (s.loadFail c).dev.loader.firstCode = c ∧
      (s.loadFail c).dev.loader.verdict =
        flashCheck s.fuses s.dev.side.flashOk (flashImage s.flash (!s.dev.loader.slot)) ∧
      (s.loadFail c).dev.fldR A.accStatus 32 8 = c.toNat ∧ (s.loadFail c).dev.fldR A.accStatus 20 4 = 1 := by
  have hfail : s.loadFail c = State.flashAttempt
      { s with dev := (s.dev.setFld A.accStatus 32 8 c.toNat).setFld A.accStatus 40 8 0 } (!s.dev.loader.slot) true c := by
    simp [State.loadFail, Dev.accordAuth_of_other _ hc, hsrc, hfirst]
  rw [hfail]
  exact ⟨rfl, rfl, rfl, rfl, rfl,
    (State.fldR_flashAttempt _ _ _ _ _ _ _).trans ((Dev.attemptStart_code _ 8 (by decide)).trans (Dev.fldR_setCodes _ _ _)),
    (State.fldR_flashAttempt _ _ _ _ _ _ _).trans (Dev.attemptStart_state _)⟩

/-- A failed second flash slot leads to the no-Accord state (R42). -/
theorem State.loadFail_second (hsrc : s.dev.loader.src = 1) (hsecond : s.dev.loader.second = true) :
    (s.loadFail c).dev.noAccord = true ∧ (s.loadFail c).dev.loader = .idle ∧
      (s.loadFail c).dev.fldR A.accStatus 40 8 = c.toNat ∧ (s.loadFail c).dev.fldR A.accStatus 20 4 = 3 := by
  have hfail : s.loadFail c = { s with dev := (s.dev.setFld A.accStatus 40 8 c.toNat).enterNoAccord } := by
    simp [State.loadFail, Dev.accordAuth_of_other _ hc, hsrc, hsecond]
  rw [hfail]
  exact ⟨Dev.enterNoAccord_noAccord _, Dev.enterNoAccord_loader _,
    (Dev.enterNoAccord_code _ 8 (by decide)).trans (Dev.fldR_setCode _ (by decide) c), Dev.enterNoAccord_state _⟩

/-- So does a failed push, its code the only one (R42). -/
theorem State.loadFail_push (hsrc : s.dev.loader.src ≠ 1) : (s.loadFail c).dev.noAccord = true ∧
    (s.loadFail c).dev.loader = .idle ∧ (s.loadFail c).dev.fldR A.accStatus 32 8 = c.toNat ∧
    (s.loadFail c).dev.fldR A.accStatus 40 8 = 0 ∧ (s.loadFail c).dev.fldR A.accStatus 20 4 = 3 := by
  have hfail : s.loadFail c =
      { s with dev := ((s.dev.setFld A.accStatus 32 8 c.toNat).setFld A.accStatus 40 8 0).enterNoAccord } := by
    have hnot : ¬ (s.dev.loader.src = 1 ∧ s.dev.loader.second = false) := fun h => hsrc h.1
    simp only [State.loadFail, Dev.accordAuth_of_other _ hc, Bool.and_eq_true, decide_eq_true_eq, Bool.not_eq_true',
      if_neg hnot, if_neg hsrc]
  rw [hfail]
  exact ⟨Dev.enterNoAccord_noAccord _, Dev.enterNoAccord_loader _,
    (Dev.enterNoAccord_code _ 8 (by decide)).trans (Dev.fldR_setCodes _ _ _),
    (Dev.enterNoAccord_code _ 8 (by decide)).trans (Dev.fldR_setFld_same _ _ 40 8 0 (by decide) (by decide)),
    Dev.enterNoAccord_state _⟩

end

/-- The command `i` ends the attempt under way with code `c`: the loader's verdict, or a time-out (R39, R40). -/
def State.failsWith (s : State) (i : Instr) (c : BitVec 8) : Prop :=
  i = .accordLoadFail ∧ s.dev.loader.verdict = some (.fail c) ∧ c ∉ [5, 6, 9] ∨
    i = .flashTimeout ∧ c = 16 ∧ s.dev.loader.src = 1 ∧ s.fuses.noLoad = false ∨
    i = .sourceTimeout ∧ c = 16 ∧ s.dev.loader.pushOpen = true ∧ s.dev.loader.verdict = none

theorem State.failsWith.code {s : State} {i : Instr} {c : BitVec 8} (h : s.failsWith i c) : c ∉ [(5 : BitVec 8), 6, 9] := by
  obtain ⟨_, _, hc⟩ | ⟨_, rfl, _⟩ | ⟨_, rfl, _⟩ := h
  · exact hc
  · decide
  · decide

theorem State.failsWith.exec {s : State} {i : Instr} {c : BitVec 8} (h : s.failsWith i c) (hlive : s.dev.live = true)
    (hact : s.dev.loader.active = true) : exec i s = .next (s.loadFail c) := by
  refine Eq.trans ?_ (stNext_of_live (s.loadFail c) hlive)
  obtain ⟨rfl, hv, _⟩ | ⟨rfl, rfl, hsrc, hload⟩ | ⟨rfl, rfl, hopen, hv⟩ := h
  · simp [Machine.exec, execAccordLoadFail, hv, hact]
  · simp [Machine.exec, execFlashTimeout, hact, hsrc, hload]
  · simp [Machine.exec, execSourceTimeout, hopen, hv]

/-! ### Pushes (R39, R345, R348) -/

/-- The command `i` asks for a push of source `src`: 2 VC M, 3 I3C. -/
def State.opensPush (s : State) (i : Instr) (src : BitVec 3) : Prop :=
  (∃ m v, i = .pushStart m v ∧ bit v 0 = true ∧ src = 2) ∨ i = .i3cPushOpen ∧ src = 3 ∧ s.dev.i3cOn = true

theorem State.opensPush.exec {s : State} {i : Instr} {src : BitVec 3} (h : s.opensPush i src) (hlive : s.dev.live = true) :
    exec i s = .next (s.pushOpen src) := by
  refine Eq.trans ?_ (stNext_of_live (s.pushOpen src) hlive)
  obtain ⟨m, v, rfl, hv, rfl⟩ | ⟨rfl, rfl, hon⟩ := h
  · exact congrArg (stNext s) (if_pos hv)
  · exact congrArg (stNext s) (if_pos hon)

/-- A push opens where the loader waits for it, from the selected source or in the no-Accord state. -/
theorem State.pushOpen_of_ready {s : State} {src : BitVec 3} (hready : s.dev.pushReady = true)
    (hsel : s.dev.noAccord = true ∨ s.dev.bootsel = if src = 2 then 1 else 2) : s.pushOpen src = s.pushAttempt src true := by
  refine if_pos ?_
  simpa [hready] using hsel

/-- The command `i` brings the bytes `bs` of a push of source `src`. -/
def State.bringsBytes (s : State) (i : Instr) (src : BitVec 3) (bs : List Byte) : Prop :=
  (∃ m v, i = .pushData m v ∧ bs = leBytes 6 v.toNat ∧ src = 2) ∨ i = .i3cPushData bs ∧ src = 3 ∧ s.dev.i3cOn = true

theorem State.bringsBytes.exec {s : State} {i : Instr} {src : BitVec 3} {bs : List Byte} (h : s.bringsBytes i src bs)
    (hlive : s.dev.live = true) : exec i s = .next (s.pushBytes src bs) := by
  refine Eq.trans ?_ (stNext_of_live (s.pushBytes src bs) hlive)
  obtain ⟨m, v, rfl, rfl, rfl⟩ | ⟨rfl, rfl, hon⟩ := h
  · rfl
  · exact congrArg (stNext s) (if_pos hon)

theorem State.pushBytes_of_open {s : State} {src : BitVec 3} (bs : List Byte) (hopen : s.dev.loader.pushOpen = true)
    (hsrc : s.dev.loader.src = src) (hv : s.dev.loader.verdict = none) : s.pushBytes src bs =
      { s with dev := { s.dev with loader := { s.dev.loader with
        push := s.dev.loader.push ++ bs, verdict := loadVerdict s.fuses (s.dev.loader.push ++ bs) } } } := by
  refine if_pos ?_
  simp [hopen, hsrc, hv]

/-- Settles O52, from the three ways in which an attempt fails, the opening of a push, and the bytes that it takes. -/
theorem loadAttempts : Obligations.LoadAttempts := by
  refine ⟨fun s i c hlive hact (h : s.failsWith i c) => ?_, fun s i src hlive hready (h : s.opensPush i src) hsel => ?_,
    fun s i src bs hlive (h : s.bringsBytes i src bs) hopen hsrc hv => ?_⟩
  · obtain ⟨d, hd⟩ := s.loadFail_onlyDev c
    exact ⟨s.loadFail c, h.exec hlive hact, by rw [hd], by rw [hd], by rw [hd], State.loadFail_first h.code,
      State.loadFail_second h.code, State.loadFail_push h.code⟩
  · rw [h.exec hlive, State.pushOpen_of_ready hready hsel]
    exact ⟨(s.pushAttempt src true).dev, rfl, rfl, rfl, rfl, rfl, rfl, s.pushAttempt_state src true⟩
  · rw [h.exec hlive, State.pushBytes_of_open bs hopen hsrc hv]

end Sys2Proof.Machine
end

section
/-! SUPPORT. The apply step (R50): what every part of it leaves of the configuration, and what STATUS and its companions read
at its end. -/

namespace Sys2Proof.Machine

/-! ### What makes up the configuration -/

/-- The configuration, and what an Accord's application ends: the loader and the open commit groups. -/
def Dev.config (d : Dev) : Memory × Bool × Bool × Loader × RegMap × Vector CgGroup 9 :=
  (d.cfg, d.applied, d.noAccord, d.loader, d.shadow, d.cg)

theorem Dev.config_eq_iff {d : Dev} {cfg : Memory} {applied noAccord : Bool} {l : Loader} {shadow : RegMap}
    {cg : Vector CgGroup 9} : d.config = (cfg, applied, noAccord, l, shadow, cg) ↔
      d.cfg = cfg ∧ d.applied = applied ∧ d.noAccord = noAccord ∧ d.loader = l ∧ d.shadow = shadow ∧ d.cg = cg := by
  simp only [Dev.config, Prod.mk.injEq]

theorem Dev.loader_of_config {x y : Dev} (h : y.config = x.config) : y.loader = x.loader :=
  (Dev.config_eq_iff.mp h).2.2.2.1

@[simp] theorem Dev.setReg_config (d : Dev) (a : Nat) (v : Word) : (d.setReg a v).config = d.config := by simp [Dev.config]
@[simp] theorem Dev.setFld_config (d : Dev) (a lo len v : Nat) : (d.setFld a lo len v).config = d.config := by
  simp [Dev.setFld]
@[simp] theorem Dev.bump_config (d : Dev) (a lo len : Nat) : (d.bump a lo len).config = d.config := by
  simp [Dev.bump, Dev.bumpBy]
@[simp] theorem Dev.modPort_config (d : Dev) (p : Fin 4) (f : Port → Port) : (d.modPort p f).config = d.config := by
  simp [Dev.config]
@[simp] theorem Dev.modTile_config (d : Dev) (t : Fin 16) (f : Tile → Tile) : (d.modTile t f).config = d.config := by
  simp [Dev.config]
@[simp] theorem Dev.modProt_config (d : Dev) (s : Fin 8) (f : Prot → Prot) : (d.modProt s f).config = d.config := by
  simp [Dev.config]
@[simp] theorem Dev.modEng_config (d : Dev) (e : Fin 72) (f : Engine → Engine) : (d.modEng e f).config = d.config := by
  simp [Dev.config]
@[simp] theorem Dev.modTier_config (d : Dev) (f : Tier → Tier) : (d.modTier f).config = d.config := by simp [Dev.config]
@[simp] theorem Dev.modLink_config (d : Dev) (f : Link → Link) : (d.modLink f).config = d.config := by simp [Dev.config]
@[simp] theorem Dev.modTxn_config (d : Dev) (f : Txn → Txn) : (d.modTxn f).config = d.config := by simp [Dev.config]

/-- What every unit's part keeps, the step over all units keeps. -/
@[simp] theorem Dev.each_config {α : Type} {f : α → Dev → Dev} (h : ∀ x d, (f x d).config = d.config) (l : List α) (d : Dev) :
    (Dev.each f l d).config = d.config :=
  Dev.each_keeps (fun y => y.config = d.config) f (fun x y hy => (h x y).trans hy) l d rfl

@[simp] theorem Dev.sillPush_config (d : Dev) (ty : Nat) (coord : BitVec 16) (i : Nat) (data : Word) :
    (d.sillPush ty coord i data).config = d.config := by
  obtain ⟨_, _, he, _⟩ := d.sillPush_eq ty coord i data
  rw [he, Dev.config, Dev.config]

@[simp] theorem Dev.raiseAttn_config (d : Dev) (c : Nat) : (d.raiseAttn c).config = d.config := by
  obtain ⟨_, _, he, _⟩ := d.setAttn_eq (d.fldR A.attn 0 12 ||| 2 ^ c)
  rw [Dev.raiseAttn, he, Dev.config, Dev.config]

/-! ### The parts of the step -/

@[simp] theorem Dev.applyNotes_config (d : Dev) : d.applyNotes.config = d.config := by simp [Dev.applyNotes]

@[simp] theorem Dev.applyThresholds_config (d : Dev) : d.applyThresholds.config = d.config := by simp [Dev.applyThresholds]

@[simp] theorem Dev.applyFaults_config (d : Dev) : d.applyFaults.config = d.config := by simp [Dev.applyFaults]

@[simp] theorem Dev.applyPower_config (d : Dev) : d.applyPower.config = d.config := by simp [Dev.applyPower]

@[simp] theorem Dev.applyDelays_config (d : Dev) (t : Fin 16) : (d.applyDelays t).config = d.config := by
  simp only [Dev.applyDelays]
  split_ifs <;> simp [Dev.dlyTake, Dev.dlyZero]

@[simp] theorem Dev.applyDramReset_config (d : Dev) (p : Fin 4) : (d.applyDramReset p).config = d.config := by
  unfold Dev.applyDramReset
  split
  · rfl
  · simp only [Dev.config]

@[simp] theorem Dev.tilePowerOn_config (d : Dev) (t : Fin 16) : (d.tilePowerOn t).config = d.config := Dev.modTile_config _ _ _

@[simp] theorem Dev.applyTile_config (d : Dev) (t : Fin 16) : (d.applyTile t).config = d.config := by
  unfold Dev.applyTile
  dsimp only
  split
  · simp
  · split
    · simp
    · rw [Dev.tilePowerOn_config]
      simp [Dev.config]

@[simp] theorem Dev.applyEpochs_config (d : Dev) : d.applyEpochs.config = d.config := by
  have hregs : ∀ (r : Nat) (x : Dev), (if regionUsed d.cfg r && d.crypt.epochValid.getLsbD r then x
      else x.setReg (A.epoch r) (BitVec.ofNat 48 (regionEpoch d.cfg r))).config = x.config := by
    intro r x
    split <;> simp
  refine Eq.trans ?_ (Dev.each_config hregs (List.range 64) d)
  simp only [Dev.applyEpochs, Dev.config]

@[simp] theorem Dev.applyTier_config (d : Dev) : d.applyTier.config = d.config := by
  unfold Dev.applyTier
  split_ifs
  · rfl
  · simp
  · rw [Dev.modTier_config]
    simp only [Dev.config]

@[simp] theorem Dev.journalStart_config (d : Dev) : d.journalStart.config = d.config := by
  unfold Dev.journalStart
  split
  · simp only [Dev.config]
  · rw [Dev.setFld_config]
    simp only [Dev.config]

@[simp] theorem Dev.applyProt_config (d : Dev) (build : BitVec 64) (s : Fin 8) : (d.applyProt build s).config = d.config := by
  simp only [Dev.applyProt]
  split_ifs <;> simp

@[simp] theorem Dev.applyEngine_config (d : Dev) (e : Fin 72) : (d.applyEngine e).config = d.config := by
  simp only [Dev.applyEngine]
  split_ifs <;> simp [Dev.startRole]

@[simp] theorem Dev.trimSet_config (d : Dev) (p : Fin 4) (j : Fin 2) : (d.trimSet p j).config = d.config := by
  simp only [Dev.trimSet]
  split <;> simp

@[simp] theorem Dev.applyCal_config (d : Dev) (p : Fin 4) : (d.applyCal p).config = d.config := by
  simp only [Dev.applyCal]
  split <;> simp

@[simp] theorem Dev.applyCaps_config (d : Dev) : d.applyCaps.config = d.config := by simp [Dev.applyCaps]

@[simp] theorem Dev.applyStatus_config (d : Dev) (l : Loader) (build : BitVec 64) (secver : BitVec 16) :
    (d.applyStatus l build secver).config = d.config := by simp [Dev.applyStatus, Dev.budgetSums]

end Sys2Proof.Machine
end

section
/-! SUPPORT. The link reset that follows an apply (R59), a full reset that its link-down starts (R27), and the apply step as a
whole (R50). -/

namespace Sys2Proof.Machine

/-! ### Link-down, and what it starts -/

/-- The loss sets and the tracks lie in the transaction unit (R115). -/
theorem Dev.lossAtDown_eq (d : Dev) : ∃ txn, d.lossAtDown = { d with txn := txn } := by
  have hloss : ∃ txn, Dev.each (fun (t : Track) x => if t.executed then x.addLoss t.vc t.tag else x) d.txn.track d =
      { d with txn := txn } := by
    refine Dev.each_keeps (fun y => ∃ txn, y = { d with txn := txn }) _ ?_ _ d ⟨d.txn, rfl⟩
    rintro t y ⟨txn, rfl⟩
    split
    · exact ⟨_, rfl⟩
    · exact ⟨_, rfl⟩
  obtain ⟨txn, hd⟩ := hloss
  unfold Dev.lossAtDown
  rw [hd]
  exact ⟨_, rfl⟩

@[simp] theorem Dev.lossAtDown_config (d : Dev) : d.lossAtDown.config = d.config := by
  obtain ⟨_, hd⟩ := d.lossAtDown_eq
  rw [hd, Dev.config, Dev.config]

theorem Dev.lossAtDown_rf (d : Dev) : d.lossAtDown.rf = d.rf := by
  obtain ⟨_, hd⟩ := d.lossAtDown_eq
  rw [hd]

@[simp] theorem Dev.compsLate_config (d : Dev) : d.compsLate.config = d.config := by simp only [Dev.compsLate, Dev.config]

@[simp] theorem Dev.linkDownCore_config (d : Dev) (attn count : Bool) : (d.linkDownCore attn count).config = d.config := by
  simp only [Dev.linkDownCore]
  split
  · simp
  · cases attn <;> cases count <;> simp [Dev.sillLink]

@[simp] theorem Dev.sillReset_config (d : Dev) (step : Nat) : (d.sillReset step).config = d.config := d.sillPush_config _ _ _ _

@[simp] theorem Dev.startTraining_config (d : Dev) (asked : Nat) : (d.startTraining asked).config = d.config := by
  rw [Dev.startTraining, Dev.trainAt, Dev.modLink_config]
  simp only [Dev.config]

/-- Step 1 of a full reset ends a load attempt (R43) and leaves the rest of the configuration. -/
theorem Dev.freeze_config {d : Dev} (h : d.loader = .idle) : d.freeze.config = d.config := by
  obtain ⟨hcfg, happ, hno, -, hshadow, hcg⟩ := Dev.config_eq_iff.mp (d.linkDownCore_config true false)
  unfold Dev.freeze
  dsimp only
  rw [Dev.sillReset_config, Dev.modLink_config]
  simp only [Dev.config, Dev.modTxn_cfg, Dev.modTxn_applied, Dev.modTxn_noAccord, Dev.modTxn_shadow, Dev.modTxn_cg, hcfg, happ,
    hno, h, hshadow, hcg]

theorem Dev.fullReset_config {d : Dev} (cause : Nat) (h : d.loader = .idle) : (d.fullReset cause).config = d.config := by
  unfold Dev.fullReset
  dsimp only
  split
  · rfl
  · split
    · simp [Dev.config]
    · refine (Dev.freeze_config ?_).trans ?_
      · split <;> simp [h]
      · split <;> simp [Dev.config]

theorem Dev.linkDown_config {d : Dev} (attn count : Bool) (asked : Nat) (h : d.loader = .idle) :
    (d.linkDown attn count asked).config = d.config := by
  have hidle : (d.linkDownCore attn count).loader = .idle :=
    (Dev.loader_of_config (d.linkDownCore_config attn count)).trans h
  unfold Dev.linkDown
  dsimp only
  split
  · rw [Dev.fullReset_config 3 hidle, Dev.linkDownCore_config]
  · rw [Dev.startTraining_config, Dev.linkDownCore_config]

theorem Dev.applyLink_config {d : Dev} (h : d.loader = .idle) : d.applyLink.config = d.config := by
  unfold Dev.applyLink
  split
  · dsimp only
    rw [Dev.startTraining_config, Dev.modLink_config, Dev.linkDownCore_config, Dev.sillReset_config]
    simp only [Dev.config]
  · exact Dev.linkDown_config _ _ _ h

theorem Dev.reg_startTraining (d : Dev) (asked a : Nat) : (d.startTraining asked).reg a = d.reg a := rfl

section
variable {a : Nat} (ha : fnOf a = 0x01)
include ha

theorem Dev.reg_linkDownCore (d : Dev) (attn count : Bool) : (d.linkDownCore attn count).reg a = d.reg a := by
  have hresync : ∀ x : Dev, (x.setFld A.resync 16 2 0).reg a = x.reg a := fun x => x.reg_setFld_of_fnOf ha _ _ _ (by decide)
  have hbump : ∀ x : Dev, (x.bump A.errcnt 8 8).reg a = x.reg a := fun x => x.reg_setFld_of_fnOf ha _ _ _ (by decide)
  have hloss : (d.lossAtDown.compsLate).reg a = d.reg a := congrArg (sget (regReset a) · a) d.lossAtDown_rf
  simp only [Dev.linkDownCore]
  split
  · simp
  · cases attn <;> cases count <;>
      simp [Dev.sillLink, Dev.reg_sillPush ha, Dev.reg_raiseAttn ha, hresync, hbump, hloss, -Dev.reg_setFld]

theorem Dev.reg_freeze (d : Dev) : d.freeze.reg a = d.reg a := by
  refine Eq.trans ?_ (Dev.reg_linkDownCore ha d true false)
  unfold Dev.freeze
  dsimp only
  rw [Dev.sillReset, Dev.reg_sillPush ha]
  rfl

theorem Dev.reg_fullReset (d : Dev) (cause : Nat) : (d.fullReset cause).reg a = d.reg a := by
  have hreset : ∀ (x : Dev) (lo len v : Nat), (x.setFld A.reset lo len v).reg a = x.reg a :=
    fun x lo len v => x.reg_setFld_of_fnOf ha lo len v (by decide)
  have hpwr : ∀ (x : Dev) (lo len v : Nat), (x.setFld A.pwrStatus lo len v).reg a = x.reg a :=
    fun x lo len v => x.reg_setFld_of_fnOf ha lo len v (by decide)
  have hrst : ∀ (x : Dev) (r : Rst) (w : Pwr), Dev.reg { x with rst := r, pwr := w } a = x.reg a := fun _ _ _ => rfl
  unfold Dev.fullReset
  split
  · rfl
  · extract_lets again old st r₀ r d1 w pw rw d2 d3
    have h1 : d1.reg a = d.reg a := (hreset _ _ _ _).trans ((hreset _ _ _ _).trans (hrst _ _ _))
    split
    · exact (hrst _ _ _).trans ((hpwr _ _ _ _).trans ((hreset _ _ _ _).trans ((hreset _ _ _ _).trans h1)))
    · have h2 : d2.reg a = d.reg a := by
        unfold d2
        split
        · exact (hpwr _ _ _ _).trans h1
        · exact h1
      exact (Dev.reg_freeze ha _).trans ((hrst _ _ _).trans
        ((hreset _ _ _ _).trans ((hreset _ _ _ _).trans ((hpwr _ _ _ _).trans h2))))

theorem Dev.reg_linkDown (d : Dev) (attn count : Bool) (asked : Nat) : (d.linkDown attn count asked).reg a = d.reg a := by
  unfold Dev.linkDown
  dsimp only
  split
  · rw [Dev.reg_fullReset ha, Dev.reg_linkDownCore ha]
  · rw [Dev.reg_startTraining, Dev.reg_linkDownCore ha]

theorem Dev.reg_applyLink (d : Dev) : d.applyLink.reg a = d.reg a := by
  unfold Dev.applyLink
  split
  · dsimp only
    rw [Dev.reg_startTraining, Dev.modLink_reg, Dev.reg_linkDownCore ha, Dev.sillReset, Dev.reg_sillPush ha]
    rfl
  · exact Dev.reg_linkDown ha _ _ _ _

end

/-! ### The step as a whole (R50) -/

theorem Dev.fldR_setReg_ne (d : Dev) {a b : Nat} (v : Word) (lo len : Nat) (h : b ≠ a) :
    (d.setReg a v).fldR b lo len = d.fldR b lo len := by
  simp [Dev.fldR, h]

theorem Dev.fldR_bump_other (d : Dev) (a lo len lo' len' : Nat) (h : 0 < len) (hl : lo + len ≤ 48)
    (hd : lo' + len' ≤ lo ∨ lo + len ≤ lo') : (d.bump a lo len).fldR a lo' len' = d.fldR a lo' len' :=
  Dev.fldR_setFld_other _ _ _ _ _ _ _ h hl hd

/-- Budget sums touch their own register and STATUS.OVERSUB (R47). -/
theorem Dev.budgetSums_state (d : Dev) : d.budgetSums.fldR A.accStatus 20 4 = d.fldR A.accStatus 20 4 :=
  (Dev.fldR_setFld_other _ _ 28 4 _ 20 4 (by decide) (by decide) (by decide)).trans (Dev.fldR_setReg_ne _ _ _ _ (by decide))

theorem Dev.budgetSums_reg (d : Dev) {a : Nat} (hsum : a ≠ A.budgetSum) (hst : a ≠ A.accStatus) :
    d.budgetSums.reg a = d.reg a := by
  simp [Dev.budgetSums, hsum, hst]

section
variable (d : Dev) (l : Loader) (build : BitVec 64) (secver : BitVec 16)

/-- STATUS.STATE reads APPLIED (Table 2.8). -/
theorem Dev.applyStatus_state : (d.applyStatus l build secver).fldR A.accStatus 20 4 = 2 := by
  unfold Dev.applyStatus
  dsimp only
  rw [Dev.budgetSums_state, Dev.fldR_setFld_ne _ _ _ _ _ _ (by decide), Dev.fldR_setReg_ne _ _ _ _ (by decide),
    Dev.fldR_setReg_ne _ _ _ _ (by decide), Dev.fldR_bump_other _ _ 0 16 20 4 (by decide) (by decide) (by decide),
    Dev.fldR_setFld_same _ _ 20 4 _ (by decide) (by decide)]
  rfl

theorem Dev.applyStatus_secver : (d.applyStatus l build secver).fldR A.secver 0 16 = secver.toNat := by
  unfold Dev.applyStatus
  dsimp only
  rw [Dev.fldR, Dev.budgetSums_reg _ (by decide) (by decide)]
  exact (Dev.fldR_setFld_same _ _ 0 16 _ (by decide) (by decide)).trans (Nat.mod_eq_of_lt secver.isLt)

theorem Dev.applyStatus_buildLo : (d.applyStatus l build secver).reg A.buildLo = build.setWidth 48 := by
  unfold Dev.applyStatus
  dsimp only
  rw [Dev.budgetSums_reg _ (by decide) (by decide), Dev.reg_setFld, if_neg (by decide), Dev.reg_setReg, if_neg (by decide),
    Dev.reg_setReg, if_pos rfl]

end

theorem Dev.withRst_config (d : Dev) (r : Rst) : Dev.config { d with rst := r } = d.config := rfl

theorem Dev.withSide_config (d : Dev) (x : Side) : Dev.config { d with side := x } = d.config := rfl

theorem Dev.withRst_reg (d : Dev) (r : Rst) (a : Nat) : Dev.reg { d with rst := r } a = d.reg a := rfl

theorem Dev.withSide_reg (d : Dev) (x : Side) (a : Nat) : Dev.reg { d with side := x } a = d.reg a := rfl

theorem Dev.applyAccord_config (d : Dev) (cfg : Memory) (build : BitVec 64) (secver : BitVec 16) :
    (d.applyAccord cfg build secver).config = (cfg, true, false, .idle, [], Vector.replicate 9 .following) := by
  unfold Dev.applyAccord
  extract_lets l base d0 d1 d2 d3 d4 d5 d6 d7 raised rst d8 side
  have h0 : d0.config = (cfg, true, false, .idle, [], Vector.replicate 9 .following) := rfl
  have h7 : d7.config = d0.config := by simp [d7, d6, d5, d4, d3, d2, d1, Dev.sillAccord]
  have h8 : d8.config = d7.config := by
    unfold d8
    split
    · exact (Dev.withRst_config _ _).trans (d7.raiseAttn_config 7)
    · rfl
  have hall : Dev.config { d8 with side := { d8.side with accordSeen := true } } = d0.config :=
    (d8.withSide_config _).trans (h8.trans h7)
  have hidle : d0.loader = .idle := rfl
  exact (Dev.applyLink_config ((Dev.loader_of_config hall).trans hidle)).trans (hall.trans h0)

/-- The registers of the ACCORD function read as the status part of the step leaves them. -/
theorem Dev.reg_applyAccord (d : Dev) (cfg : Memory) (build : BitVec 64) (secver : BitVec 16) :
    ∃ x : Dev, ∀ a, fnOf a = 0x01 → (d.applyAccord cfg build secver).reg a = (x.applyStatus d.loader build secver).reg a := by
  unfold Dev.applyAccord
  extract_lets l base d0 d1 d2 d3 d4 d5 d6 d7 raised rst d8 side
  refine ⟨(Dev.each (fun p x => x.applyCal p) allPorts d6).applyCaps, fun a ha => ?_⟩
  have h7 : d7.reg a = _ := Dev.reg_sillPush ha _ _ _ _ _
  have h8 : d8.reg a = d7.reg a := by
    unfold d8
    split
    · exact (Dev.withRst_reg _ _ a).trans (Dev.reg_raiseAttn ha d7 7)
    · rfl
  exact (Dev.reg_applyLink ha _).trans ((d8.withSide_reg _ a).trans (h8.trans h7))

/-- ACCORD_APPLY of a verified image (R50). -/
theorem exec_accordApply {s : State} {cfg : Memory} {build : BitVec 64} {secver : BitVec 16} (hlive : s.dev.live = true)
    (hact : s.dev.loader.active = true) (hv : s.dev.loader.verdict = some (.ok cfg build secver)) :
    exec .accordApply s = .next { s with dev := s.dev.applyAccord cfg build secver } := by
  refine Eq.trans ?_ (devNext_of_live _ hlive)
  simp only [Machine.exec, execAccordApply, hv, hact, if_true]

end Sys2Proof.Machine
end

section
/-! SUPPORT. Tiles at the end of RAMP and the removal of a tile (R167, R176, R177), and the statement about the apply step. -/

namespace Sys2Proof.Machine

/-! ### Commands on CA, and mode registers -/

/-- `y` is `x` but for the command buses, the mode register shadow and the count of free values. -/
def Dev.onlyCommands (x y : Dev) : Prop :=
  ∃ phys shadow ctr, y = { x with phys := phys, mrShadow := shadow, freeCtr := ctr }

theorem Dev.onlyCommands_refl (d : Dev) : d.onlyCommands d := ⟨d.phys, d.mrShadow, d.freeCtr, rfl⟩

theorem Dev.onlyCommands.trans {x y z : Dev} (h : x.onlyCommands y) (k : y.onlyCommands z) : x.onlyCommands z := by
  obtain ⟨_, _, _, rfl⟩ := h
  obtain ⟨phys, shadow, ctr, rfl⟩ := k
  exact ⟨phys, shadow, ctr, rfl⟩

theorem Dev.each_onlyCommands {α : Type} {f : α → Dev → Dev} (h : ∀ x d, Dev.onlyCommands d (f x d)) (l : List α) (d : Dev) :
    d.onlyCommands (Dev.each f l d) :=
  Dev.each_keeps d.onlyCommands f (fun x y hy => hy.trans (h x y)) l d d.onlyCommands_refl

theorem Dev.caSend_onlyCommands (d : Dev) (s : Fin 8) (wait : Nat) (cs : List Cmd) : d.onlyCommands (d.caSend s wait cs) := by
  unfold Dev.caSend
  split
  · exact Dev.each_onlyCommands (fun _ _ => ⟨_, _, _, rfl⟩) cs d
  · exact ⟨_, _, _, rfl⟩

theorem Dev.layerSend_onlyCommands (d : Dev) (t : Fin 16) (kind : CmdKind) (row wait : Nat) :
    d.onlyCommands (d.layerSend t kind row wait) := d.caSend_onlyCommands _ _ _

theorem Dev.mrwSend_onlyCommands (d : Dev) (t : Fin 16) (cid mr : Nat) (v : Byte) :
    d.onlyCommands (d.mrwSend t cid mr v) := (d.caSend_onlyCommands _ _ _).trans ⟨_, _, _, rfl⟩

theorem Dev.mrOwnTile_onlyCommands (d : Dev) (t : Fin 16) : d.onlyCommands (d.mrOwnTile t) :=
  Dev.onlyCommands.trans ⟨_, _, _, rfl⟩ (d.tickFree.layerSend_onlyCommands _ _ _ _)

theorem Dev.mrInitTile_onlyCommands (d : Dev) (t : Fin 16) (changed : Bool) : d.onlyCommands (d.mrInitTile t changed) := by
  refine Dev.each_onlyCommands (fun e x => Dev.each_onlyCommands (fun cid y => ?_) _ x) _ d
  split
  · exact y.onlyCommands_refl
  · exact y.mrwSend_onlyCommands _ _ _ _

theorem Dev.mrAgain_onlyCommands (d : Dev) (t : Fin 16) : d.onlyCommands (d.mrAgain t) :=
  (d.mrOwnTile_onlyCommands t).trans (Dev.each_onlyCommands (fun _ x => x.mrwSend_onlyCommands _ _ _ _) _ _)

/-! ### The initialisation of a tile (R152, R176) -/

/-- The tile once its initialisation has begun. -/
def Tile.started (x : Tile) : Tile := { x with ramping := false, ramped := false, hot := true, coolPolls := 0 }

/-- The initialisation of a tile marks it and sends commands. -/
theorem Dev.tileStart_onlyCommands (d : Dev) (t : Fin 16) : (d.modTile t Tile.started).onlyCommands (d.tileStart t) := by
  have hzq : (d.modTile t Tile.started).onlyCommands
      (((d.modTile t Tile.started).layerSend t .zqStart 0 0).layerSend t .zqLatch 0 0) :=
    (Dev.layerSend_onlyCommands _ _ _ _ _).trans (Dev.layerSend_onlyCommands _ _ _ _ _)
  unfold Dev.tileStart
  dsimp only
  split
  · exact hzq.trans ((Dev.mrOwnTile_onlyCommands _ _).trans (Dev.mrInitTile_onlyCommands _ _ _))
  · exact hzq.trans (Dev.mrAgain_onlyCommands _ _)

theorem Dev.tileStart_tiles (d : Dev) (t : Fin 16) : (d.tileStart t).tiles = (d.modTile t Tile.started).tiles := by
  obtain ⟨_, _, _, hd⟩ := d.tileStart_onlyCommands t
  rw [hd]

theorem Dev.tileStart_pins (d : Dev) (t : Fin 16) : (d.tileStart t).pins = d.pins := by
  obtain ⟨_, _, _, hd⟩ := d.tileStart_onlyCommands t
  rw [hd]
  rfl

theorem Dev.tileStart_calm {d : Dev} (h : d.calm) (t : Fin 16) : (d.tileStart t).calm := by
  obtain ⟨_, _, _, hd⟩ := d.tileStart_onlyCommands t
  rw [hd]
  exact h

/-- Tile `t` is initialised: it does not ramp, and refreshes at the hot rate until it is polled (R152). -/
def Dev.tileReady (d : Dev) (t : Fin 16) : Prop := (d.tiles[t]).ramping = false ∧ (d.tiles[t]).hot = true

theorem Dev.tileReady_tileStart_same (d : Dev) (t : Fin 16) : (d.tileStart t).tileReady t := by
  rw [Dev.tileReady, Dev.tileStart_tiles, Dev.modTile_tiles_same]
  exact ⟨rfl, rfl⟩

/-- The initialisation of any tile keeps a tile initialised. -/
theorem Dev.tileReady_tileStart {d : Dev} {t : Fin 16} (h : d.tileReady t) (u : Fin 16) : (d.tileStart u).tileReady t := by
  by_cases hu : t = u
  · rw [hu]
    exact d.tileReady_tileStart_same u
  · rw [Dev.tileReady, Dev.tileStart_tiles, Dev.modTile_tiles_ne _ _ _ hu]
    exact h

/-- Every tile of a list is initialised once the list is. -/
theorem Dev.tileReady_each_tileStart {t : Fin 16} {l : List (Fin 16)} (ht : t ∈ l) (d : Dev) :
    (Dev.each (fun u x => x.tileStart u) l d).tileReady t := by
  induction l generalizing d with
  | nil => cases ht
  | cons u r ih =>
    obtain rfl | hr := List.mem_cons.mp ht
    · exact Dev.each_keeps (Dev.tileReady · t) _ (fun u _ hx => Dev.tileReady_tileStart hx u) r _
        (d.tileReady_tileStart_same t)
    · exact ih hr _

/-! ### The end of RAMP (R176) -/

theorem mem_portTiles : ∀ t : Fin 16, t ∈ portTiles (tilePort t) := by decide

/-- RAMP is over for every tile of the port of `t` that still waits for its initialisation, that of `t` being over now. -/
def Dev.portRamped (d : Dev) (t : Fin 16) : Prop :=
  ∀ u ∈ portTiles (tilePort t), u ≠ t → (d.tiles[u]).ramping = true → (d.tiles[u]).ramped = true

/-- The end of RAMP of tile `t` is noted. -/
def Dev.rampOver (d : Dev) (t : Fin 16) : Dev := d.modTile t (fun x => { x with ramped := true })

/-- The tiles of the port of `t` that wait for their initialisation. -/
def Dev.rampWait (d : Dev) (t : Fin 16) : List (Fin 16) :=
  (portTiles (tilePort t)).filter (fun u => ((d.rampOver t).tiles[u]).ramping)

theorem Dev.rampWait_all_iff (d : Dev) (t : Fin 16) :
    (d.rampWait t).all (fun u => ((d.rampOver t).tiles[u]).ramped) = true ↔ d.portRamped t := by
  simp only [Dev.rampWait, List.all_eq_true, List.mem_filter, and_imp, Dev.portRamped]
  refine forall_congr' fun u => forall_congr' fun _ => ?_
  by_cases hu : u = t
  · subst hu
    refine ⟨fun _ h => absurd rfl h, fun _ _ => ?_⟩
    rw [Dev.rampOver, Dev.modTile_tiles_same]
  · simp only [Dev.rampOver, Dev.modTile_tiles_ne _ _ _ hu, hu, ne_eq, not_false_eq_true, forall_true_left]

section
variable {d : Dev} {t : Fin 16} (hr : (d.tiles[t]).ramping = true)
include hr

theorem Dev.mem_rampWait : t ∈ d.rampWait t := by
  refine List.mem_filter.mpr ⟨mem_portTiles t, ?_⟩
  rw [Dev.rampOver, Dev.modTile_tiles_same]
  exact hr

/-- With its port's DRAM reset high, a tile is initialised alone. -/
theorem Dev.tileInit_of_resetHigh (hp : d.pins.dramResetN.getLsbD (tilePort t).val = true) :
    d.tileInit t = ((d.rampOver t).tileStart t).enterQueues := by
  simp only [Dev.tileInit, hr, hp, Bool.not_true, Bool.false_eq_true, if_false, if_true]
  rfl

/-- With it low, the port's DRAM reset is released and all tiles that wait are initialised, once all have ramped. -/
theorem Dev.tileInit_of_portRamped (hp : d.pins.dramResetN.getLsbD (tilePort t).val = false) (hall : d.portRamped t) :
    d.tileInit t = (Dev.each (fun u x => x.tileStart u) (d.rampWait t)
      { d.rampOver t with pins :=
        { d.pins with dramResetN := putBit d.pins.dramResetN (tilePort t).val true } }).enterQueues := by
  have hwait := (d.rampWait_all_iff t).mpr hall
  simp only [Dev.rampWait, Dev.rampOver] at hwait
  simp only [Dev.tileInit, hr, hp, hwait, Bool.not_true, Bool.false_eq_true, if_false, if_true]
  rfl

/-- Until then the tile only notes that its RAMP is over. -/
theorem Dev.tileInit_of_not_portRamped (hp : d.pins.dramResetN.getLsbD (tilePort t).val = false) (hall : ¬ d.portRamped t) :
    d.tileInit t = d.rampOver t := by
  have hwait := mt (d.rampWait_all_iff t).mp hall
  simp only [Dev.rampWait, Dev.rampOver] at hwait
  simp only [Dev.tileInit, hr, hp, hwait, Bool.not_true, Bool.false_eq_true, if_false]
  rfl

/-- The last tile's RAMP leaves it initialised and its port's DRAM reset high. -/
theorem Dev.tileInit_of_last (hcalm : d.calm)
    (hlast : d.pins.dramResetN.getLsbD (tilePort t).val = true ∨ d.portRamped t) :
    (d.tileInit t).tileReady t ∧ (d.tileInit t).pins.dramResetN.getLsbD (tilePort t).val = true := by
  cases hp : d.pins.dramResetN.getLsbD (tilePort t).val with
  | true =>
    have hcalm' : ((d.rampOver t).tileStart t).calm := Dev.tileStart_calm (d := d.rampOver t) hcalm t
    rw [Dev.tileInit_of_resetHigh hr hp, Dev.enterQueues_of_calm hcalm', Dev.tileStart_pins]
    exact ⟨Dev.tileReady_tileStart_same _ t, hp⟩
  | false =>
    have hall : d.portRamped t := hlast.resolve_left (Bool.eq_false_iff.mp hp)
    rw [Dev.tileInit_of_portRamped hr hp hall, Dev.enterQueues_of_calm]
    · refine ⟨Dev.tileReady_each_tileStart (Dev.mem_rampWait hr) _, ?_⟩
      refine Dev.each_keeps (fun y => y.pins.dramResetN.getLsbD (tilePort t).val = true) _ (fun u x hx => ?_) _ _ ?_
      · rw [Dev.tileStart_pins]
        exact hx
      · exact bit_putBit_same _ _ (tilePort t).isLt
    · exact Dev.each_keeps Dev.calm _ (fun u _ hx => Dev.tileStart_calm hx u) _ _ hcalm

end

theorem exec_tileRampDone {s : State} (t : Fin 16) (hlive : s.dev.live = true) :
    exec (.tileRampDone t) s = .next { s with dev := s.dev.tileInit t } := devNext_of_live _ hlive

theorem Dev.tileInit_of_not_ramping {d : Dev} {t : Fin 16} (h : (d.tiles[t]).ramping = false) : d.tileInit t = d := by
  refine if_pos ?_
  rw [h]
  rfl

/-! ### Removed tiles (R177) -/

/-- A removed tile in self-refresh loses its power; the other tiles stand. -/
theorem Dev.tilePowerOff_tiles (d : Dev) (t : Fin 16) : ((d.tilePowerOff t).tiles[t]).powered = false ∧
    ((d.tilePowerOff t).tiles[t]).inSr = false ∧ ∀ u : Fin 16, u ≠ t → (d.tilePowerOff t).tiles[u] = d.tiles[u] := by
  rw [Dev.tilePowerOff, Dev.modTile_tiles_same]
  exact ⟨rfl, rfl, fun u hu => Dev.modTile_tiles_ne _ _ _ hu⟩

theorem exec_tileRemovePowerOff {s : State} {t : Fin 16} (hlive : s.dev.live = true) (happ : s.dev.applied = true)
    (hgone : s.dev.present t = false) (hpow : (s.dev.tiles[t]).powered = true) (hsr : (s.dev.tiles[t]).inSr = true) :
    exec (.tileRemovePowerOff t) s = .next { s with dev := s.dev.tilePowerOff t } := by
  refine (congrArg (devNext s) (if_pos ?_)).trans (devNext_of_live _ hlive)
  rw [happ, hgone, hpow, hsr]
  rfl

/-- Settles O53, from what the step leaves of the configuration and of STATUS, the power-off of a removed tile, and the end of
a tile's RAMP. -/
theorem accordApplies : Obligations.AccordApplies := by
  refine ⟨fun s cfg build secver hlive hact hv => ?_, fun s t hlive happ hgone hpow hsr => ?_, fun s t hlive hcalm => ?_⟩
  · obtain ⟨hcfg, happ, hno, hload, hshadow, hcg⟩ := Dev.config_eq_iff.mp (s.dev.applyAccord_config cfg build secver)
    obtain ⟨x, hreg⟩ := s.dev.reg_applyAccord cfg build secver
    refine ⟨_, exec_accordApply hlive hact hv, hcfg, happ, hno, hload, hshadow, hcg, ?_, ?_, ?_⟩
    · exact (congrArg (fld · 20 4) (hreg _ (by decide))).trans (x.applyStatus_state _ _ _)
    · exact (congrArg (fld · 0 16) (hreg _ (by decide))).trans (x.applyStatus_secver _ _ _)
    · exact (hreg _ (by decide)).trans (x.applyStatus_buildLo _ _ _)
  · exact ⟨_, exec_tileRemovePowerOff hlive happ hgone hpow hsr, rfl, s.dev.tilePowerOff_tiles t⟩
  · rw [exec_tileRampDone t hlive]
    refine ⟨fun hr => by rw [Dev.tileInit_of_not_ramping hr], fun hr hlast => ?_, fun hr hnot => ?_⟩
    · obtain ⟨⟨hramp, hhot⟩, hpin⟩ := Dev.tileInit_of_last hr hcalm hlast
      exact ⟨_, rfl, hramp, hhot, hpin⟩
    · obtain ⟨hpin, hall⟩ := not_or.mp hnot
      rw [Dev.tileInit_of_not_portRamped hr (Bool.eq_false_iff.mpr hpin) hall]
      rfl

end Sys2Proof.Machine
end

section
/-! SUPPORT. What a report touches (R122, R280 to R289, R296): the fault collectors, Sillage, and the registers that show them. A
link source graded MAJOR at most does no more than report. -/

namespace Sys2Proof.Machine

/-! ### Fields and registers -/

/-- A field of one bit is its bit. -/
theorem fld_one {w : Nat} (x : BitVec w) (i : Nat) : fld x i 1 = b2n (bit x i) := by
  rw [fld, bit, BitVec.getLsbD, Nat.testBit_eq_decide_div_mod_eq, Nat.shiftRight_eq_div_pow]
  obtain h | h := Nat.mod_two_eq_zero_or_one (x.toNat / 2 ^ i) <;> simp [h, b2n]

/-- A field within the one put reads as its part of what was put. -/
theorem fld_put_within (x : Word) {lo len lo' len' : Nat} (v : Nat) (h : 0 < len) (hl : lo + len ≤ 48) (hlo : lo ≤ lo')
    (hhi : lo' + len' ≤ lo + len) : fld (put x lo len v) lo' len' = (v >>> (lo' - lo)) % 2 ^ len' := by
  apply Nat.eq_of_testBit_eq
  intro i
  rw [fld_testBit, put_getLsbD x lo len v _ h hl, Nat.testBit_mod_two_pow, Nat.testBit_shiftRight]
  by_cases hi : i < len'
  · rw [if_pos (by omega), show lo' + i - lo = lo' - lo + i by omega]
  · simp [hi]

theorem fld_lt {w : Nat} (x : BitVec w) (lo len : Nat) : fld x lo len < 2 ^ len := Nat.mod_lt _ (Nat.two_pow_pos len)

theorem Dev.regsBut.trans {x y z : Dev} {l : List Nat} (h : x.regsBut y l) (k : y.regsBut z l) : x.regsBut z l :=
  fun a ha => (k a ha).trans (h a ha)

section
variable (d : Dev)

/-- A field reads as what was set in it, where that fits. -/
theorem Dev.fldR_setFld_fits (a : Nat) {lo len v : Nat} (h : 0 < len) (hl : lo + len ≤ 48) (hv : v < 2 ^ len) :
    (d.setFld a lo len v).fldR a lo len = v := by
  rw [Dev.fldR_setFld_same _ _ _ _ _ h hl, Nat.mod_eq_of_lt hv]

theorem Dev.setFld_regsBut (a lo len v : Nat) : d.regsBut (d.setFld a lo len v) [a] :=
  fun _ hb => (Dev.reg_setFld _ _ _ _ _ _).trans (if_neg (List.mem_singleton.not.mp hb))

theorem Dev.bump_regsBut (a lo len : Nat) : d.regsBut (d.bump a lo len) [a] := d.setFld_regsBut _ _ _ _

/-- A record queued for Sillage touches no register but its loss counter. -/
theorem Dev.sillPush_regsBut (ty : Nat) (coord : BitVec 16) (i : Nat) (data : Word) :
    d.regsBut (d.sillPush ty coord i data) [A.sillLost] := by
  obtain ⟨_, _, he, hr⟩ := d.sillPush_eq ty coord i data
  rw [he]
  exact fun a ha => hr a (List.mem_singleton.not.mp ha)

end

/-! ### Reports -/

/-- The registers that a report writes: ATTN, FIRST and SILL.LOST. -/
def reportRegs : List Nat := [A.attn, A.first, A.sillLost]

/-- `y` is `x` but for the collectors, Sillage and the registers of `reportRegs`. -/
def Dev.reports (x y : Dev) : Prop :=
  (∃ rf flt sill, y = { x with rf := rf, flt := flt, sill := sill }) ∧ x.regsBut y reportRegs

theorem Dev.reports_refl (d : Dev) : d.reports d := ⟨⟨_, _, _, rfl⟩, fun _ _ => rfl⟩

section
variable {x y z : Dev}

theorem Dev.reports.trans (h : x.reports y) (k : y.reports z) : x.reports z := by
  obtain ⟨⟨_, _, _, rfl⟩, hx⟩ := h
  obtain ⟨⟨_, _, _, rfl⟩, hy⟩ := k
  exact ⟨⟨_, _, _, rfl⟩, hx.trans hy⟩

theorem Dev.reports.fldR (h : x.reports y) {a : Nat} (ha : a ∉ reportRegs) (lo len : Nat) : y.fldR a lo len = x.fldR a lo len :=
  congrArg (fld · lo len) (h.2 a ha)

theorem Dev.reports.link (h : x.reports y) : y.link = x.link := by
  obtain ⟨⟨_, _, _, rfl⟩, -⟩ := h
  rfl

theorem Dev.reports.txn (h : x.reports y) : y.txn = x.txn := by
  obtain ⟨⟨_, _, _, rfl⟩, -⟩ := h
  rfl

theorem Dev.reports.rst (h : x.reports y) : y.rst = x.rst := by
  obtain ⟨⟨_, _, _, rfl⟩, -⟩ := h
  rfl

end

theorem Dev.reports_sillPush (d : Dev) (ty : Nat) (coord : BitVec 16) (i : Nat) (data : Word) :
    d.reports (d.sillPush ty coord i data) := by
  obtain ⟨_, _, he, hr⟩ := d.sillPush_eq ty coord i data
  rw [he]
  exact ⟨⟨_, _, _, rfl⟩, fun a ha => hr a (fun e => ha (by simp [e, reportRegs]))⟩

theorem Dev.reports_sillLink (d : Dev) (ev : Nat) : d.reports (d.sillLink ev) := d.reports_sillPush _ _ _ _

theorem Dev.reports_sillReset (d : Dev) (step : Nat) : d.reports (d.sillReset step) := d.reports_sillPush _ _ _ _

theorem Dev.reports_raiseAttn (d : Dev) (c : Nat) : d.reports (d.raiseAttn c) := by
  obtain ⟨_, _, he, hr⟩ := d.setAttn_eq (d.fldR A.attn 0 12 ||| 2 ^ c)
  rw [Dev.raiseAttn, he]
  exact ⟨⟨_, _, _, rfl⟩,
    fun a ha => hr a (fun e => ha (by simp [e, reportRegs])) (fun e => ha (by simp [e, reportRegs]))⟩

theorem Dev.reports_setSrc (d : Dev) (n : Nat) (x : Src) : d.reports (d.setSrc n x) := ⟨⟨_, _, _, rfl⟩, fun _ _ => rfl⟩

theorem Dev.reports_setFirst (d : Dev) (f : Option (BitVec 8)) (n : Nat) :
    d.reports ({ d with flt := { d.flt with first := f } }.setFld A.first 0 8 n) := by
  refine ⟨⟨_, _, _, rfl⟩, fun a ha => ?_⟩
  have hne : a ≠ A.first := fun e => ha (by simp [e, reportRegs])
  exact (Dev.reg_setFld _ _ _ _ _ _).trans (if_neg hne)

theorem Dev.reports_ite {d x y : Dev} {p : Prop} [Decidable p] (hx : d.reports x) (hy : d.reports y) :
    d.reports (if p then x else y) := by
  split
  · exact hx
  · exact hy

/-- ATTN holds the bits set, whether or not a record of the new value follows. -/
theorem Dev.setAttn_reg (d : Dev) (bits : Nat) : (d.setAttn bits).reg A.attn = put (d.reg A.attn) 0 12 bits := by
  have hset : (d.setFld A.attn 0 12 bits).reg A.attn = put (d.reg A.attn) 0 12 bits :=
    (Dev.reg_setFld _ _ _ _ _ _).trans (if_pos rfl)
  unfold Dev.setAttn
  extract_lets d'
  split
  · exact hset
  · exact (d'.sillPush_regsBut _ _ _ _ A.attn (by decide)).trans hset

/-- A cause raised is pending. -/
theorem Dev.raiseAttn_pending (d : Dev) {c : Nat} (hc : c < 12) : (d.raiseAttn c).fldR A.attn c 1 = 1 := by
  have hbit : (put (d.reg A.attn) 0 12 (d.fldR A.attn 0 12 ||| 2 ^ c)).getLsbD c = true := by
    rw [put_getLsbD _ _ _ _ _ (by decide) (by decide), if_pos (by omega), Nat.sub_zero, Nat.testBit_or,
      Nat.testBit_two_pow_self, Bool.or_true]
  rw [Dev.fldR, Dev.raiseAttn, Dev.setAttn_reg, fld_one, bit, hbit]
  rfl

/-! ### Occurrences -/

theorem Dev.recordGraded_reports (d : Dev) (s : Nat) (r : Report) (level inA inB : Bool) (g : Nat × Bool × Bool × Bool) :
    d.reports (d.recordGraded s r level inA inB g).1 := by
  unfold Dev.recordGraded
  extract_lets x sev x1 capture fst rcd v x2 d1 flt d2 arm sill d3
  split
  · exact d.reports_setSrc s x1
  · have h1 : d.reports d1 := (d.reports_setSrc s x2).trans (Dev.reports_sillPush _ _ _ _ _)
    have h2 : d1.reports d2 := Dev.reports_ite (d1.reports_setFirst _ _) d1.reports_refl
    have h3 : d2.reports d3 := Dev.reports_ite ⟨⟨_, _, _, rfl⟩, fun _ _ => rfl⟩ d2.reports_refl
    exact h1.trans (h2.trans h3)

/-- The level newly reached is no higher than the occurrence's severity (R289). -/
theorem Dev.recordGraded_level_le (d : Dev) (s : Nat) (r : Report) (level inA inB : Bool) (g : Nat × Bool × Bool × Bool) :
    (d.recordGraded s r level inA inB g).2 ≤ g.1 := by
  have hv : (BitVec.ofNat 3 g.1).toNat ≤ g.1 := by
    rw [BitVec.toNat_ofNat]
    exact Nat.mod_le _ _
  have hmax (c : Bool) (a : BitVec 3) :
      (if c && a < BitVec.ofNat 3 g.1 then BitVec.ofNat 3 g.1 else a).toNat ≤ max g.1 a.toNat := by
    split <;> omega
  unfold Dev.recordGraded
  extract_lets x sev x1 capture fst rcd v x2 d1 flt d2 arm sill d3
  have hx : x.sev = max x.sevA.toNat x.sevB.toNat := rfl
  have hx2 : x2.sev = max x2.sevA.toNat x2.sevB.toNat := rfl
  have hA : x2.sevA.toNat ≤ max g.1 x.sevA.toNat := hmax _ _
  have hB : x2.sevB.toNat ≤ max g.1 x.sevB.toNat := hmax _ _
  have hle : (if x.sev < x2.sev then x2.sev else 0) ≤ g.1 := by
    split <;> omega
  split
  · exact Nat.zero_le _
  · exact hle

/-- Below CRITICAL a reaction raises an attention cause at most (Table 11.3). -/
theorem Dev.react_reports (rep : Dev → Nat → Report → Dev) (d : Dev) (s : Nat) (r : Report) {level : Nat} (h : level ≤ 3) :
    d.reports (d.react rep s r level) := by
  match level, h with
  | 0, _ => exact d.reports_refl
  | 1, _ => exact d.reports_refl
  | 2, _ => exact d.reports_raiseAttn 4
  | 3, _ => exact d.reports_raiseAttn 9

/-! ### The sources of the link -/

/-- The sources of the link and of its two directions' lanes, and the events they report (Table 11.2). -/
def linkSources : List Nat := [124, 125, 126]
def linkEvents : List (BitVec 8) := [1, 2, 3]

theorem dirSource_mem : ∀ dir : Dir, dirSource dir ∈ linkSources
  | .rx => by decide
  | .tx => by decide

/-- A source's configuration stands where its two registers do. -/
theorem Dev.mild_of_regs {d e : Dev} {n : Nat} (hm : d.mild n) (hsrc : e.reg (A.srcCfg n) = d.reg (A.srcCfg n))
    (hcfg : e.reg A.faultCfg = d.reg A.faultCfg) : e.mild n := by
  obtain ⟨hbase, hcount, hesc⟩ := hm
  have hf (lo len : Nat) : e.fldR (A.srcCfg n) lo len = d.fldR (A.srcCfg n) lo len := congrArg (fld · lo len) hsrc
  refine ⟨(hf 0 3).trans_le hbase, (hf 24 8).trans hcount, ?_⟩
  rw [← hesc, Dev.escMask, Dev.escMask, hcfg]

/-- Registers but those of a source's configuration may change without its grade changing. -/
theorem Dev.mild_of_regsBut {d e : Dev} {n a : Nat} (hm : d.mild n) (h : d.regsBut e [a]) (hsrc : A.srcCfg n ≠ a)
    (hcfg : A.faultCfg ≠ a) : e.mild n :=
  Dev.mild_of_regs hm (h _ (List.mem_singleton.not.mpr hsrc)) (h _ (List.mem_singleton.not.mpr hcfg))

section
variable {d : Dev} {n : Nat} (hn : n ∈ linkSources)
include hn

theorem Dev.reports.mild {e : Dev} (h : d.reports e) (hm : d.mild n) : e.mild n :=
  Dev.mild_of_regs hm (h.2 _ ((by decide : ∀ n ∈ linkSources, A.srcCfg n ∉ reportRegs) n hn)) (h.2 _ (by decide))

theorem Dev.gradeSev_le_of_mild (hm : d.mild n) {ev : BitVec 8} (hev : ev ∈ linkEvents) : (d.gradeSev n ev.toNat).1 ≤ 3 := by
  obtain ⟨hbase, hcount, hesc⟩ := hm
  have hfix : fixedSev n ev.toNat = none :=
    (by decide : ∀ n ∈ linkSources, ∀ ev ∈ linkEvents, fixedSev n ev.toNat = none) n hn ev hev
  simp only [Dev.gradeSev, hfix, hcount, hesc]
  split
  · exact Nat.zero_le _
  · simpa using hbase

theorem Dev.fault_reports (hm : d.mild n) {r : Report} (hev : r.event ∈ linkEvents) : d.reports (d.fault n r) :=
  (Dev.recordGraded_reports _ _ _ _ _ _ _).trans
    (Dev.react_reports _ _ _ _ ((Dev.recordGraded_level_le _ _ _ _ _ _ _).trans (Dev.gradeSev_le_of_mild hn hm hev)))

end

end Sys2Proof.Machine
end

section
/-! SUPPORT. Flits (R62 to R81): what a flit that arrives does by its CRC, its ACK and its type, which flit leaves at a boundary,
and what is replayed. -/

namespace Sys2Proof.Machine

/-! ### A flit arrives (R62, R65, R71) -/

section
variable {d : Dev} (hup : d.link.st = .up) (hawake : d.link.standby = false)
include hup hawake

/-- With no change requested or announced a flit is read under the lane map as it stands. -/
theorem Dev.flitLanes_of_noChange (hreq : d.link.req = none) (hchange : d.link.rxChange = none)
    (lanes : List (List (BitVec 48))) : d.flitLanes lanes = d.flitRx (unstripe d.link.rxLanes lanes) := by
  simp [Dev.flitLanes, Dev.rxAdopt, hup, hawake, hreq, hchange]

theorem Dev.flitRx_of_bad {f : Flit} (hbad : flitGood f = false) : d.flitRx f = (d.bump A.errcnt 32 16).sendNak := by
  simp [Dev.flitRx, hup, hawake, hbad]

/-- A good flit whose header is no protocol error acts by its type. -/
theorem Dev.flitRx_of_idle {f : Flit} (hgood : flitGood f = true) (herr : (d.headerRx f.hdr).2 = false)
    (htype : fld f.hdr 60 4 = 0) : d.flitRx f = (d.headerRx f.hdr).1 := by
  simp [Dev.flitRx, hup, hawake, hgood, herr, htype]

theorem Dev.flitRx_of_data {f : Flit} (hgood : flitGood f = true) (herr : (d.headerRx f.hdr).2 = false)
    (htype : fld f.hdr 60 4 = 1) : d.flitRx f = (d.headerRx f.hdr).1.dataRx f := by
  simp [Dev.flitRx, hup, hawake, hgood, herr, htype]

end

/-- A bad flit's NAK, unless one is outstanding (R71). -/
theorem Dev.sendNak_eq (d : Dev) : d.sendNak = d.modLink (fun l =>
    { l with nakOut := true, ctlq := l.ctlq ++ (if l.nakOut then [] else [nakSlot l.exp]) }) := by
  cases h : d.link.nakOut with
  | false => simp [Dev.sendNak, h, Dev.modLink]
  | true =>
    have hsame : { d.link with nakOut := true } = d.link := by rw [← h]
    simp [Dev.sendNak, h, Dev.modLink, hsame]

/-- What a header writes of the link besides its ACK: XOFF, the change announced, the change requested (R65, R77, R84). -/
def Dev.hears (x y : Dev) : Prop := ∃ xoffP xoffM rxChange rxGap lastReq announce, y = x.modLink (fun l =>
  { l with xoffP := xoffP, xoffM := xoffM, rxChange := rxChange, rxGap := rxGap, lastReq := lastReq, announce := announce })

section
variable {x y : Dev} (h : x.hears y)
include h

theorem Dev.hears.st : y.link.st = x.link.st := by
  obtain ⟨_, _, _, _, _, _, rfl⟩ := h
  rfl

theorem Dev.hears.rxLanes : y.link.rxLanes = x.link.rxLanes := by
  obtain ⟨_, _, _, _, _, _, rfl⟩ := h
  rfl

theorem Dev.hears.exp : y.link.exp = x.link.exp := by
  obtain ⟨_, _, _, _, _, _, rfl⟩ := h
  rfl

theorem Dev.hears.replay : y.link.replay = x.link.replay := by
  obtain ⟨_, _, _, _, _, _, rfl⟩ := h
  rfl

theorem Dev.hears.txn : y.txn = x.txn := by
  obtain ⟨_, _, _, _, _, _, rfl⟩ := h
  rfl

theorem Dev.hears.rf : y.rf = x.rf := by
  obtain ⟨_, _, _, _, _, _, rfl⟩ := h
  rfl

end

theorem Dev.headerRx_eq (d : Dev) (hdr : BitVec 64) : ∃ e, d.hears e ∧
    d.headerRx hdr = if bit hdr 35 then e.ackRx (BitVec.ofNat 12 (fld hdr 36 12)) else (e, false) := by
  unfold Dev.headerRx
  extract_lets d1 lcmd lane c valid d2
  refine ⟨d2, ?_, rfl⟩
  unfold d2
  split_ifs <;> exact ⟨_, _, _, _, _, _, rfl⟩

/-- Without an ACK that is all. -/
theorem Dev.headerRx_of_noAck (d : Dev) {hdr : BitVec 64} (hack : bit hdr 35 = false) :
    ∃ e, d.hears e ∧ d.headerRx hdr = (e, false) := by
  obtain ⟨e, he, hhdr⟩ := d.headerRx_eq hdr
  exact ⟨e, he, hhdr.trans (if_neg (by simp [hack]))⟩

/-! ### Data flits (R66, R71, R76) -/

/-- A data flit of SEQ EXP is accepted: every valid slot of it counts. -/
theorem Dev.dataRx_of_inSequence {d : Dev} {f : Flit} (hseq : fld f.hdr 48 12 = d.link.exp.toNat) :
    d.dataRx f = Dev.each (fun s x => x.slotRx s) (validSlots f)
      (d.modLink (fun l => { l with exp := l.exp + 1, ackv := true, nakOut := false })) := by
  simp [Dev.dataRx, hseq]

theorem Dev.openTrack_eq (d : Dev) (vc : Vc) (tag : BitVec 12) :
    ∃ track, d.openTrack vc tag = d.modTxn (fun x => { x with track := track }) := by
  unfold Dev.openTrack
  split
  · exact ⟨d.txn.track, rfl⟩
  · exact ⟨_, rfl⟩

/-- A slot that is a whole message of VC Q enters the receive buffer. -/
theorem Dev.slotRx_of_single {d : Dev} {m : Slot} (hshape : reqShape m = some (.q, 1)) (hpart : d.txn.part = []) :
    ∃ track, d.slotRx m = d.modTxn (fun x =>
      { x with part := [], rx := x.rx ++ [{ vc := .q, tag := slotTag m, slots := [m] }], track := track }) := by
  have hslot : d.slotRx m = ((d.modTxn (fun x => { x with part := [] })).modTxn (fun x =>
      { x with rx := x.rx ++ [{ vc := .q, tag := slotTag m, slots := [m] }] })).openTrack .q (slotTag m) := by
    simp [Dev.slotRx, hpart, hshape, Dev.msgRx]
  obtain ⟨track, htrack⟩ := Dev.openTrack_eq ((d.modTxn (fun x => { x with part := [] })).modTxn (fun x =>
      { x with rx := x.rx ++ [{ vc := .q, tag := slotTag m, slots := [m] }] })) .q (slotTag m)
  exact ⟨track, hslot.trans htrack⟩

/-! ### Acknowledgement (R73) -/

section
variable {pre post : List TxFlit} {g : TxFlit} (hnodup : ((pre ++ [g] ++ post).map (fun (x : TxFlit) => x.seq)).Nodup)
include hnodup

/-- The flits before `g` have another SEQ, and so have those after it; none of the latter has one of the former's. -/
theorem takeWhile_before : (pre ++ [g] ++ post).takeWhile (fun x => x.seq ≠ g.seq) = pre := by
  have hpre : ∀ x ∈ pre, x.seq ≠ g.seq := by
    intro x hx he
    simp only [List.map_append, List.map_cons, List.map_nil, List.append_assoc] at hnodup
    exact (List.disjoint_of_nodup_append hnodup) (List.mem_map_of_mem hx) (by simp [he])
  rw [List.append_assoc, List.takeWhile_append_of_pos (by simpa using hpre)]
  simp

theorem filter_released : (pre ++ [g] ++ post).filter
    (fun x => !(pre.map (fun (y : TxFlit) => y.seq) ++ [g.seq]).contains x.seq) = post := by
  have hgone : ∀ x ∈ pre ++ [g], ¬ (!(pre.map (fun (y : TxFlit) => y.seq) ++ [g.seq]).contains x.seq) = true := by
    intro x hx
    have hmem : x.seq ∈ (pre ++ [g]).map (fun (y : TxFlit) => y.seq) := List.mem_map_of_mem hx
    rw [List.map_append, List.map_singleton] at hmem
    rw [List.contains_eq_mem, decide_eq_true hmem]
    exact Bool.false_ne_true
  have hkept : ∀ x ∈ post, (!(pre.map (fun (y : TxFlit) => y.seq) ++ [g.seq]).contains x.seq) = true := by
    intro x hx
    rw [List.map_append, List.map_append, List.map_singleton] at hnodup
    have hnot : x.seq ∉ pre.map (fun (y : TxFlit) => y.seq) ++ [g.seq] :=
      fun h => (List.disjoint_of_nodup_append hnodup) h (List.mem_map_of_mem hx)
    rw [List.contains_eq_mem, decide_eq_false hnot]
    rfl
  rw [List.filter_append, List.filter_eq_nil_iff.mpr hgone, List.nil_append, List.filter_eq_self.mpr hkept]

/-- An ACK of `g` releases it and the flits before it; the tries of the others start again. -/
theorem Dev.ackRx_releases {d : Dev} (hreplay : d.link.replay = pre ++ [g] ++ post) : ∃ resend track,
    d.ackRx g.seq = ((d.modLink (fun l => { l with replay := post.map (fun (x : TxFlit) => { x with tries := 0 }),
                                                    resend := resend })).modTxn (fun x => { x with track := track }), false) := by
  have hany : d.link.replay.any (fun x => x.seq = g.seq) = true := by simp [hreplay]
  let gone : List (BitVec 12) := pre.map (fun (y : TxFlit) => y.seq) ++ [g.seq]
  refine ⟨d.link.resend.filter (fun x => !gone.contains x),
    d.txn.track.filter (fun t => t.dead || !(t.seq.any (fun x => gone.contains x))), ?_⟩
  rw [Dev.ackRx, if_pos hany]
  simp only [Dev.modLink, Dev.modTxn, hreplay, takeWhile_before hnodup, filter_released hnodup, gone]

end

/-! ### A boundary (R64 to R72) -/

/-- `y` sends a flit of these slots over the lanes that `x` has (R62, R63). -/
def Dev.sends (x y : Dev) (slots : List (Option Slot)) : Prop := ∃ (hdr : BitVec 64) (crc : BitVec 64),
  crc = crc64 (flitBytes hdr (slots.map slotOr0)) ∧ y.link.lastTx = some (hdr, slots, crc) ∧
    y.link.lanesOut = stripe x.link.txLanes (flitWords { hdr := hdr, slots := slots.map slotOr0, crc := crc }) none
      x.link.prbsFrom

theorem Link.afterLarg_eq (l : Link) :
    ∃ a b c, l.afterLarg = { l with announce := a, announced := b, announceGap := c } := by
  unfold Link.afterLarg
  split
  · exact ⟨_, _, _, rfl⟩
  · split
    · exact ⟨_, _, _, rfl⟩
    · exact ⟨_, _, _, rfl⟩

/-- Sending a flit leaves what is to be sent later. -/
theorem Dev.loadFlit_sends {d : Dev} (ftype : Nat) (seq : BitVec 12) (slots : List (Option Slot))
    (hann : d.link.announced = none) : d.sends (d.loadFlit ftype seq slots) slots ∧
      ∃ announce announced gap xq lastTx lanesOut, d.loadFlit ftype seq slots = d.modLink (fun l =>
        { l with announce := announce, announced := announced, announceGap := gap, xoffQ := xq, freshXoff := false,
                 lastTx := lastTx, prbsFrom := none, lanesOut := lanesOut }) := by
  have hadopt : d.txAdopt = d := by simp [Dev.txAdopt, hann]
  have hcopy : d.link.swapCopy = none := by simp [Link.swapCopy, hann]
  obtain ⟨announce, announced, gap, hlarg⟩ := d.link.afterLarg_eq
  refine ⟨⟨_, _, rfl, rfl, ?_⟩, announce, announced, gap, ?_⟩
  · simp only [Dev.loadFlit, hadopt, Dev.modLink, hcopy]
  · simp only [Dev.loadFlit, hadopt, Dev.modLink, hlarg]
    exact ⟨_, _, _, rfl⟩

/-! ### What a boundary sends (R64, R69, R70, R72) -/

/-- A boundary after which nothing that waited for a completion goes on. -/
theorem exec_flitTx {s : State} {d : Dev} (hlive : s.dev.live = true) (hd : s.dev.flitBoundary = (d, [])) :
    exec .flitTx s = .next { s with dev := d } := by
  refine (devNext_of_live _ hlive).trans ?_
  rw [hd]
  rfl

/-- The flit of SEQ `a` has been replayed once more, and `r` are still to be (R72, R74). -/
def Link.triedAgain (l : Link) (a : BitVec 12) (r : List (BitVec 12)) : Link :=
  { l with resend := r, replay := modFirst (fun x => x.seq = a) (fun x => { x with tries := x.tries + 1 }) l.replay }

/-- A new data flit of these slots has taken the next SEQ and joined the replay buffer (R70). -/
def Link.withNew (l : Link) (slots : List (Option Slot)) : Link :=
  { l with next := l.next + 1, wrapped := l.wrapped || l.next + 1 = 0,
           replay := l.replay ++ [{ seq := l.next, slots := slots, tries := 0 }] }

section
variable {d : Dev} (hup : d.link.st = .up) (hawake : d.link.standby = false)
include hup hawake

theorem Dev.flitBoundary_of_control (hctl : d.link.ctlq ≠ []) : d.flitBoundary =
    ((d.modLink (fun l => { l with ctlq := l.ctlq.drop 14 })).loadFlit 2 0 (padSlots (d.link.ctlq.take 14)), []) := by
  simp [Dev.flitBoundary, hup, hawake, hctl]

section
variable (hctl : d.link.ctlq = [])
include hctl

theorem Dev.flitBoundary_of_resend {g : TxFlit} {r : List (BitVec 12)} (hresend : d.link.resend = g.seq :: r)
    (hfind : d.link.replay.find? (fun x => x.seq = g.seq) = some g) : d.flitBoundary =
      ((d.modLink (fun l => l.triedAgain g.seq r)).loadFlit 1 g.seq g.slots, []) := by
  simp [Link.triedAgain, Dev.flitBoundary, hup, hawake, hctl, hresend, hfind]

theorem Dev.flitBoundary_of_new (hresend : d.link.resend = []) {q : Dev × List AfterRsp} (hnew : d.newDataFlit = some q) :
    d.flitBoundary = q := by
  simp [Dev.flitBoundary, hup, hawake, hctl, hresend, hnew]

theorem Dev.flitBoundary_of_idle (hresend : d.link.resend = []) (hnew : d.newDataFlit = none) :
    d.flitBoundary = (d.loadFlit 0 0 (padSlots []), []) := by
  simp [Dev.flitBoundary, hup, hawake, hctl, hresend, hnew]

end

end

/-! ### New data flits (R66, R79) -/

/-- With both queues empty no slot is filled. -/
theorem fillSlots_of_empty {x : Txn} (hP : x.outP = []) (hM : x.outM = []) (xoffP xoffM : Bool) (ctr n : Nat)
    (acc : List Slot) (done : List OutMsg) : fillSlots xoffP xoffM ctr n x acc done = (x, acc, done) := by
  cases n with
  | zero => rfl
  | succ n => simp [fillSlots, Txn.pickVc, hP, hM]

/-- A message of one slot, alone in the queue of VC P, fills one slot and ends. -/
theorem fillSlots_of_single {x : Txn} {o : OutMsg} {m : Slot} (hP : x.outP = [o]) (hM : x.outM = []) (hslots : o.slots = [m])
    (xoffM : Bool) (ctr n : Nat) :
    fillSlots false xoffM ctr (n + 1) x [] [] = ({ x with outP := [] }, [m], [o]) := by
  have hpick : x.pickVc false xoffM (Config.freeBool (ctr + n)) = some false := by
    cases hstart : o.started <;> simp [Txn.pickVc, hP, hM, hstart]
  have htake : takeSlot x.outP = some ([], m, some o) := by simp [takeSlot, hP, hslots]
  simp only [fillSlots, hpick, htake]
  exact fillSlots_of_empty (x := { x with outP := [] }) rfl hM _ _ _ _ _ _

theorem Dev.newDataFlit_of_empty {d : Dev} (hP : d.txn.outP = []) (hM : d.txn.outM = []) : d.newDataFlit = none := by
  simp [Dev.newDataFlit, fillSlots_of_empty hP hM]

/-- The last slot of a message other than RESYNC marks its track (R115). -/
theorem Dev.msgSent_eq (d : Dev) (seq : BitVec 12) {o : OutMsg} (hresync : o.resync = false) :
    ∃ track, d.msgSent seq o = d.modTxn (fun x => { x with track := track }) :=
  ⟨_, if_neg (by simp [hresync])⟩

/-- The flit that carries the one message of VC P. -/
theorem Dev.newDataFlit_of_single {d : Dev} {o : OutMsg} {m : Slot} (hroom : d.link.replay.length < 256)
    (hP : d.txn.outP = [o]) (hM : d.txn.outM = []) (hslots : o.slots = [m]) (hvc : o.vc = .q) (hresync : o.resync = false)
    (hxoff : d.link.xoffP = false) : ∃ ctr track, d.newDataFlit =
      some (((({ d with freeCtr := ctr }).modTxn (fun x => { x with outP := [], track := track })).modLink
        (fun l => l.withNew (padSlots [m]))).loadFlit 1 d.link.next (padSlots [m]), []) := by
  have hfill := fillSlots_of_single hP hM hslots d.link.xoffM d.freeCtr 13
  obtain ⟨track, htrack⟩ :=
    Dev.msgSent_eq { d with txn := { d.txn with outP := [] }, freeCtr := d.freeCtr + 14 } d.link.next hresync
  have hrsp : [o].filter (fun x => x.vc = .m && !x.resync) = [] := by simp [hvc]
  refine ⟨d.freeCtr + 14, track, ?_⟩
  rw [Dev.newDataFlit, if_neg hroom.not_ge, hxoff, hfill]
  dsimp only
  rw [if_neg (List.cons_ne_nil m []), Dev.each, Dev.each, htrack, hrsp]
  rfl

/-! ### Replay (R72 to R74) -/

/-- The flits from the first that satisfies `c` are replayed, where none has been replayed too often. -/
theorem Dev.replayFrom_resends {d : Dev} {c : TxFlit → Bool} (hne : d.link.replay.dropWhile (fun x => !c x) ≠ [])
    (htries : d.replayMax = 0 ∨ ∀ x ∈ d.link.replay.dropWhile (fun x => !c x), x.tries < d.replayMax) :
    d.replayFrom c = (d.modLink (fun l =>
      { l with resend := (d.link.replay.dropWhile (fun x => !c x)).map (fun x => x.seq) })).bump A.errcnt 16 16 := by
  have hmax : (d.replayMax ≠ 0 && (d.link.replay.dropWhile (fun x => !c x)).any (fun x => d.replayMax ≤ x.tries)) = false := by
    obtain hzero | hlt := htries
    · simp [hzero]
    · have hany : (d.link.replay.dropWhile (fun x => !c x)).any (fun x => d.replayMax ≤ x.tries) = false :=
        List.any_eq_false.mpr fun x hx => by simpa using hlt x hx
      rw [hany, Bool.and_false]
  rw [Dev.replayFrom, if_neg hne, if_neg (by rw [hmax]; exact Bool.false_ne_true)]

/-! ### The clauses of the statement on flits -/

section
variable {s : State} (hlive : s.dev.live = true) (hup : s.dev.link.st = .up)
include hlive hup

section
variable (hawake : s.dev.link.standby = false) (hreq : s.dev.link.req = none) (hchange : s.dev.link.rxChange = none)
  (lanes : List (List (BitVec 48)))
include hawake hreq hchange

theorem exec_dataFlitRx : exec (.dataFlitRx lanes) s =
    .next { s with dev := s.dev.flitRx (unstripe s.dev.link.rxLanes lanes) } := by
  refine (devNext_of_live _ hlive).trans ?_
  rw [Dev.flitLanes_of_noChange hup hawake hreq hchange]

theorem badFlit_isCounted (hbad : flitGood (unstripe s.dev.link.rxLanes lanes) = false) :
    ∃ d : Dev, exec (.dataFlitRx lanes) s = .next { s with dev := d } ∧ d.link.exp = s.dev.link.exp ∧
      d.link.nakOut = true ∧ d.txn = s.dev.txn ∧
      d.link.ctlq = s.dev.link.ctlq ++ (if s.dev.link.nakOut then [] else [nakSlot s.dev.link.exp]) ∧
      d.fldR A.errcnt 32 16 = min (s.dev.fldR A.errcnt 32 16 + 1) 65535 ∧ s.dev.regsBut d [A.errcnt] := by
  have hexec := exec_dataFlitRx hlive hup hawake hreq hchange lanes
  rw [Dev.flitRx_of_bad hup hawake hbad, Dev.sendNak_eq] at hexec
  exact ⟨_, hexec, rfl, rfl, rfl, rfl, s.dev.fldR_bump_same _ _ _ (by decide) (by decide), s.dev.bump_regsBut _ _ _⟩

theorem dataFlit_isAccepted {m : Slot} {f : Flit} (hf : unstripe s.dev.link.rxLanes lanes = f) (hgood : flitGood f = true)
    (hack : bit f.hdr 35 = false) (htype : fld f.hdr 60 4 = 1) (hseq : fld f.hdr 48 12 = s.dev.link.exp.toNat)
    (hslots : validSlots f = [m]) (hshape : reqShape m = some (.q, 1)) (hpart : s.dev.txn.part = []) :
    ∃ d : Dev, exec (.dataFlitRx lanes) s = .next { s with dev := d } ∧ d.link.exp = s.dev.link.exp + 1 ∧
      d.link.ackv = true ∧ d.link.nakOut = false ∧
      d.txn.rx = s.dev.txn.rx ++ [{ vc := .q, tag := slotTag m, slots := [m] }] ∧ d.rf = s.dev.rf := by
  obtain ⟨e, he, hhdr⟩ := s.dev.headerRx_of_noAck hack
  have hexec := exec_dataFlitRx hlive hup hawake hreq hchange lanes
  rw [← he.exp] at hseq
  rw [← he.txn] at hpart
  rw [hf, Dev.flitRx_of_data hup hawake hgood (by rw [hhdr]) htype, hhdr, Dev.dataRx_of_inSequence hseq, hslots, Dev.each,
    Dev.each] at hexec
  obtain ⟨track, hslot⟩ := Dev.slotRx_of_single
    (d := e.modLink (fun l => { l with exp := l.exp + 1, ackv := true, nakOut := false })) hshape hpart
  rw [hslot] at hexec
  exact ⟨_, hexec, congrArg (· + 1) he.exp, rfl, rfl, congrArg (·.rx ++ _) he.txn, he.rf⟩

theorem idleFlit_releases {pre post : List TxFlit} {g : TxFlit} {f : Flit} (hf : unstripe s.dev.link.rxLanes lanes = f)
    (hgood : flitGood f = true) (hack : bit f.hdr 35 = true) (htype : fld f.hdr 60 4 = 0)
    (hreplay : s.dev.link.replay = pre ++ [g] ++ post) (hseq : fld f.hdr 36 12 = g.seq.toNat)
    (hnodup : (s.dev.link.replay.map (fun (x : TxFlit) => x.seq)).Nodup) :
    ∃ d : Dev, exec (.dataFlitRx lanes) s = .next { s with dev := d } ∧ d.link.exp = s.dev.link.exp ∧ d.rf = s.dev.rf ∧
      d.link.replay = post.map (fun (x : TxFlit) => { x with tries := 0 }) := by
  obtain ⟨e, he, hhdr⟩ := s.dev.headerRx_eq f.hdr
  rw [hreplay] at hnodup
  obtain ⟨resend, track, hrel⟩ := Dev.ackRx_releases hnodup (he.replay.trans hreplay)
  rw [if_pos hack, hseq, BitVec.ofNat_toNat, BitVec.setWidth_eq, hrel] at hhdr
  have hexec := exec_dataFlitRx hlive hup hawake hreq hchange lanes
  rw [hf, Dev.flitRx_of_idle hup hawake hgood (by rw [hhdr]) htype, hhdr] at hexec
  exact ⟨_, hexec, he.exp, he.rf, rfl⟩

end

/-! Boundaries. -/

section
variable (hawake : s.dev.link.standby = false) (hann : s.dev.link.announced = none)
include hawake hann

theorem flitTx_sendsControl (hctl : s.dev.link.ctlq ≠ []) : ∃ d : Dev, exec .flitTx s = .next { s with dev := d } ∧
    s.dev.sends d (padSlots (s.dev.link.ctlq.take 14)) ∧ d.link.ctlq = s.dev.link.ctlq.drop 14 ∧
    d.link.next = s.dev.link.next ∧ d.link.replay = s.dev.link.replay := by
  have hexec := exec_flitTx hlive (Dev.flitBoundary_of_control hup hawake hctl)
  obtain ⟨hsent, _, _, _, _, _, _, hload⟩ := Dev.loadFlit_sends
    (d := s.dev.modLink (fun l => { l with ctlq := l.ctlq.drop 14 })) 2 0 (padSlots (s.dev.link.ctlq.take 14)) hann
  rw [hload] at hexec hsent
  exact ⟨_, hexec, hsent, rfl, rfl, rfl⟩

section
variable (hctl : s.dev.link.ctlq = [])
include hctl

theorem flitTx_replays {g : TxFlit} {r : List (BitVec 12)} (hresend : s.dev.link.resend = g.seq :: r)
    (hfind : s.dev.link.replay.find? (fun x => x.seq = g.seq) = some g) : ∃ d : Dev, exec .flitTx s = .next { s with dev := d } ∧
      s.dev.sends d g.slots ∧ d.link.resend = r ∧ d.link.next = s.dev.link.next := by
  have hexec := exec_flitTx hlive (Dev.flitBoundary_of_resend hup hawake hctl hresend hfind)
  obtain ⟨hsent, _, _, _, _, _, _, hload⟩ := Dev.loadFlit_sends
    (d := s.dev.modLink (fun l => l.triedAgain g.seq r)) 1 g.seq g.slots hann
  rw [hload] at hexec hsent
  exact ⟨_, hexec, hsent, rfl, rfl⟩

theorem flitTx_sendsNew (hresend : s.dev.link.resend = []) {o : OutMsg} {m : Slot} (hroom : s.dev.link.replay.length < 256)
    (hP : s.dev.txn.outP = [o]) (hM : s.dev.txn.outM = []) (hslots : o.slots = [m]) (hvc : o.vc = .q)
    (hresync : o.resync = false) (hxoff : s.dev.link.xoffP = false) :
    ∃ d : Dev, exec .flitTx s = .next { s with dev := d } ∧ s.dev.sends d (padSlots [m]) ∧ d.txn.outP = [] ∧
      d.link.next = s.dev.link.next + 1 ∧
      d.link.replay = s.dev.link.replay ++ [{ seq := s.dev.link.next, slots := padSlots [m], tries := 0 }] := by
  obtain ⟨ctr, track, hnew⟩ := Dev.newDataFlit_of_single hroom hP hM hslots hvc hresync hxoff
  have hexec := exec_flitTx hlive (Dev.flitBoundary_of_new hup hawake hctl hresend hnew)
  obtain ⟨hsent, _, _, _, _, _, _, hload⟩ := Dev.loadFlit_sends
    (d := (({ s.dev with freeCtr := ctr }).modTxn (fun x => { x with outP := [], track := track })).modLink
      (fun l => l.withNew (padSlots [m]))) 1 s.dev.link.next (padSlots [m]) hann
  rw [hload] at hexec hsent
  exact ⟨_, hexec, hsent, rfl, rfl, rfl⟩

theorem flitTx_idles (hresend : s.dev.link.resend = []) (hP : s.dev.txn.outP = []) (hM : s.dev.txn.outM = []) :
    ∃ d : Dev, exec .flitTx s = .next { s with dev := d } ∧ s.dev.sends d (padSlots []) ∧ d.link.next = s.dev.link.next ∧
      d.link.replay = s.dev.link.replay ∧ d.txn = s.dev.txn := by
  have hexec := exec_flitTx hlive (Dev.flitBoundary_of_idle hup hawake hctl hresend (Dev.newDataFlit_of_empty hP hM))
  obtain ⟨hsent, _, _, _, _, _, _, hload⟩ := Dev.loadFlit_sends (d := s.dev) 0 0 (padSlots []) hann
  rw [hload] at hexec hsent
  exact ⟨_, hexec, hsent, rfl, rfl, rfl⟩

end

end

end

/-! Replay, and the round trip. -/

theorem exec_nak {s : State} (seq : BitVec 12) (hup : s.dev.link.st = .up) :
    exec (.nak seq) s = devNext s (s.dev.replayFrom (fun x => x.seq = seq)) := congrArg (devNext s) (if_pos hup)

theorem exec_ackTimeout {s : State} (hup : s.dev.link.st = .up) (htimer : s.dev.linkCfg 0x34 2 4096 ≠ 0) :
    exec .ackTimeout s = devNext s (s.dev.replayFrom (fun _ => true)) :=
  congrArg (devNext s) (if_pos (by simp [Dev.linkIsUp, hup, htimer]))

section
variable {s : State} (hlive : s.dev.live = true)
include hlive

/-- A command that replays from the first flit that satisfies `c` sends it again with all that follow, and counts that. -/
theorem replay_resends {i : Instr} {c : TxFlit → Bool} {l : List TxFlit} (hexec : exec i s = devNext s (s.dev.replayFrom c))
    (hl : s.dev.link.replay.dropWhile (fun x => !c x) = l) (hne : l ≠ [])
    (htries : s.dev.replayMax = 0 ∨ ∀ x ∈ l, x.tries < s.dev.replayMax) :
    ∃ d : Dev, exec i s = .next { s with dev := d } ∧ d.link.resend = l.map (fun (x : TxFlit) => x.seq) ∧
      d.link.replay = s.dev.link.replay ∧ d.fldR A.errcnt 16 16 = min (s.dev.fldR A.errcnt 16 16 + 1) 65535 ∧
      s.dev.regsBut d [A.errcnt] := by
  subst hl
  rw [Dev.replayFrom_resends hne htries, devNext_of_live _ hlive] at hexec
  exact ⟨_, hexec, rfl, rfl, Dev.fldR_bump_same _ _ _ _ (by decide) (by decide), Dev.bump_regsBut _ _ _ _⟩

theorem exec_nakTimeout (hup : s.dev.link.st = .up) (hnak : s.dev.link.nakOut = true)
    (htimer : s.dev.linkCfg 0x32 2 2048 ≠ 0) : exec .nakTimeout s =
      .next { s with dev := s.dev.modLink (fun l => { l with ctlq := l.ctlq ++ [nakSlot l.exp] }) } := by
  refine (congrArg (devNext s) (if_pos ?_)).trans (devNext_of_live _ hlive)
  simp [Dev.linkIsUp, hup, hnak, htimer]

theorem exec_rttProbe (stamp : BitVec 16) (hdown : s.dev.link.st ≠ .down) : exec (.rttProbe stamp) s =
    .next { s with dev := s.dev.modLink (fun l => { l with ctlq := l.ctlq ++ [ctlSlot 3 (stamp.toNat <<< 104)] }) } :=
  (congrArg (devNext s) (if_neg hdown)).trans (devNext_of_live _ hlive)

theorem exec_rttEcho (stamp : BitVec 16) (cc : Nat) (htrain : s.dev.link.st = .training) (hprobes : s.dev.link.probesLeft ≠ 0) :
    exec (.rttEcho stamp cc) s =
      .next { s with dev := s.dev.modLink (fun l => { l with rttMax := max l.rttMax cc, probesLeft := l.probesLeft - 1 }) } := by
  refine (congrArg (devNext s) (if_pos ?_)).trans (devNext_of_live _ hlive)
  simp [htrain, hprobes]

end

/-- Settles O55, from what each kind of flit does as it arrives, what each boundary sends, and what is replayed. -/
theorem flitsFlow : Obligations.FlitsFlow := by
  refine ⟨fun s lanes hlive hup hawake hreq hchange => ?_, fun s hlive hup hawake hann => ?_, fun s seq hlive hup => ?_,
    fun s stamp cc hlive => ?_, fun s lane pass errors => devNext_self s⟩
  · refine ⟨badFlit_isCounted hlive hup hawake hreq hchange lanes, fun m hgood hack htype hseq hslots hshape hpart => ?_,
      fun pre post g hgood hack htype hreplay hseq hnodup => ?_⟩
    · exact dataFlit_isAccepted hlive hup hawake hreq hchange lanes rfl hgood hack htype hseq hslots hshape hpart
    · exact idleFlit_releases hlive hup hawake hreq hchange lanes rfl hgood hack htype hreplay hseq hnodup
  · refine ⟨flitTx_sendsControl hlive hup hawake hann, fun g r hctl hresend hfind => ?_,
      fun o m hctl hresend hroom hP hM hslots hvc hresync hxoff => ?_, fun hctl hresend hP hM => ?_⟩
    · exact flitTx_replays hlive hup hawake hann hctl hresend hfind
    · exact flitTx_sendsNew hlive hup hawake hann hctl hresend hroom hP hM hslots hvc hresync hxoff
    · exact flitTx_idles hlive hup hawake hann hctl hresend hP hM
  · refine ⟨replay_resends hlive (exec_nak seq hup) (by simp only [ne_eq, decide_not]),
      fun htimer => replay_resends hlive (exec_ackTimeout hup htimer) ?_,
      fun hnak htimer => ⟨_, exec_nakTimeout hlive hup hnak htimer, rfl, rfl⟩⟩
    cases s.dev.link.replay <;> rfl
  · exact ⟨fun hdown => ⟨_, exec_rttProbe hlive stamp hdown, rfl, rfl⟩,
      fun htrain hprobes => ⟨_, exec_rttEcho hlive stamp cc htrain hprobes, rfl, rfl, rfl⟩⟩

end Sys2Proof.Machine
end

section
/-! SUPPORT. Lanes of the link (R82 to R88): which change request follows, a lane that fails, the changes and their counts, and
lane tests. -/

namespace Sys2Proof.Machine

/-! ### The lowest-numbered lane -/

theorem lowestLane_eq_none {v : Vector Lane 22} {c : Nat → Lane → Bool} (h : ∀ i < 22, c i (laneAt v i) = false) :
    lowestLane v c = none := by
  refine List.find?_eq_none.mpr (fun i hi => ?_)
  rw [h i (List.mem_range.mp hi)]
  exact Bool.false_ne_true

theorem lowestLane_isSome {v : Vector Lane 22} {c : Nat → Lane → Bool} {i : Nat} (hi : i < 22) (h : c i (laneAt v i) = true) :
    (lowestLane v c).isSome = true :=
  List.find?_isSome.mpr ⟨i, List.mem_range.mpr hi, h⟩

theorem lowestLane_eq_only {v : Vector Lane 22} {c : Nat → Lane → Bool} {k : Nat} (hk : k < 22) (h : c k (laneAt v k) = true)
    (honly : ∀ i, c i (laneAt v i) = true → i = k) : lowestLane v c = some k := by
  obtain ⟨i, hi⟩ := Option.isSome_iff_exists.mp (lowestLane_isSome hk h)
  rw [hi, honly i (List.find?_some (p := fun i => c i (laneAt v i)) hi)]

/-! ### Change requests (R83) -/

/-- Where no lane of the link is failing, no request is called for. -/
theorem Link.nextRequest_of_noneFailing {l : Link} (h : ∀ x ∈ l.failing, 22 ≤ x) : l.nextRequest = none := by
  have hnot (i : Nat) (hi : i < 22) : l.failing.contains i = false := by
    rw [List.contains_eq_mem, decide_eq_false_iff_not]
    exact fun hmem => absurd (h i hmem) (by omega)
  have hspare : lowestLane l.rxLanes (fun i x => l.failing.contains i && x.isSpare) = none :=
    lowestLane_eq_none fun i hi => by rw [hnot i hi, Bool.false_and]
  have hactive : lowestLane l.rxLanes (fun i x => l.failing.contains i && x.isActive) = none :=
    lowestLane_eq_none fun i hi => by rw [hnot i hi, Bool.false_and]
  simp only [Link.nextRequest, hspare, hactive]

theorem Lane.isSpare_of_isActive {x : Lane} (h : x.isActive = true) : x.isSpare = false := by
  cases x with
  | active k => rfl
  | spare | out | unused => cases h

theorem Lane.not_used_of_isOut {x : Lane} (h : x.isOut = true) : (x.isActive || x.isSpare) = false := by
  cases x with
  | out => rfl
  | active | spare | unused => cases h

/-- One active lane fails and a spare is there: a SWAP is called for. -/
theorem Link.nextRequest_of_oneFailing {l : Link} {k i : Nat} (hk : k < 22) (hi : i < 22) (hf : l.failing = [k])
    (hactive : (laneAt l.rxLanes k).isActive = true) (hspare : (laneAt l.rxLanes i).isSpare = true) :
    l.nextRequest = some (some { cmd := 1, lane := k }) := by
  have hfail (j : Nat) : l.failing.contains j = true ↔ j = k := by simp [hf]
  have hks : (laneAt l.rxLanes k).isSpare = false := Lane.isSpare_of_isActive hactive
  have hik : l.failing.contains i = false := by
    refine Bool.eq_false_iff.mpr fun h => ?_
    rw [(hfail i).mp h, hks] at hspare
    cases hspare
  have hfs : lowestLane l.rxLanes (fun j x => l.failing.contains j && x.isSpare) = none := by
    refine lowestLane_eq_none fun j _ => Bool.eq_false_iff.mpr fun h => ?_
    obtain ⟨hj, hs⟩ := Bool.and_eq_true_iff.mp h
    rw [(hfail j).mp hj, hks] at hs
    cases hs
  have hfa : lowestLane l.rxLanes (fun j x => l.failing.contains j && x.isActive) = some k :=
    lowestLane_eq_only hk (by rw [hactive, (hfail k).mpr rfl]; rfl)
      fun j h => (hfail j).mp (Bool.and_eq_true_iff.mp h).1
  have hother : (lowestLane l.rxLanes (fun j x => x.isSpare && !l.failing.contains j)).isSome = true :=
    lowestLane_isSome hi (by rw [hspare, hik]; rfl)
  simp only [Link.nextRequest, hfs, hfa, hother, if_true]

/-- The device with another request outstanding and other requests waiting. -/
def Dev.withReq (d : Dev) (req : Option Change) (wait : List Change) : Dev :=
  d.modLink (fun l => { l with req := req, reqWait := wait })

theorem Dev.withReq_self (d : Dev) : d.withReq d.link.req d.link.reqWait = d := rfl

theorem Dev.pickRequest_of_noneFailing {d : Dev} (h : ∀ x ∈ d.link.failing, 22 ≤ x) :
    ∃ req wait, d.pickRequest = (d.withReq req wait, false) := by
  rw [Dev.pickRequest, Link.nextRequest_of_noneFailing h]
  split
  · exact ⟨_, _, by rw [Dev.withReq_self]⟩
  · dsimp only
    split
    · exact ⟨_, _, by rw [Dev.withReq_self]⟩
    · exact ⟨_, _, rfl⟩

/-- A request that the failing lanes call for is raised when none is outstanding. -/
theorem Dev.pickRequest_of_called {d : Dev} {c : Change} (hup : d.link.st = .up) (hreq : d.link.req = none)
    (hnext : d.link.nextRequest = some (some c)) :
    d.pickRequest = (d.modLink (fun l => { l with req := some c }), false) := by
  simp [Dev.pickRequest, hreq, hup, hnext]

/-- With none failing and none outstanding, the first of the waiting requests has its turn. -/
theorem Dev.pickRequest_of_waiting {d : Dev} {c : Change} {r : List Change} (hf : d.link.failing = []) (hup : d.link.st = .up)
    (hreq : d.link.req = none) (hwait : d.link.reqWait = c :: r) : d.pickRequest = (d.withReq (some c) r, false) := by
  have hnone : d.link.nextRequest = none := Link.nextRequest_of_noneFailing (by simp [hf])
  simp [Dev.pickRequest, hreq, hup, hnone, hwait, Dev.withReq]

theorem Dev.nextReq_of_noneFailing {d : Dev} (h : d.link.failing = []) : ∃ req wait, d.nextReq = d.withReq req wait := by
  obtain ⟨req, wait, hq⟩ := Dev.pickRequest_of_noneFailing (d := d) (by simp [h])
  exact ⟨req, wait, by rw [Dev.nextReq, hq]; rfl⟩

/-! ### Failing lanes (R82) -/

/-- An active lane fails while a spare is there and no request is outstanding: it is failing, and its SWAP is asked for. -/
theorem Dev.laneFail_of_active {d : Dev} {k i : Nat} (hk : k < 22) (hi : i < 22) (hup : d.link.st = .up)
    (hf : d.link.failing = []) (hreq : d.link.req = none) (hactive : (laneAt d.link.rxLanes k).isActive = true)
    (hspare : (laneAt d.link.rxLanes i).isSpare = true) :
    d.laneFail k = d.modLink (fun l => { l with failing := [k], req := some { cmd := 1, lane := k } }) := by
  have hfailing : d.modLink (fun l => { l with failing := l.failing ++ [k] }) = d.modLink (fun l => { l with failing := [k] }) := by
    simp only [Dev.modLink, hf, List.nil_append]
  have hpick : (d.modLink (fun l => { l with failing := [k] })).pickRequest =
      (d.modLink (fun l => { l with failing := [k], req := some { cmd := 1, lane := k } }), false) :=
    Dev.pickRequest_of_called hup hreq (Link.nextRequest_of_oneFailing hk hi rfl hactive hspare)
  simp [Dev.laneFail, Dev.laneFailing, hactive, hf, hfailing, hpick]

/-- A lane that is neither active nor spare does not fail. -/
theorem Dev.laneFail_of_out {d : Dev} {k : Nat} (hout : (laneAt d.link.rxLanes k).isOut = true) : d.laneFail k = d := by
  simp [Dev.laneFail, Dev.laneFailing, Lane.not_used_of_isOut hout]

/-- A guard-band symbol of lane `k` is counted. -/
def Dev.countSymbol (d : Dev) (k : Fin 22) : Dev := d.modLink (fun l => { l with margin := l.margin.set k (l.margin[k] + 1) })

theorem Dev.countSymbol_margin (d : Dev) (k : Fin 22) : (d.countSymbol k).link.margin[k] = d.link.margin[k] + 1 := by
  simp [Dev.countSymbol, Dev.modLink]

/-- The count of lane `k` comes to a threshold that is set, in a window that is set (R8, R82). -/
def Dev.marginReached (d : Dev) (k : Fin 22) : Bool :=
  d.linkCfg 0x37 1 64 ≠ 0 && d.linkCfg 0x38 4 1000 ≠ 0 && d.linkCfg 0x37 1 64 ≤ d.link.margin[k] + 1

theorem Dev.marginReached_iff {d : Dev} {k : Fin 22} : d.marginReached k = true ↔
    d.linkCfg 0x37 1 64 ≠ 0 ∧ d.linkCfg 0x38 4 1000 ≠ 0 ∧ d.linkCfg 0x37 1 64 ≤ d.link.margin[k] + 1 := by
  simp only [Dev.marginReached, Bool.and_eq_true, decide_eq_true_eq, and_assoc]

theorem Dev.linkIsUp_eq {d : Dev} (hup : d.link.st = .up) : d.linkIsUp = true := by simp [Dev.linkIsUp, hup]

theorem Dev.guardSymbol_of_up {d : Dev} (k : Fin 22) (hup : d.link.st = .up) :
    d.guardSymbol k = if d.marginReached k then (d.countSymbol k).laneFail k.val else d.countSymbol k :=
  if_neg (by simp [Dev.linkIsUp_eq hup])

/-! ### Changes (R84, R85, R88) -/

/-- What SWAP, DROP and ADD do before the request ends: the lanes change, the change is counted, and it is reported. -/
theorem Dev.laneChange_reports {d : Dev} {dir : Dir} (lane : Fin 22) (cmd : BitVec 3) (v : Vector Lane 22) (ev : Nat)
    (attn : Option Nat) (out : Bool) (hm : d.mild (dirSource dir)) :
    ∃ y, ((d.modLink (fun l => l.setLanes dir v)).bump A.errcnt 0 8).reports y ∧
      d.laneChange dir lane cmd v ev attn out = y.changeDone dir { cmd := cmd, lane := lane.val } := by
  have hmem : dirSource dir ∈ linkSources := dirSource_mem dir
  unfold Dev.laneChange
  extract_lets d1 d2 d3 d4
  have hm1 : d1.mild (dirSource dir) := Dev.mild_of_regsBut hm (Dev.bump_regsBut _ _ _ _)
    ((by decide : ∀ n ∈ linkSources, A.srcCfg n ≠ A.errcnt) _ hmem) (by decide)
  have h2 : d1.reports d2 := by
    cases attn with
    | none => exact d1.reports_refl
    | some c => exact d1.reports_raiseAttn c
  have h3 : d1.reports d3 := h2.trans (d2.reports_sillLink ev)
  have h4 : d1.reports d4 := by
    cases out with
    | false => exact h3
    | true => exact h3.trans (Dev.fault_reports hmem (h3.mild hmem hm1) (by simp [linkReport, linkEvents]))
  exact ⟨_, h4.trans (Dev.fault_reports hmem (h4.mild hmem hm1) (by simp [linkReport, linkEvents])), rfl⟩

/-- The change `c` leaves no lane of the link failing. -/
def Link.noneFailsAfter (l : Link) (c : Change) : Prop := ∀ x ∈ l.failing, 22 ≤ x ∨ x = c.lane ∧ (c.cmd = 1 ∨ c.cmd = 2)

/-- A change of KRX that leaves none failing ends with at most another request outstanding. -/
theorem Dev.changeDone_rx {d : Dev} {c : Change} (hf : d.link.noneFailsAfter c) : ∃ failing req wait,
    d.changeDone .rx c =
      (d.modLink (fun l => { l with rxChange := none, rxGap := false, failing := failing })).withReq req wait := by
  unfold Dev.changeDone
  extract_lets d1 q
  have hd1 : ∀ x ∈ d1.link.failing, 22 ≤ x := by
    intro x hx
    change x ∈ (if c.cmd = 1 || c.cmd = 2 then d.link.failing.filter (· ≠ c.lane) else d.link.failing) at hx
    split at hx
    · obtain ⟨hmem, hne⟩ := List.mem_filter.mp hx
      exact (hf x hmem).resolve_right fun h => by simp [h.1] at hne
    · next hcmd =>
      exact (hf x hx).resolve_right fun h => hcmd (by simpa using h.2)
  obtain ⟨req, wait, hq⟩ := Dev.pickRequest_of_noneFailing hd1
  exact ⟨_, req, wait, by rw [show q = (d1.withReq req wait, false) from hq]; rfl⟩

theorem Dev.changeDone_keeps {d : Dev} {dir : Dir} {c : Change} (hf : dir = .rx → d.link.noneFailsAfter c) :
    ∃ l, d.changeDone dir c = { d with link := l } ∧ l.lanes dir = d.link.lanes dir ∧ l.st = d.link.st ∧
      l.exp = d.link.exp ∧ l.standby = d.link.standby := by
  cases dir with
  | tx => exact ⟨_, rfl, rfl, rfl, rfl, rfl⟩
  | rx =>
    obtain ⟨failing, req, wait, hd⟩ := Dev.changeDone_rx (hf rfl)
    exact ⟨_, hd, rfl, rfl, rfl, rfl⟩

/-- SWAP, DROP and ADD of `dir` have put its lanes as `v`: counted, reported, and the link otherwise as it was. -/
structure Dev.movesLanes (x y : Dev) (dir : Dir) (v : Vector Lane 22) : Prop where
  lanes : y.link.lanes dir = v
  st : y.link.st = x.link.st
  exp : y.link.exp = x.link.exp
  standby : y.link.standby = x.link.standby
  count : y.fldR A.errcnt 0 8 = min (x.fldR A.errcnt 0 8 + 1) 255
  regs : x.regsBut y (A.errcnt :: reportRegs)

theorem Dev.laneChange_movesLanes {d : Dev} {dir : Dir} (lane : Fin 22) (cmd : BitVec 3) (v : Vector Lane 22) (ev : Nat)
    (attn : Option Nat) (out : Bool) (hm : d.mild (dirSource dir))
    (hf : dir = .rx → d.link.noneFailsAfter { cmd := cmd, lane := lane.val }) :
    d.movesLanes (d.laneChange dir lane cmd v ev attn out) dir v := by
  obtain ⟨y, hy, he⟩ := Dev.laneChange_reports lane cmd v ev attn out hm
  have hlink : y.link = d.link.setLanes dir v := hy.link
  have hcount : y.fldR A.errcnt 0 8 = min (d.fldR A.errcnt 0 8 + 1) 255 :=
    (hy.fldR (by decide) 0 8).trans (Dev.fldR_bump_same _ _ _ _ (by decide) (by decide))
  have hregs : d.regsBut y (A.errcnt :: reportRegs) := by
    intro a ha
    rw [List.mem_cons, not_or] at ha
    exact (hy.2 a ha.2).trans (Dev.bump_regsBut _ _ _ _ a (List.mem_singleton.not.mpr ha.1))
  obtain ⟨l, hl, hlanes, hst, hexp, hstandby⟩ := Dev.changeDone_keeps (d := y) (dir := dir)
    (c := { cmd := cmd, lane := lane.val }) (by rw [hlink]; cases dir <;> exact hf)
  rw [hlink] at hlanes hst hexp hstandby
  rw [he, hl]
  cases dir <;> exact ⟨hlanes, hst, hexp, hstandby, hcount, hregs⟩

/-- SWAP, DROP and ADD as a change taking effect. -/
theorem Dev.changeNow_eq_laneChange (d : Dev) (dir : Dir) {c : Change} (hlo : 1 ≤ c.cmd.toNat) (hhi : c.cmd.toNat ≤ 3) :
    ∃ ev attn out, d.changeNow dir c =
      d.laneChange dir (Fin.ofNat 22 c.lane) c.cmd (c.lanes (d.link.lanes dir)) ev attn out := by
  obtain ⟨cmd, lane⟩ := c
  have hcmd : cmd = 1 ∨ cmd = 2 ∨ cmd = 3 := by
    dsimp only at hlo hhi
    bv_omega
  obtain rfl | rfl | rfl := hcmd
  · exact ⟨3, some 5, true, rfl⟩
  · exact ⟨4, some (if (laneAt (d.link.lanes dir) lane).isActive then 8 else 5), true, rfl⟩
  · exact ⟨5, none, false, rfl⟩

/-- SWAP, DROP and ADD of a lane, where no other lane is failing, and none at all for an ADD. -/
theorem Dev.changeNow_movesLanes {d : Dev} {dir : Dir} {c : Change} (hlo : 1 ≤ c.cmd.toNat) (hhi : c.cmd.toNat ≤ 3)
    (hm : d.mild (dirSource dir)) (hf : dir = .rx → (∀ x ∈ d.link.failing, x = c.lane) ∧ (c.cmd = 3 → d.link.failing = [])) :
    d.movesLanes (d.changeNow dir c) dir (c.lanes (d.link.lanes dir)) := by
  obtain ⟨ev, attn, out, he⟩ := d.changeNow_eq_laneChange dir hlo hhi
  rw [he]
  refine Dev.laneChange_movesLanes _ _ _ _ _ _ hm fun hdir x hx => ?_
  obtain ⟨hall, hadd⟩ := hf hdir
  have hlane : x = c.lane := hall x hx
  by_cases hlt : c.lane < 22
  · refine .inr ⟨hlane.trans (Nat.mod_eq_of_lt hlt).symm, ?_⟩
    have hne : c.cmd ≠ 3 := fun h => by simp [hadd h] at hx
    dsimp only
    bv_omega
  · exact .inl (by omega)

/-- A due change takes effect. -/
theorem Dev.changeAt_of_due {d : Dev} {dir : Dir} {c : Change} (hup : d.link.st = .up) (hdue : d.link.changeDue dir c = true) :
    d.changeAt dir c = d.changeNow dir c := by
  simp [Dev.changeAt, Dev.linkIsUp_eq hup, hdue]

/-- The commands that alter lanes: each is the change of its LCMD taking effect. -/
theorem exec_laneMove {s : State} {i : Instr} {dir : Dir} {k : Fin 22} {cmd : BitVec 3} {v : Vector Lane 22}
    (hlive : s.dev.live = true) (hmove : laneMove s.dev.link i = some (dir, k, cmd, v)) :
    exec i s = .next { s with dev := s.dev.changeAt dir { cmd := cmd, lane := k.val } } ∧ 1 ≤ cmd.toNat ∧ cmd.toNat ≤ 3 ∧
      v = Change.lanes { cmd := cmd, lane := k.val } (s.dev.link.lanes dir) := by
  cases i with
  | laneSwap | laneDrop | laneAdd =>
    cases hmove
    exact ⟨devNext_of_live _ hlive, by decide, by decide, rfl⟩
  | _ => cases hmove

theorem laneMove_moves (s : State) (i : Instr) (dir : Dir) (k : Fin 22) (cmd : BitVec 3) (v : Vector Lane 22)
    (hlive : s.dev.live = true) (hup : s.dev.link.st = .up) (hmove : laneMove s.dev.link i = some (dir, k, cmd, v))
    (hdue : s.dev.link.changeDue dir { cmd := cmd, lane := k.val } = true) (hm : s.dev.mild (dirSource dir))
    (hf : dir = .rx → (∀ x ∈ s.dev.link.failing, x = k.val) ∧ (cmd = 3 → s.dev.link.failing = [])) :
    ∃ d : Dev, exec i s = .next { s with dev := d } ∧ s.dev.movesLanes d dir v := by
  obtain ⟨hexec, hlo, hhi, rfl⟩ := exec_laneMove hlive hmove
  rw [Dev.changeAt_of_due hup hdue] at hexec
  exact ⟨_, hexec, Dev.changeNow_movesLanes hlo hhi hm hf⟩

/-! ### Lane tests (R85, R87) -/

/-- TEST on KRX leaves the lanes and starts the count. -/
theorem Dev.changeNow_test_rx {d : Dev} (k : Nat) (hf : d.link.failing = []) : ∃ failing req wait,
    d.changeNow .rx { cmd := 4, lane := k } = (d.modLink (fun l =>
      { l with laneTest := some k, rxChange := none, rxGap := false, failing := failing })).withReq req wait :=
  Dev.changeDone_rx (d := d.modLink (fun l => { l with laneTest := some k })) (c := { cmd := 4, lane := k })
    (by simp [Link.noneFailsAfter, hf])

theorem Dev.changeNow_test_tx (d : Dev) (k : Nat) : d.changeNow .tx { cmd := 4, lane := k } =
    d.modLink (fun l => { l with prbsFrom := some k, announced := none }) := rfl

theorem exec_laneTest {s : State} {dir : Dir} {k : Fin 22} (hlive : s.dev.live = true) (hup : s.dev.link.st = .up)
    (hdue : s.dev.link.changeDue dir { cmd := 4, lane := k.val } = true) :
    exec (.laneTest dir k) s = .next { s with dev := s.dev.changeNow dir { cmd := 4, lane := k.val } } := by
  rw [← Dev.changeAt_of_due hup hdue]
  exact devNext_of_live _ hlive

/-- What a write of LANE_TEST stores (Table 3.14). -/
def Dev.laneTestStore (d : Dev) (v : Word) : Dev := (d.setFld A.laneTest 47 1 (fld v 47 1)).setFld A.laneTest 0 5 (fld v 0 5)

/-- START of an out lane clears DONE and asks for TEST, when no other request is there. -/
theorem Dev.laneTestWrite_of_start {d : Dev} {v : Word} (hup : d.link.st = .up) (hf : d.link.failing = [])
    (hreq : d.link.req = none) (hwait : d.link.reqWait = []) (hstart : bit v 5 = true) (hlane : fld v 0 5 < 22)
    (hout : (laneAt d.link.rxLanes (fld v 0 5)).isOut = true) :
    d.laneTestWrite v = ((d.laneTestStore v).setFld A.laneTest 6 1 0).withReq (some { cmd := 4, lane := fld v 0 5 }) [] := by
  have hstarts : (bit v 5 && d.linkIsUp && fld v 0 5 < 22 && (laneAt d.link.rxLanes (fld v 0 5)).isOut) = true := by
    simp [hstart, Dev.linkIsUp_eq hup, hlane, hout]
  have hpick := Dev.pickRequest_of_waiting (d := ((d.laneTestStore v).setFld A.laneTest 6 1 0).modLink (fun l =>
    { l with reqWait := l.reqWait ++ [{ cmd := 4, lane := fld v 0 5 }] })) hf hup hreq (congrArg (· ++ _) hwait)
  refine (if_pos hstarts).trans ?_
  rw [Dev.nextReq]
  exact (congrArg (fun q : Dev × Bool => if q.2 then q.1.linkFail else q.1) hpick).trans rfl

section
variable (d : Dev) (v : Word)

/-- DONE cleared, the other fields of LANE_TEST are those of the write. -/
theorem Dev.laneTestStore_fields : let y := (d.laneTestStore v).setFld A.laneTest 6 1 0
    y.fldR A.laneTest 0 5 = fld v 0 5 ∧ y.fldR A.laneTest 6 1 = 0 ∧ y.fldR A.laneTest 47 1 = fld v 47 1 := by
  refine ⟨?_, Dev.fldR_setFld_same _ _ _ _ _ (by decide) (by decide), ?_⟩
  · rw [Dev.fldR_setFld_other _ _ _ _ _ _ _ (by decide) (by decide) (by decide), Dev.laneTestStore,
      Dev.fldR_setFld_fits _ _ (by decide) (by decide) (fld_lt v 0 5)]
  · rw [Dev.fldR_setFld_other _ _ _ _ _ _ _ (by decide) (by decide) (by decide), Dev.laneTestStore,
      Dev.fldR_setFld_other _ _ _ _ _ _ _ (by decide) (by decide) (by decide),
      Dev.fldR_setFld_fits _ _ (by decide) (by decide) (fld_lt v 47 1)]

theorem Dev.laneTestStore_regsBut : d.regsBut ((d.laneTestStore v).setFld A.laneTest 6 1 0) [A.laneTest] :=
  ((Dev.setFld_regsBut _ _ _ _ _).trans (Dev.setFld_regsBut _ _ _ _ _)).trans (Dev.setFld_regsBut _ _ _ _ _)

/-- The result of a lane test as LANE_TEST shows it (R87). -/
def Dev.laneTestResult (errors : BitVec 32) : Dev :=
  ((d.setFld A.laneTest 8 32 errors.toNat).setFld A.laneTest 7 1 (b2n (errors = 0))).setFld A.laneTest 6 1 1

theorem Dev.laneTestResult_fields (errors : BitVec 32) : (d.laneTestResult errors).fldR A.laneTest 8 32 = errors.toNat ∧
    (d.laneTestResult errors).fldR A.laneTest 7 1 = b2n (errors = 0) ∧ (d.laneTestResult errors).fldR A.laneTest 6 1 = 1 := by
  have hpass : b2n (errors = 0) < 2 ^ 1 := by cases decide (errors = 0) <;> decide
  refine ⟨?_, ?_, Dev.fldR_setFld_same _ _ _ _ _ (by decide) (by decide)⟩
  · rw [Dev.laneTestResult, Dev.fldR_setFld_other _ _ _ _ _ _ _ (by decide) (by decide) (by decide),
      Dev.fldR_setFld_other _ _ _ _ _ _ _ (by decide) (by decide) (by decide),
      Dev.fldR_setFld_fits _ _ (by decide) (by decide) errors.isLt]
  · rw [Dev.laneTestResult, Dev.fldR_setFld_other _ _ _ _ _ _ _ (by decide) (by decide) (by decide),
      Dev.fldR_setFld_fits _ _ (by decide) (by decide) hpass]

theorem Dev.laneTestResult_regsBut (errors : BitVec 32) : d.regsBut (d.laneTestResult errors) [A.laneTest] :=
  ((Dev.setFld_regsBut _ _ _ _ _).trans (Dev.setFld_regsBut _ _ _ _ _)).trans (Dev.setFld_regsBut _ _ _ _ _)

end

/-- TEST_RESULT, the report of a lane test to the hub (Table 3.3). -/
def testResultSlot (k : Nat) (errors : BitVec 32) : Slot :=
  ctlSlot 4 (k <<< 115 ||| b2n (errors = 0) <<< 114 ||| errors.toNat <<< 82)

/-- A lane test of an out lane, or one without errors, ends with its result kept and reported. -/
theorem Dev.laneTestEnd_of_quiet {d : Dev} {k : Nat} {errors : BitVec 32} (hf : d.link.failing = [])
    (htest : d.link.laneTest = some k) (hquiet : errors = 0 ∨ (laneAt d.link.rxLanes k).isOut = true) : ∃ req wait,
    d.laneTestEnd errors = ((d.laneTestResult errors).modLink (fun l =>
      { l with laneTest := none, ctlq := l.ctlq ++ [testResultSlot k errors] })).withReq req wait := by
  unfold Dev.laneTestEnd
  rw [htest]
  dsimp -zeta only
  extract_lets pass d1 d2
  have hend : (if pass then d2 else d2.laneFail k) = d2 := by
    split
    · rfl
    · next hfail => exact Dev.laneFail_of_out (hquiet.resolve_left hfail)
  obtain ⟨req, wait, hreq⟩ := Dev.nextReq_of_noneFailing (d := d2) hf
  exact ⟨req, wait, by rw [hend, hreq]; rfl⟩

/-! ### The clauses of the statement on lanes -/

section
variable {s : State} (hlive : s.dev.live = true)
include hlive

theorem exec_laneWindowEnd : exec .laneWindowEnd s =
    .next { s with dev := s.dev.modLink (fun l => { l with margin := Vector.replicate 22 0 }) } := devNext_of_live _ hlive

theorem exec_laneMarginThresh (k : Fin 22) : exec (.laneMarginThresh k) s = .next { s with dev := s.dev.guardSymbol k } :=
  devNext_of_live _ hlive

variable (hup : s.dev.link.st = .up)
include hup

theorem exec_laneLockLoss (k : Fin 22) : exec (.laneLockLoss k) s = .next { s with dev := s.dev.laneFail k.val } :=
  (congrArg (devNext s) (if_pos (Dev.linkIsUp_eq hup))).trans (devNext_of_live _ hlive)

/-- The device in which lane `k` has failed and its SWAP is asked for. -/
def Dev.asksSwap (x y : Dev) (k : Nat) : Prop := y = { x with link := y.link } ∧ y.link.failing = [k] ∧
  y.link.req = some { cmd := 1, lane := k } ∧ y.link.rxLanes = x.link.rxLanes

section
variable {k i : Fin 22} (hf : s.dev.link.failing = []) (hreq : s.dev.link.req = none)
  (hactive : (laneAt s.dev.link.rxLanes k.val).isActive = true) (hspare : (laneAt s.dev.link.rxLanes i.val).isSpare = true)
include hf hreq hactive hspare

theorem laneLockLoss_asks : ∃ d : Dev, exec (.laneLockLoss k) s = .next { s with dev := d } ∧ s.dev.asksSwap d k.val := by
  have hexec := exec_laneLockLoss hlive hup k
  rw [Dev.laneFail_of_active k.isLt i.isLt hup hf hreq hactive hspare] at hexec
  exact ⟨_, hexec, rfl, rfl, rfl, rfl⟩

theorem laneMarginThresh_counts : ∃ d : Dev, exec (.laneMarginThresh k) s = .next { s with dev := d } ∧
    d.link.margin[k] = s.dev.link.margin[k] + 1 ∧ (s.dev.marginReached k = true → s.dev.asksSwap d k.val) ∧
    (s.dev.marginReached k = false → d.link.req = none) := by
  have hexec := exec_laneMarginThresh hlive k
  have hmargin := s.dev.countSymbol_margin k
  rw [Dev.guardSymbol_of_up k hup] at hexec
  cases hreach : s.dev.marginReached k with
  | false =>
    rw [hreach, if_neg Bool.false_ne_true] at hexec
    exact ⟨_, hexec, hmargin, nofun, fun _ => hreq⟩
  | true =>
    rw [hreach, if_pos rfl, Dev.laneFail_of_active (d := s.dev.countSymbol k) k.isLt i.isLt hup hf hreq hactive hspare] at hexec
    exact ⟨_, hexec, hmargin, fun _ => ⟨rfl, rfl, rfl, rfl⟩, nofun⟩

end

/-- A flit good only under the requested map has it adopted, and counts under it (R86). -/
theorem requestedMap_isAdopted {c : Change} {lanes : List (List (BitVec 48))} (hawake : s.dev.link.standby = false)
    (hreq : s.dev.link.req = some c) (hchange : s.dev.link.rxChange = none) (hlo : 1 ≤ c.cmd.toNat) (hhi : c.cmd.toNat ≤ 3)
    (hm : s.dev.mild 125) (hall : ∀ x ∈ s.dev.link.failing, x = c.lane) (hadd : c.cmd = 3 → s.dev.link.failing = [])
    (hbad : flitGood (unstripe s.dev.link.rxLanes lanes) = false) {f : Flit}
    (hf : unstripe (c.lanes s.dev.link.rxLanes) lanes = f) (hgood : flitGood f = true) (htype : fld f.hdr 60 4 = 0)
    (hack : bit f.hdr 35 = false) :
    ∃ d : Dev, exec (.dataFlitRx lanes) s = .next { s with dev := d } ∧ d.link.st = .up ∧
      d.link.rxLanes = c.lanes s.dev.link.rxLanes ∧ d.link.exp = s.dev.link.exp ∧
      d.fldR A.errcnt 0 8 = min (s.dev.fldR A.errcnt 0 8 + 1) 255 := by
  have hadopt : s.dev.flitLanes lanes = (s.dev.changeNow .rx c).flitRx f := by
    simp [Dev.flitLanes, Dev.rxAdopt, hup, hawake, hreq, hchange, hbad, hf, hgood]
  obtain ⟨hlanes, hst, hexp, hstandby, hcount, -⟩ :=
    Dev.changeNow_movesLanes (dir := .rx) hlo hhi hm (fun _ => ⟨hall, hadd⟩)
  obtain ⟨e, he, hhdr⟩ := (s.dev.changeNow .rx c).headerRx_of_noAck hack
  have hflit : (s.dev.changeNow .rx c).flitRx f = e := by
    rw [Dev.flitRx_of_idle (hst.trans hup) (hstandby.trans hawake) hgood (by rw [hhdr]) htype, hhdr]
  refine ⟨e, ?_, he.st.trans (hst.trans hup), he.rxLanes.trans hlanes, he.exp.trans hexp,
    (Dev.fldR_of_rf he.rf _ _ _).trans hcount⟩
  rw [← hflit, ← hadopt]
  exact devNext_of_live _ hlive

theorem laneTest_counts_rx {k : Fin 22} (hf : s.dev.link.failing = [])
    (hdue : s.dev.link.changeDue .rx { cmd := 4, lane := k.val } = true) :
    ∃ d : Dev, exec (.laneTest .rx k) s = .next { s with dev := d } ∧ d = { s.dev with link := d.link } ∧
      d.link.laneTest = some k.val ∧ d.link.rxLanes = s.dev.link.rxLanes := by
  have hexec := exec_laneTest hlive hup hdue
  obtain ⟨_, _, _, htest⟩ := Dev.changeNow_test_rx k.val hf
  rw [htest] at hexec
  exact ⟨_, hexec, rfl, rfl, rfl⟩

theorem laneTest_restarts_tx {k : Fin 22} (hdue : s.dev.link.changeDue .tx { cmd := 4, lane := k.val } = true) :
    ∃ d : Dev, exec (.laneTest .tx k) s = .next { s with dev := d } ∧ d = { s.dev with link := d.link } ∧
      d.link.announced = none ∧ d.link.prbsFrom = some k.val ∧ d.link.txLanes = s.dev.link.txLanes := by
  have hexec := exec_laneTest hlive hup hdue
  rw [Dev.changeNow_test_tx] at hexec
  exact ⟨_, hexec, rfl, rfl, rfl, rfl⟩

theorem laneTestStart_asks (m : Master) {v : Word} (hf : s.dev.link.failing = []) (hreq : s.dev.link.req = none)
    (hwait : s.dev.link.reqWait = []) (hstart : bit v 5 = true) (hlane : fld v 0 5 < 22)
    (hout : (laneAt s.dev.link.rxLanes (fld v 0 5)).isOut = true) :
    ∃ d : Dev, exec (.laneTestStart m v) s = .next { s with dev := d } ∧
      d.link.req = some { cmd := 4, lane := fld v 0 5 } ∧ d.fldR A.laneTest 0 5 = fld v 0 5 ∧ d.fldR A.laneTest 6 1 = 0 ∧
      d.fldR A.laneTest 47 1 = fld v 47 1 ∧ s.dev.regsBut d [A.laneTest] := by
  obtain ⟨hfield, hdone, hadd⟩ := s.dev.laneTestStore_fields v
  have hwrite := Dev.laneTestWrite_of_start hup hf hreq hwait hstart hlane hout
  exact ⟨_, (congrArg (devNext s) hwrite).trans (devNext_of_live _ hlive), rfl, hfield, hdone, hadd,
    s.dev.laneTestStore_regsBut v⟩

theorem laneTestDone_keeps {errors : BitVec 32} {k : Nat} (hf : s.dev.link.failing = []) (htest : s.dev.link.laneTest = some k)
    (hquiet : errors = 0 ∨ (laneAt s.dev.link.rxLanes k).isOut = true) :
    ∃ d : Dev, exec (.laneTestDone errors) s = .next { s with dev := d } ∧ d.link.laneTest = none ∧
      d.fldR A.laneTest 8 32 = errors.toNat ∧ d.fldR A.laneTest 7 1 = b2n (errors = 0) ∧ d.fldR A.laneTest 6 1 = 1 ∧
      d.link.ctlq = s.dev.link.ctlq ++ [testResultSlot k errors] ∧ s.dev.regsBut d [A.laneTest] := by
  obtain ⟨hcount, hpass, hdone⟩ := s.dev.laneTestResult_fields errors
  obtain ⟨req, wait, hend⟩ := Dev.laneTestEnd_of_quiet hf htest hquiet
  have hexec : exec (.laneTestDone errors) s = .next { s with dev := s.dev.laneTestEnd errors } :=
    (congrArg (devNext s) (if_pos (Dev.linkIsUp_eq hup))).trans (devNext_of_live _ hlive)
  rw [hend] at hexec
  exact ⟨_, hexec, rfl, hcount, hpass, hdone, rfl, s.dev.laneTestResult_regsBut errors⟩

end

/-- Settles O56, from what a failing lane asks for, what a change does to the lanes and the counts, and how a lane test begins
and ends. -/
theorem lanesChange : Obligations.LanesChange := by
  refine ⟨fun s hlive => ⟨_, exec_laneWindowEnd hlive, rfl, rfl, rfl⟩, fun s k hlive hup hf hreq hactive hspare => ?_,
    fun s i dir k cmd v hlive hup hmove hdue hm hf => ?_,
    fun s k hlive hup hf => ⟨laneTest_counts_rx hlive hup hf, laneTest_restarts_tx hlive hup⟩,
    fun s c lanes hlive hup hawake hreq hchange hlo hhi hm hall hadd hbad hgood htype hack => ?_,
    fun s m v hlive hup hf hreq hwait hstart hlane hout => ?_, fun s errors k hlive hup hf htest hquiet => ?_⟩
  · obtain ⟨i, hi⟩ := hspare
    obtain ⟨d, hexec, hmargin, hasks, hnot⟩ := laneMarginThresh_counts hlive hup hf hreq hactive hi
    refine ⟨laneLockLoss_asks hlive hup hf hreq hactive hi, d, hexec, hmargin,
      fun hth hwin hle => hasks (Dev.marginReached_iff.mpr ⟨hth, hwin, hle⟩),
      fun h => hnot (Bool.eq_false_iff.mpr fun hr => ?_)⟩
    obtain ⟨hth, hwin, hle⟩ := Dev.marginReached_iff.mp hr
    omega
  · obtain ⟨d, hexec, hd⟩ := laneMove_moves s i dir k cmd v hlive hup hmove hdue hm hf
    exact ⟨d, hexec, hd.lanes, hd.st.trans hup, hd.count, hd.regs⟩
  · exact requestedMap_isAdopted hlive hup hawake hreq hchange hlo hhi hm hall hadd hbad rfl hgood htype hack
  · exact laneTestStart_asks hlive hup m hf hreq hwait hstart hlane hout
  · exact laneTestDone_keeps hlive hup hf htest hquiet

end Sys2Proof.Machine
end

section
/-! SUPPORT. Link-down and training (R89 to R92), link-up (R93), and RESYNC (R116 to R118). -/

namespace Sys2Proof.Machine

/-! ### Link-down (R89 to R91, R115) -/

/-- The link is down and trains: VC P and VC M are empty, the link-down is counted and raises ATTN 8, no RESYNC is owed. -/
def Dev.trains (x y : Dev) : Prop := y.link.st = .training ∧ y.link.rate = 0 ∧ y.txn.outP = [] ∧ y.txn.outM = [] ∧
  y.fldR A.errcnt 8 8 = min (x.fldR A.errcnt 8 8 + 1) 255 ∧ y.fldR A.attn 8 1 = 1 ∧ y.fldR A.resync 16 2 = 0

/-- Of what came before, only the number of link-downs counts. -/
theorem Dev.trains.of_count {x y z : Dev} (h : x.trains y) (hcount : x.fldR A.errcnt 8 8 = z.fldR A.errcnt 8 8) : z.trains y := by
  rwa [Dev.trains, ← hcount]

/-- What the link's going down does before training starts. -/
theorem Dev.linkDownCore_of_up {d : Dev} (hup : d.link.st = .up) : ∃ x : Dev, x.rf = d.rf ∧ x.txn.outP = [] ∧ x.txn.outM = [] ∧
    d.linkDownCore true true = (((x.setFld A.resync 16 2 0).bump A.errcnt 8 8).raiseAttn 8).sillLink 1 :=
  ⟨((d.lossAtDown.compsLate).modTxn (fun x => { x with part := [], outP := [], outM := [], afterRsp := [] })).modLink Link.cleared,
    d.lossAtDown_rf, rfl, rfl, if_neg (not_not.mpr hup)⟩

section
variable {d : Dev} (hup : d.link.st = .up)
include hup

/-- The registers after a link-down. -/
theorem Dev.linkDownCore_regs : let y := d.linkDownCore true true
    y.txn.outP = [] ∧ y.txn.outM = [] ∧ y.fldR A.errcnt 8 8 = min (d.fldR A.errcnt 8 8 + 1) 255 ∧ y.fldR A.attn 8 1 = 1 ∧
      y.fldR A.resync 16 2 = 0 ∧ y.reg A.linkCtl = d.reg A.linkCtl := by
  obtain ⟨x, hrf, hP, hM, he⟩ := Dev.linkDownCore_of_up hup
  let z := (x.setFld A.resync 16 2 0).bump A.errcnt 8 8
  have hrep : z.reports ((z.raiseAttn 8).sillLink 1) := (z.reports_raiseAttn 8).trans (Dev.reports_sillLink _ _)
  rw [he]
  refine ⟨(congrArg (·.outP) hrep.txn).trans hP, (congrArg (·.outM) hrep.txn).trans hM, ?_, ?_, ?_, ?_⟩
  · have hcount : (x.setFld A.resync 16 2 0).fldR A.errcnt 8 8 = d.fldR A.errcnt 8 8 :=
      (Dev.fldR_setFld_ne _ _ _ _ _ _ (by decide)).trans (Dev.fldR_of_rf hrf _ _ _)
    rw [← hcount]
    exact (hrep.fldR (by decide) 8 8).trans (Dev.fldR_bump_same _ _ _ _ (by decide) (by decide))
  · exact (congrArg (fld · 8 1) ((z.raiseAttn 8).sillPush_regsBut _ _ _ _ A.attn (by decide))).trans
      (z.raiseAttn_pending (by decide))
  · exact (hrep.fldR (by decide) 16 2).trans ((Dev.fldR_setFld_ne _ _ _ _ _ _ (by decide)).trans
      (Dev.fldR_setFld_fits _ _ (by decide) (by decide) (by decide)))
  · exact (hrep.2 A.linkCtl (by decide)).trans ((Dev.bump_regsBut _ _ _ _ A.linkCtl (by decide)).trans
      ((Dev.setFld_regsBut _ _ _ _ _ A.linkCtl (by decide)).trans (Dev.reg_of_rf hrf _)))

/-- A link-down that nothing waits for trains at the target rate. -/
theorem Dev.linkDown_trains (hasked : d.noneAsked) (asked : Nat) : d.trains (d.linkDown true true asked) ∧
    (d.linkDown true true asked).link.target = (d.linkDownCore true true).targetRate asked ∧
    (d.linkDown true true asked).reg A.linkCtl = d.reg A.linkCtl := by
  obtain ⟨hP, hM, hcount, hattn, hresync, hctl⟩ := Dev.linkDownCore_regs hup
  have hnone : d.txn.afterRsp.any (fun a => a.2 = .fullReset) = false :=
    List.any_eq_false.mpr fun a ha => by simpa using hasked a ha
  have hdown : d.linkDown true true asked = (d.linkDownCore true true).startTraining asked := if_neg (by rw [hnone]; decide)
  rw [hdown]
  exact ⟨⟨rfl, rfl, hP, hM, hcount, hattn, hresync⟩, rfl, hctl⟩

end

/-! ### Link resets (R91) -/

theorem Dev.targetRate_of_asked (d : Dev) {asked : Nat} (h : asked ≠ 0) : d.targetRate asked = BitVec.ofNat 2 asked :=
  if_pos h

/-- A reset that asks for no rate takes that of LINK.CTL. -/
theorem Dev.targetRate_of_ctl {d : Dev} (h : d.fldR A.linkCtl 1 2 ≠ 0) :
    d.targetRate 0 = BitVec.ofNat 2 (d.fldR A.linkCtl 1 2) := by
  simp [Dev.targetRate, h]

section
variable {s : State} (hlive : s.dev.live = true) (hup : s.dev.link.st = .up) (hasked : s.dev.noneAsked)
include hlive hup hasked

theorem framingLoss_trains (hm : s.dev.mild 124) :
    ∃ d : Dev, exec .framingLoss s = .next { s with dev := d } ∧ s.dev.trains d := by
  have hrep : s.dev.reports (s.dev.fault 124 (linkReport 1 0)) :=
    Dev.fault_reports (by decide) hm (by simp [linkReport, linkEvents])
  have hasked' : (s.dev.fault 124 (linkReport 1 0)).noneAsked := by
    rw [Dev.noneAsked, hrep.txn]
    exact hasked
  obtain ⟨htrains, -, -⟩ := Dev.linkDown_trains ((congrArg (·.st) hrep.link).trans hup) hasked' 0
  exact ⟨_, (congrArg (devNext s) (if_pos (Dev.linkIsUp_eq hup))).trans (devNext_of_live _ hlive),
    htrains.of_count (hrep.fldR (by decide) 8 8)⟩

theorem linkReset_trains {rate : BitVec 2} (hrate : rate ≠ 0) :
    ∃ d : Dev, exec (.linkReset rate) s = .next { s with dev := d } ∧ s.dev.trains d ∧ d.link.target = rate := by
  obtain ⟨htrains, htarget, -⟩ := Dev.linkDown_trains hup hasked rate.toNat
  have hne : rate.toNat ≠ 0 := fun h => hrate (BitVec.eq_of_toNat_eq h)
  rw [Dev.targetRate_of_asked _ hne, BitVec.ofNat_toNat, BitVec.setWidth_eq] at htarget
  exact ⟨_, (congrArg (devNext s) (if_pos hup)).trans (devNext_of_live _ hlive), htrains, htarget⟩

theorem linkCtlReset_trains (m : Master) {v : Word} (hreset : bit v 0 = true) (hrate : fld v 1 2 ≠ 0) :
    ∃ d : Dev, exec (.linkCtlReset m v) s = .next { s with dev := d } ∧ s.dev.trains d ∧
      d.link.target.toNat = fld v 1 2 ∧ d.fldR A.linkCtl 1 2 = fld v 1 2 := by
  have hstored : (s.dev.linkCtlStore v).fldR A.linkCtl 1 2 = fld v 1 2 :=
    Dev.fldR_setFld_fits _ _ (by decide) (by decide) (fld_lt v 1 2)
  obtain ⟨htrains, htarget, hctl⟩ := Dev.linkDown_trains (d := s.dev.linkCtlStore v) hup hasked 0
  obtain ⟨-, -, -, -, -, hcore⟩ := Dev.linkDownCore_regs (d := s.dev.linkCtlStore v) hup
  have hcore' : ((s.dev.linkCtlStore v).linkDownCore true true).fldR A.linkCtl 1 2 = fld v 1 2 :=
    (congrArg (fld · 1 2) hcore).trans hstored
  rw [Dev.targetRate_of_ctl (by rwa [hcore']), hcore'] at htarget
  have hdown : (s.dev.linkCtlStore v).linkCtlReset = (s.dev.linkCtlStore v).linkDown true true 0 :=
    if_neg (by rw [Dev.linkCtlStore, Dev.setFld_link, hup]; decide)
  refine ⟨_, (congrArg (devNext s) ((if_pos hreset).trans hdown)).trans (devNext_of_live _ hlive),
    htrains.of_count (Dev.fldR_setFld_ne _ _ _ _ _ _ (by decide)), ?_, (congrArg (fld · 1 2) hctl).trans hstored⟩
  rw [htarget, BitVec.toNat_ofNat, Nat.mod_eq_of_lt (fld_lt v 1 2)]

end

/-! ### Training (R91, R92) -/

/-- A training that failed is recorded; at the lowest rate with few lanes it waits, otherwise it is repeated, lower where it can
be. -/
theorem Dev.trainFailed_eq {d : Dev} (late few : Bool) (hm : d.mild 124) :
    ∃ e : Dev, (d.setFld A.linkRtt 8 1 (b2n late)).reports e ∧ d.trainFailed late few =
      if d.link.target = 3 && few then (e.sillLink 1).modLink (fun l => { l with ctlq := [], retryWait := true })
      else e.trainAt (if d.link.target = 3 then 3 else d.link.target + 1) := by
  have hm' : (d.setFld A.linkRtt 8 1 (b2n late)).mild 124 :=
    Dev.mild_of_regsBut hm (d.setFld_regsBut _ _ _ _) (by decide) (by decide)
  have hrep := Dev.fault_reports (by decide) hm' (r := linkReport 3 0) (by simp [linkReport, linkEvents])
  refine ⟨_, hrep, ?_⟩
  unfold Dev.trainFailed
  extract_lets d1 d2
  rw [show d2.link = d.link from hrep.link]

/-- After a failed training LINK_RTT shows whether the round trip was too long. -/
theorem Dev.trainFailed_rtt {d e : Dev} (late : Bool) (h : (d.setFld A.linkRtt 8 1 (b2n late)).reports e) :
    e.fldR A.linkRtt 8 1 = b2n late :=
  (h.fldR (by decide) 8 1).trans (Dev.fldR_setFld_fits _ _ (by decide) (by decide) (by cases late <;> decide))

/-- Fewer than 10 lanes of a direction are not out (R92). -/
def Link.fewLanes (l : Link) : Bool := notOut l.rxLanes < 10 || notOut l.txLanes < 10

/-- The ranking of the lanes of `v` that pass and are not out (R91). -/
def Dev.passRank (d : Dev) (dir : Dir) (v : Vector Lane 22) (pass : BitVec 22) : List Nat :=
  d.trainRank dir (fun p => pass.getLsbD p && !(laneAt v p).isOut)

section
variable {d : Dev} (htrain : d.link.st = .training) (hrate : d.link.rate = 0) (hwait : d.link.retryWait = false)
  (passRx passTx : BitVec 22)
include htrain hrate hwait

/-- A round trip above 128 fails the training, whatever lanes pass (R81). -/
theorem Dev.trainEnd_of_late (hrtt : 128 < d.link.rttMax) : ∃ rx tx, d.trainEnd passRx passTx =
    (d.modLink (fun l => { l with rxLanes := rx, txLanes := tx })).trainFailed true d.link.fewLanes := by
  refine ⟨_, _, (if_neg ?_).trans (if_pos hrtt)⟩
  simp [htrain, hrate, hwait]

/-- With lanes enough in both directions the link agrees the widest width that they allow (R91). -/
theorem Dev.trainEnd_of_pass (hR : 10 ≤ notOut d.link.rxLanes) (hT : 10 ≤ notOut d.link.txLanes) (hrtt : d.link.rttMax ≠ 0)
    (hle : d.link.rttMax ≤ 128) (hwR : widthOf (d.passRank .rx d.link.rxLanes passRx).length ≠ 0)
    (hwT : widthOf (d.passRank .tx d.link.txLanes passTx).length ≠ 0) : d.trainEnd passRx passTx =
      (({ d with freeCtr := d.freeCtr + 1 }).setFld A.linkRtt 0 9 d.link.rttMax).modLink (fun l =>
        { l with rate := l.target, ctlq := [],
                 rxLanes := assignLanes (laneBase l.rxLanes) (d.passRank .rx l.rxLanes passRx)
                   (widthOf (d.passRank .rx l.rxLanes passRx).length),
                 txLanes := assignLanes (laneBase l.txLanes) (d.passRank .tx l.txLanes passTx)
                   (widthOf (d.passRank .tx l.txLanes passTx).length) }) := by
  have hgo : ¬ (d.link.st ≠ .training || d.link.rate ≠ 0 || d.link.retryWait) = true := by simp [htrain, hrate, hwait]
  simp only [Dev.passRank] at hwR hwT
  unfold Dev.trainEnd
  rw [if_neg hgo]
  simp only [hR.not_gt, hT.not_gt, decide_false, Bool.and_false, Bool.false_eq_true, if_false, hle.not_gt, hwR, hwT, hrtt,
    Dev.passRank]
  rfl

end

theorem exec_trainingEnd {s : State} (hlive : s.dev.live = true) (passRx passTx : BitVec 22) :
    exec (.trainingEnd passRx passTx) s = .next { s with dev := s.dev.trainEnd passRx passTx } := devNext_of_live _ hlive

section
variable {s : State} (hlive : s.dev.live = true) (htrain : s.dev.link.st = .training) (hrate : s.dev.link.rate = 0)
include hlive htrain hrate

section
variable (hwait : s.dev.link.retryWait = false) (passRx passTx : BitVec 22)
include hwait

theorem trainingEnd_agrees (hR : 10 ≤ notOut s.dev.link.rxLanes) (hT : 10 ≤ notOut s.dev.link.txLanes)
    (hrtt : s.dev.link.rttMax ≠ 0) (hle : s.dev.link.rttMax ≤ 128)
    (hwR : widthOf (s.dev.passRank .rx s.dev.link.rxLanes passRx).length ≠ 0)
    (hwT : widthOf (s.dev.passRank .tx s.dev.link.txLanes passTx).length ≠ 0) :
    ∃ d : Dev, exec (.trainingEnd passRx passTx) s = .next { s with dev := d } ∧ d.link.rate = s.dev.link.target ∧
      d.link.rxLanes = assignLanes (laneBase s.dev.link.rxLanes) (s.dev.passRank .rx s.dev.link.rxLanes passRx)
        (widthOf (s.dev.passRank .rx s.dev.link.rxLanes passRx).length) ∧
      d.link.txLanes = assignLanes (laneBase s.dev.link.txLanes) (s.dev.passRank .tx s.dev.link.txLanes passTx)
        (widthOf (s.dev.passRank .tx s.dev.link.txLanes passTx).length) ∧
      d.fldR A.linkRtt 0 8 = s.dev.link.rttMax ∧ d.fldR A.linkRtt 8 1 = 0 ∧ s.dev.regsBut d [A.linkRtt] := by
  have hexec := exec_trainingEnd hlive passRx passTx
  rw [Dev.trainEnd_of_pass htrain hrate hwait passRx passTx hR hT hrtt hle hwR hwT] at hexec
  have hreg : (({ s.dev with freeCtr := s.dev.freeCtr + 1 }).setFld A.linkRtt 0 9 s.dev.link.rttMax).reg A.linkRtt =
      put (s.dev.reg A.linkRtt) 0 9 s.dev.link.rttMax := (Dev.reg_setFld _ _ _ _ _ _).trans (if_pos rfl)
  refine ⟨_, hexec, rfl, rfl, rfl, (congrArg (fld · 0 8) hreg).trans ?_, (congrArg (fld · 8 1) hreg).trans ?_,
    Dev.setFld_regsBut { s.dev with freeCtr := s.dev.freeCtr + 1 } _ _ _ _⟩
  · rw [fld_put_within _ _ (by decide) (by decide) (by decide) (by decide), Nat.sub_self, Nat.shiftRight_zero,
      Nat.mod_eq_of_lt (by omega)]
  · rw [fld_put_within _ _ (by decide) (by decide) (by decide) (by decide), Nat.shiftRight_eq_div_pow,
      Nat.div_eq_of_lt (by omega), Nat.zero_mod]

/-- A training whose round trip was too long is repeated, lower where it can be. -/
theorem trainingEnd_repeats (hR : 10 ≤ notOut s.dev.link.rxLanes) (hT : 10 ≤ notOut s.dev.link.txLanes)
    (hrtt : 128 < s.dev.link.rttMax) (hm : s.dev.mild 124) :
    ∃ d : Dev, exec (.trainingEnd passRx passTx) s = .next { s with dev := d } ∧ d.link.st = .training ∧ d.link.rate = 0 ∧
      d.link.target = (if s.dev.link.target = 3 then 3 else s.dev.link.target + 1) ∧ d.fldR A.linkRtt 8 1 = 1 := by
  have hfew : s.dev.link.fewLanes = false := by simp [Link.fewLanes, hR, hT]
  obtain ⟨rx, tx, hend⟩ := Dev.trainEnd_of_late htrain hrate hwait passRx passTx hrtt
  obtain ⟨e, he, hfailed⟩ := Dev.trainFailed_eq (d := s.dev.modLink (fun l => { l with rxLanes := rx, txLanes := tx })) true
    s.dev.link.fewLanes hm
  rw [if_neg (by simp [hfew])] at hfailed
  have hexec := exec_trainingEnd hlive passRx passTx
  rw [hend, hfailed] at hexec
  have hlate : e.fldR A.linkRtt 8 1 = 1 := Dev.trainFailed_rtt true he
  exact ⟨_, hexec, rfl, rfl, rfl, hlate⟩

/-- At the lowest rate, with few lanes not out, it waits for the lane tests (R92). -/
theorem trainingEnd_waits (htarget : s.dev.link.target = 3) (hfew : s.dev.link.fewLanes = true)
    (hrtt : 128 < s.dev.link.rttMax) (hm : s.dev.mild 124) :
    ∃ d : Dev, exec (.trainingEnd passRx passTx) s = .next { s with dev := d } ∧ d.link.st = .training ∧ d.link.rate = 0 ∧
      d.link.retryWait = true ∧ d.fldR A.linkRtt 8 1 = 1 := by
  obtain ⟨rx, tx, hend⟩ := Dev.trainEnd_of_late htrain hrate hwait passRx passTx hrtt
  obtain ⟨e, he, hfailed⟩ := Dev.trainFailed_eq (d := s.dev.modLink (fun l => { l with rxLanes := rx, txLanes := tx })) true
    s.dev.link.fewLanes hm
  rw [if_pos (by simp [hfew, Dev.modLink, htarget])] at hfailed
  have hexec := exec_trainingEnd hlive passRx passTx
  rw [hend, hfailed] at hexec
  have hrep := he.trans (e.reports_sillLink 1)
  have hlate : (e.sillLink 1).fldR A.linkRtt 8 1 = 1 := Dev.trainFailed_rtt true hrep
  exact ⟨_, hexec, (congrArg (·.st) hrep.link).trans htrain, (congrArg (·.rate) hrep.link).trans hrate, rfl, hlate⟩

end

/-- After the wait the out lanes that pass their test are tried too, at the lowest rate. -/
theorem exec_trainingRetryTimer (hwait : s.dev.link.retryWait = true) (testRx testTx : BitVec 22) :
    exec (.trainingRetryTimer testRx testTx) s = .next { s with dev := (s.dev.modLink (fun l =>
      { l with rxLanes := if notOut l.rxLanes < 10 then clearOut l.rxLanes testRx else l.rxLanes,
               txLanes := if notOut l.txLanes < 10 then clearOut l.txLanes testTx else l.txLanes })).trainAt 3 } := by
  refine (congrArg (devNext s) (if_pos ?_)).trans (devNext_of_live _ hlive)
  simp [htrain, hrate, hwait]

end

/-! ### Link-up (R93) -/

/-- The end of a full reset's step 6 is reported. -/
theorem Dev.resumeEnd_reports (d : Dev) :
    Dev.reports { d with rst := { d.rst with step := if d.rst.step = 6 then 0 else d.rst.step } } d.resumeEnd := by
  unfold Dev.resumeEnd
  by_cases h : d.rst.step = 6
  · rw [if_pos h, if_pos h]
    exact Dev.reports_sillReset _ _
  · rw [if_neg h, if_neg h]
    exact d.reports_refl

/-- The link as it comes up: fresh but for its lanes and rate, what its training measured, and the RST flag owed. -/
def Link.risen (l : Link) : Link :=
  { Link.initial with
    rxLanes := l.rxLanes, txLanes := l.txLanes, st := .up, rate := l.rate, target := l.target, rttMax := l.rttMax,
    rstUp := l.rstUp }

theorem Dev.linkUpCore_reports (d : Dev) : (({ d with link := d.link.risen }).setFld A.resync 17 1 1).reports d.linkUpCore :=
  Dev.reports_sillLink _ _

theorem linkUp_startsAfresh {s : State} (hlive : s.dev.live = true) (hawake : s.dev.link.standby = false)
    (htrain : s.dev.link.st = .training) (hrate : s.dev.link.rate ≠ 0) (hphase : s.dev.pwrPhase ≠ 3) :
    ∃ d : Dev, exec .linkUp s = .next { s with dev := d } ∧ d.link = s.dev.link.risen ∧ d.fldR A.resync 17 1 = 1 ∧
      d.rst.step = if s.dev.rst.step = 6 then 0 else s.dev.rst.step := by
  have hcore := s.dev.linkUpCore_reports
  have hend := s.dev.linkUpCore.resumeEnd_reports
  have hexec : exec .linkUp s = .next { s with dev := s.dev.linkUpCore.resumeEnd } := by
    refine (congrArg (devNext s) ((if_neg ?_).trans ((if_pos ?_).trans (if_neg ?_)))).trans (devNext_of_live _ hlive)
    · simp [hawake]
    · simpa [htrain] using hrate
    · simp [hphase]
  refine ⟨_, hexec, hend.link.trans hcore.link, ?_, ?_⟩
  · rw [hend.fldR (by decide)]
    exact (hcore.fldR (by decide) 17 1).trans (Dev.fldR_setFld_fits _ _ (by decide) (by decide) (by decide))
  · rw [hend.rst]
    dsimp only
    rw [hcore.rst]
    rfl

/-! ### RESYNC (R116 to R118) -/

/-- `y` has queued a RESYNC behind what `x` had queued on VC M, with `x`'s attention code. -/
def Dev.queuesResync (x y : Dev) : Prop := ∃ o : OutMsg, y.txn.outM = x.txn.outM ++ [o] ∧ o.resync = true ∧
  o.vc = .m ∧ o.slots = y.txn.resyncSlots x.attnValue

theorem Dev.queueResync_queues (d : Dev) : d.queuesResync d.queueResync := ⟨_, rfl, rfl, rfl, rfl⟩

theorem exec_resyncSend_of_not_due {s : State} (hdue : s.dev.resyncDue = false) : exec .resyncSend s = .next s :=
  (congrArg (devNext s) (if_pos (by simp [hdue]))).trans (devNext_self s)

theorem exec_resyncAck_of_other {s : State} (m : Master) {v : Word}
    (h : bit (s.dev.reg A.resync) 16 = false ∨ fld v 0 8 ≠ s.dev.fldR A.resync 8 8) : exec (.resyncAck m v) s = .next s := by
  refine (congrArg (devNext s) (if_neg ?_)).trans (devNext_self s)
  obtain hbit | hne := h
  · simp [hbit]
  · simp [hne]

section
variable {s : State} (hlive : s.dev.live = true)
include hlive

theorem resyncSend_queues (hdue : s.dev.resyncDue = true) : ∃ d : Dev, exec .resyncSend s = .next { s with dev := d } ∧
    s.dev.queuesResync d ∧ d.txn.epoch = nextEpochOf s.dev.txn.epoch ∧ d.txn.resyncRst = s.dev.link.rstUp ∧
    d.link.rstUp = false ∧ d.rf = s.dev.rf := by
  have hbuild : s.dev.resyncBuild = ((s.dev.modTxn (fun x =>
      { x with epoch := nextEpochOf x.epoch, resyncRst := s.dev.link.rstUp })).modLink
        (fun l => { l with rstUp := false })).queueResync := if_neg (by simp [hdue])
  exact ⟨_, (congrArg (devNext s) hbuild).trans (devNext_of_live _ hlive), ⟨_, rfl, rfl, rfl, rfl⟩, rfl, rfl, rfl, rfl⟩

theorem resyncRepeat_queues (hup : s.dev.link.st = .up) (hsent : bit (s.dev.reg A.resync) 16 = true)
    (htimer : s.dev.linkCfg 0x3C 2 100 ≠ 0) (hnone : s.dev.txn.outM.any (fun o => o.resync) = false) :
    ∃ d : Dev, exec .resyncRepeat s = .next { s with dev := d } ∧ s.dev.queuesResync d ∧ d.txn.epoch = s.dev.txn.epoch ∧
      d.rf = s.dev.rf := by
  refine ⟨_, (congrArg (devNext s) (if_pos ?_)).trans (devNext_of_live _ hlive), s.dev.queueResync_queues, rfl, rfl⟩
  rw [Dev.linkIsUp_eq hup, hsent, hnone, decide_eq_true htimer]
  rfl

/-- An ACK of the RESYNC outstanding ends it and clears the loss sets. -/
theorem resyncAck_clears (m : Master) {v : Word} (hsent : bit (s.dev.reg A.resync) 16 = true)
    (hepoch : fld v 0 8 = s.dev.fldR A.resync 8 8) : ∃ d : Dev, exec (.resyncAck m v) s = .next { s with dev := d } ∧
      d.txn.lossQ = [] ∧ d.txn.lossK = [] ∧ d.txn.lossM = [] ∧ d.fldR A.resync 16 1 = 0 ∧ s.dev.regsBut d [A.resync] := by
  refine ⟨_, (congrArg (devNext s) (if_pos ?_)).trans (devNext_of_live _ hlive), rfl, rfl, rfl,
    Dev.fldR_setFld_fits _ _ (by decide) (by decide) (by decide), Dev.setFld_regsBut _ _ _ _ _⟩
  rw [hsent, decide_eq_true hepoch]
  rfl

end

/-- Settles O57, from what a link-down leaves, how a training ends, what link-up starts afresh, and the course of a RESYNC. -/
theorem linkTrains : Obligations.LinkTrains := by
  refine ⟨fun s hlive hup hasked hm => ⟨framingLoss_trains hlive hup hasked hm, fun rate => linkReset_trains hlive hup hasked,
      fun m v => linkCtlReset_trains hlive hup hasked m⟩,
    fun s passRx passTx hlive htrain hrate hwait hR hT =>
      ⟨trainingEnd_agrees hlive htrain hrate hwait passRx passTx hR hT,
        trainingEnd_repeats hlive htrain hrate hwait passRx passTx hR hT⟩,
    fun s passRx passTx hlive htrain hrate hwait htarget hfew => ?_, fun s testRx testTx hlive htrain hrate hwait => ?_,
    fun s hlive hawake htrain hrate hphase => ?_, fun s hlive => ?_⟩
  · exact trainingEnd_waits hlive htrain hrate hwait passRx passTx htarget (by simpa [Link.fewLanes] using hfew)
  · exact ⟨_, exec_trainingRetryTimer hlive htrain hrate hwait testRx testTx, rfl, rfl, rfl, rfl, rfl, rfl, rfl⟩
  · obtain ⟨d, hexec, hlink, hresync, hstep⟩ := linkUp_startsAfresh hlive hawake htrain hrate hphase
    exact ⟨d, hexec, congrArg (·.st) hlink, congrArg (·.next) hlink, congrArg (·.exp) hlink, congrArg (·.replay) hlink,
      congrArg (·.rate) hlink, hresync, hstep⟩
  · exact ⟨resyncSend_queues hlive, exec_resyncSend_of_not_due, resyncRepeat_queues hlive,
      fun m v => ⟨resyncAck_clears hlive m, exec_resyncAck_of_other m⟩⟩

end Sys2Proof.Machine
end

section
/-! SUPPORT. What the end of an access leaves alone (R132, R146, R147): drain causes and latency misses touch neither the queues nor
the answers. Then the timers of the schedulers (R138, R141), and the acknowledgement of ATTN (R124). -/

namespace Sys2Proof.Machine

/-! ### Ports -/

theorem Dev.modPort_ports (d : Dev) (p : Fin 4) (f : Port → Port) (o : Fin 4) :
    (d.modPort p f).ports[o] = if o = p then f d.ports[p] else d.ports[o] := by
  split
  next h => rw [h, Dev.modPort_ports_same]
  next h => exact Dev.modPort_ports_ne _ _ _ h

/-- An update that leaves the port as it is leaves the device. -/
theorem Dev.modPort_of_fixed {d : Dev} {p : Fin 4} {f : Port → Port} (h : f d.ports[p] = d.ports[p]) : d.modPort p f = d := by
  have hset : d.ports.set p (f d.ports[p]) = d.ports := by
    rw [h]
    exact Vector.set_getElem_self _
  rw [Dev.modPort, hset]

theorem Dev.modPort_modPort (d : Dev) (p : Fin 4) (f g : Port → Port) :
    (d.modPort p f).modPort p g = d.modPort p (fun x => g (f x)) := by
  simp [Dev.modPort]

/-! ### Drain causes (R132) -/

/-- `y` is `x` but for the drain causes of port `p` and the batch that one of them covers. -/
def Dev.drains (p : Fin 4) (x y : Dev) : Prop :=
  ∃ drain batch, y = x.modPort p (fun q => { q with drain := drain, batch := batch })

theorem Dev.drains_refl (p : Fin 4) (d : Dev) : Dev.drains p d d :=
  ⟨(d.ports[p]).drain, (d.ports[p]).batch, (Dev.modPort_of_fixed rfl).symm⟩

theorem Dev.drains.trans {p : Fin 4} {x y z : Dev} (h : Dev.drains p x y) (k : Dev.drains p y z) : Dev.drains p x z := by
  obtain ⟨_, _, rfl⟩ := h
  obtain ⟨drain, batch, rfl⟩ := k
  exact ⟨drain, batch, Dev.modPort_modPort _ _ _ _⟩

theorem Dev.drains_ite {p : Fin 4} {c : Prop} [Decidable c] {x y z : Dev} (hy : Dev.drains p x y) (hz : Dev.drains p x z) :
    Dev.drains p x (if c then y else z) := by
  split
  · exact hy
  · exact hz

theorem Dev.drains_setDrain (d : Dev) (p : Fin 4) (c : Nat) (b : Bool) : Dev.drains p d (d.setDrain p c b) := by
  refine ⟨putBit (d.ports[p]).drain c b, (d.ports[p]).batch, ?_⟩
  simp [Dev.setDrain, Dev.modPort]

theorem Dev.drains_setBatch (d : Dev) (p : Fin 4) : Dev.drains p d (d.modPort p (fun x => { x with batch := x.wrq.map (fun w => w.q) })) := by
  refine ⟨(d.ports[p]).drain, (d.ports[p]).wrq.map (fun w => w.q), ?_⟩
  simp [Dev.modPort]

theorem Dev.drainStart_drains (d : Dev) (p : Fin 4) : Dev.drains p d (d.drainStart p) := by
  unfold Dev.drainStart
  extract_lets occ hi d1 others d2 d3
  have h1 : Dev.drains p d d1 :=
    Dev.drains_ite ((d.drains_setDrain p 1 true).trans (Dev.drains_setBatch _ p)) (Dev.drains_refl p d)
  have h2 : Dev.drains p d1 d2 := Dev.drains_ite (d1.drains_setDrain p 2 true) (Dev.drains_refl p d1)
  have h3 : Dev.drains p d2 d3 := Dev.drains_ite (d2.drains_setDrain p 3 true) (Dev.drains_refl p d2)
  exact ((h1.trans h2).trans h3).trans (Dev.drains_ite (d3.drains_setDrain p 4 true) (Dev.drains_refl p d3))

theorem Dev.setDrain_drain (d : Dev) (p : Fin 4) (c : Nat) (b : Bool) :
    ((d.setDrain p c b).ports[p]).drain = putBit (d.ports[p]).drain c b := by
  rw [Dev.setDrain, Dev.modPort_ports_same]

/-- A write that has aged starts the drain of its port. -/
theorem Dev.drainStart_of_aged {d : Dev} {p : Fin 4} (h : (d.ports[p]).wrq.any (fun w => w.aged) = true) :
    ((d.drainStart p).ports[p]).drain.getLsbD 3 = true := by
  unfold Dev.drainStart
  extract_lets occ hi d1 others d2 d3
  have h3 : ((d3).ports[p]).drain.getLsbD 3 = true := by
    rw [show d3 = d2.setDrain p 3 true from if_pos h, Dev.setDrain_drain, putBit_getLsbD]
    rfl
  split
  · rw [Dev.setDrain_drain, putBit_getLsbD]
    exact h3
  · exact h3

/-! ### Latency misses (R146, R147) -/

/-- `y` is `x` but for Sillage, the windows of the notes, and registers apart from PWR.STATUS. -/
def Dev.measures (x y : Dev) : Prop :=
  (∃ rf qos sill, y = { x with rf := rf, qos := qos, sill := sill }) ∧ y.reg A.pwrStatus = x.reg A.pwrStatus

theorem Dev.measures_refl (d : Dev) : d.measures d := ⟨⟨_, _, _, rfl⟩, rfl⟩

theorem Dev.measures.trans {x y z : Dev} (h : x.measures y) (k : y.measures z) : x.measures z := by
  obtain ⟨⟨_, _, _, rfl⟩, hx⟩ := h
  obtain ⟨⟨_, _, _, rfl⟩, hy⟩ := k
  exact ⟨⟨_, _, _, rfl⟩, hy.trans hx⟩

section
variable {x y : Dev} (h : x.measures y)
include h

theorem Dev.measures.txn : y.txn = x.txn := by
  obtain ⟨⟨_, _, _, rfl⟩, -⟩ := h
  rfl

theorem Dev.measures.phys : y.phys = x.phys := by
  obtain ⟨⟨_, _, _, rfl⟩, -⟩ := h
  rfl

theorem Dev.measures.ports : y.ports = x.ports := by
  obtain ⟨⟨_, _, _, rfl⟩, -⟩ := h
  rfl

theorem Dev.measures.engs : y.engs = x.engs := by
  obtain ⟨⟨_, _, _, rfl⟩, -⟩ := h
  rfl

theorem Dev.measures.calm (hc : x.calm) : y.calm := by
  obtain ⟨⟨_, _, _, rfl⟩, -⟩ := h
  exact hc

end

theorem Dev.measures_setFld (d : Dev) {a : Nat} (lo len v : Nat) (h : A.pwrStatus ≠ a) : d.measures (d.setFld a lo len v) :=
  ⟨⟨_, _, _, rfl⟩, (Dev.reg_setFld _ _ _ _ _ _).trans (if_neg h)⟩

theorem Dev.measures_bump (d : Dev) {a : Nat} (lo len : Nat) (h : A.pwrStatus ≠ a) : d.measures (d.bump a lo len) :=
  d.measures_setFld _ _ _ h

theorem Dev.measures_raiseAttn (d : Dev) (c : Nat) : d.measures (d.raiseAttn c) := by
  obtain ⟨_, _, he, hr⟩ := d.setAttn_eq (d.fldR A.attn 0 12 ||| 2 ^ c)
  rw [Dev.raiseAttn, he]
  exact ⟨⟨_, _, _, rfl⟩, hr _ (by decide) (by decide)⟩

theorem pwrStatus_ne_misscnt : ∀ n : BitVec 4, A.pwrStatus ≠ A.misscnt n.toNat := by decide

theorem Dev.noteLatency_measures (d : Dev) (n : BitVec 4) (lat : Nat) : d.measures (d.noteLatency n lat) := by
  unfold Dev.noteLatency
  extract_lets d1 q c hit d2
  have h1 : d.measures d1 := d.measures_bump _ _ (pwrStatus_ne_misscnt n)
  have h2 : d1.measures d2 := ⟨⟨_, _, _, rfl⟩, rfl⟩
  split
  · exact d.measures_refl
  · split
    · exact h1
    · split
      · exact (h1.trans h2).trans ((d2.measures_setFld _ _ _ (by decide)).trans (Dev.measures_raiseAttn _ _))
      · exact h1.trans h2

/-! ### The timers of a port (R132, R138, R141, R147) -/

section
variable {s : State} (hlive : s.dev.live = true)
include hlive

/-- A write that has waited for WAGE is marked, and its port drains (R132). -/
theorem writeAgeDrain_drains {p : Fin 4} {q : Nat} (hcfg : s.dev.schedCfg p 0x0C 4 ≠ 0) (hq : ∃ w ∈ (s.dev.ports[p]).wrq, w.q = q) :
    ∃ d : Dev, exec (.writeAgeDrain p q) s = .next { s with dev := d } ∧ (d.ports[p]).drain.getLsbD 3 = true ∧
      (d.ports[p]).wrq = (s.dev.ports[p]).wrq.map (fun (w : WrEnt) => if w.q = q then { w with aged := true } else w) ∧
      (d.ports[p]).rdq = (s.dev.ports[p]).rdq := by
  let d1 := s.dev.modPort p (fun x => { x with wrq := x.wrq.map (fun (w : WrEnt) =>
    if w.q = q then { w with aged := true } else w) })
  have hport : d1.ports[p] = { s.dev.ports[p] with wrq := (s.dev.ports[p]).wrq.map (fun (w : WrEnt) =>
    if w.q = q then { w with aged := true } else w) } := Dev.modPort_ports_same _ _ _
  have haged : (d1.ports[p]).wrq.any (fun w => w.aged) = true := by
    obtain ⟨w, hw, rfl⟩ := hq
    rw [hport, List.any_map, List.any_eq_true]
    exact ⟨w, hw, by simp⟩
  have hexec : exec (.writeAgeDrain p q) s = .next { s with dev := d1.drainStart p } :=
    (congrArg (devNext s) (if_neg hcfg)).trans (devNext_of_live _ hlive)
  have hbit := Dev.drainStart_of_aged haged
  obtain ⟨drain, batch, hd⟩ := d1.drainStart_drains p
  rw [hd] at hexec hbit
  exact ⟨_, hexec, hbit, by rw [Dev.modPort_ports_same, hport], by rw [Dev.modPort_ports_same, hport]⟩

/-- A bank whose row has been open for PAGE_TIMEOUT becomes due for a precharge (R141). -/
theorem pageTimeout_marksDue (b : BankId) (hcfg : s.dev.schedCfg (tilePort b.tile) 8 4 ≠ 0) :
    ∃ d : Dev, exec (.pageTimeout b) s = .next { s with dev := d } ∧
      ∀ k, sget Bank.closed (d.ports[tilePort b.tile]).banks k =
        let x := sget Bank.closed (s.dev.ports[tilePort b.tile]).banks k
        if k = bankIdPortKey b ∧ x.row.isSome then { x with due := true } else x := by
  refine ⟨_, (congrArg (devNext s) (if_neg hcfg)).trans (devNext_of_live _ hlive), fun k => ?_⟩
  rw [Dev.modBank, Dev.modPort_ports_same]
  by_cases hk : k = bankIdPortKey b
  · rw [hk, sget_sset_same]
    simp
  · rw [sget_sset_ne _ _ _ _ hk]
    simp [hk]

/-- STARVE raises the entry of that number by one level, at most to the second (R138). -/
theorem starvePromote_promotes {p : Fin 4} (q : Nat) (hcfg : s.dev.schedCfg p 0x10 4 ≠ 0) :
    ∃ d : Dev, exec (.starvePromote p q) s = .next { s with dev := d } ∧
      (d.ports[p]).rdq = (s.dev.ports[p]).rdq.map (fun (r : RdEnt) => if r.q = q then { r with promo := min 2 (r.promo + 1) } else r) ∧
      (d.ports[p]).wrq = (s.dev.ports[p]).wrq.map (fun (w : WrEnt) => if w.q = q then { w with promo := min 2 (w.promo + 1) } else w) ∧
      ∀ o : Fin 4, o ≠ p → d.ports[o] = s.dev.ports[o] := by
  refine ⟨_, (congrArg (devNext s) (if_neg hcfg)).trans (devNext_of_live _ hlive), ?_, ?_,
    fun o ho => Dev.modPort_ports_ne _ _ _ ho⟩
  · rw [Dev.modPort_ports_same]
  · rw [Dev.modPort_ports_same]

theorem exec_qosWindowEnd {n : BitVec 4} (h : s.dev.noteWindow n ≠ 0) : exec (.qosWindowEnd n) s =
    .next { s with dev := { s.dev with qos := s.dev.qos.set n.toNat (0, false) } } :=
  (congrArg (devNext s) (if_neg h)).trans (devNext_of_live _ hlive)

end

/-! ### The acknowledgement of ATTN (R124) -/

theorem Dev.setAttn_onlyRegs (d : Dev) (bits : Nat) : d.onlyRegs (d.setAttn bits) [A.attn, A.sillLost] := by
  obtain ⟨_, _, he, hr⟩ := d.setAttn_eq bits
  rw [he]
  exact ⟨rfl, fun a ha => hr a (fun e => ha (by simp [e])) (fun e => ha (by simp [e]))⟩

theorem Dev.setAttn_flt (d : Dev) (bits : Nat) : (d.setAttn bits).flt = d.flt := by
  obtain ⟨_, _, he, -⟩ := d.setAttn_eq bits
  rw [he]

theorem Dev.setAttn_noAccord (d : Dev) (bits : Nat) : (d.setAttn bits).noAccord = d.noAccord := by
  obtain ⟨_, _, he, -⟩ := d.setAttn_eq bits
  rw [he]

/-- A cause is pending when its bit is set, and cause 11 in FATAL and without an Accord. -/
theorem Dev.attnPending_testBit (d : Dev) {c : Nat} (hc : c < 12) : d.attnPending.testBit c =
    (bit (d.reg A.attn) c || decide (c = 11 ∧ (d.flt.fatal = true ∨ d.noAccord = true))) := by
  have hfld : (d.fldR A.attn 0 12).testBit c = bit (d.reg A.attn) c := by
    rw [Dev.fldR, fld_testBit, decide_eq_true hc, Bool.true_and, Nat.zero_add]
    rfl
  unfold Dev.attnPending
  extract_lets b
  split
  next h =>
    have h' : d.flt.fatal = true ∨ d.noAccord = true := by simpa using h
    rw [Nat.testBit_or, hfld, Nat.testBit_two_pow, decide_eq_decide.mpr (show 11 = c ↔ c = 11 ∧ _ from ⟨fun e => ⟨e.symm, h'⟩,
      fun e => e.1.symm⟩)]
  next h =>
    have h' : ¬ (d.flt.fatal = true ∨ d.noAccord = true) := by simpa using h
    rw [hfld]
    simp [h']

/-- A write of ATTN clears the causes written 1, but not cause 0. -/
theorem Dev.attnAck_bit (d : Dev) (v : Word) {c : Nat} (hc : c < 12) : bit ((d.attnAck v).reg A.attn) c =
    (bit (d.reg A.attn) c && (decide (c = 0) || !bit v (16 + c))) := by
  have hmask : (0xFFF ^^^ (fld v 16 12 &&& 0xFFE)).testBit c = (decide (c = 0) || !bit v (16 + c)) := by
    have hone : ∀ c < 12, Nat.testBit 0xFFF c = true := by decide
    have hall : ∀ c < 12, Nat.testBit 0xFFE c = !decide (c = 0) := by decide
    rw [Nat.testBit_xor, Nat.testBit_and, fld_testBit, hone c hc, hall c hc, decide_eq_true hc, bit]
    cases decide (c = 0) <;> simp
  rw [bit, Dev.attnAck, Dev.setAttn_reg, put_getLsbD _ _ _ _ _ (by decide) (by decide), if_pos (by omega), Nat.sub_zero,
    Nat.testBit_and, hmask, Dev.fldR, fld_testBit, decide_eq_true hc, Bool.true_and, Nat.zero_add, bit, bit]

/-- What is pending after the acknowledgement: cause 0 and a persisting cause 11 stand. -/
theorem Dev.attnAck_pending (d : Dev) (v : Word) {c : Nat} (hc : c < 12) : (d.attnAck v).attnPending.testBit c =
    if c = 0 then d.attnPending.testBit 0
    else if c = 11 ∧ (d.flt.fatal = true ∨ d.noAccord = true) then true
    else d.attnPending.testBit c && !bit v (16 + c) := by
  have hflt : (d.attnAck v).flt = d.flt := d.setAttn_flt _
  have hacc : (d.attnAck v).noAccord = d.noAccord := d.setAttn_noAccord _
  rw [Dev.attnPending_testBit _ hc, Dev.attnAck_bit _ _ hc, hflt, hacc]
  split_ifs with h0 h11
  · subst h0
    rw [Dev.attnPending_testBit _ hc]
    simp
  · simp [h11]
  · rw [Dev.attnPending_testBit _ hc]
    simp [h0, h11]

/-- Settles O32, from what each timer marks, and the causes that an acknowledgement leaves. -/
theorem schedulerTimers : Obligations.SchedulerTimers :=
  ⟨fun _ _ _ hlive hcfg hq => writeAgeDrain_drains hlive hcfg hq, fun _ b hlive hcfg => pageTimeout_marksDue hlive b hcfg,
    fun _ _ q hlive hcfg => starvePromote_promotes hlive q hcfg, fun _ _ hlive h => exec_qosWindowEnd hlive h,
    fun s _ v hlive => ⟨_, devNext_of_live _ hlive, s.dev.setAttn_onlyRegs _, fun _ hc => s.dev.attnAck_pending v hc⟩⟩

end Sys2Proof.Machine
end

section
/-! SUPPORT. Captured reads of the hub (R101, R201, R202, R226, R291), and the answer of the one request tracked (R114). -/

namespace Sys2Proof.Machine

/-! ### Answers on VC P (R101, R114) -/

/-- The message of VC P that answers a request of VC Q. -/
def rspMsgQ (tag : BitVec 12) (slots : List Slot) : OutMsg :=
  { vc := .q, tag := tag, resync := false, started := false, slots := slots }

/-- The response of the one request tracked, which executes it or not: its message joins VC P. -/
theorem Dev.respondWith_newTrack {d : Dev} {tag : BitVec 12} (exec : Bool) (mk : Nat → List Slot)
    (ht : d.txn.track = [newTrack .q tag]) : ∃ track, d.respondWith exec .q tag false mk =
      d.modTxn (fun x => { x with track := track, outP := x.outP ++ [rspMsgQ tag (mk d.attnValue)] }) := by
  have hmark := Dev.markExec_newTrack ht
  refine ⟨[{ newTrack .q tag with executed := exec, built := true }], ?_⟩
  cases exec <;> simp [Dev.respondWith, ht, hmark, Dev.modTxn, Dev.attnValue_withTxn, Dev.sendMsg, modFirst, newTrack, rspMsgQ]

/-- The attention code follows the ATTN register, FATAL and the absence of an Accord. -/
theorem Dev.attnValue_congr {x y : Dev} (hreg : y.reg A.attn = x.reg A.attn) (hflt : y.flt = x.flt)
    (hacc : y.noAccord = x.noAccord) : y.attnValue = x.attnValue := by
  simp only [Dev.attnValue, Dev.attnPending, Dev.fldR, hreg, hflt, hacc]

/-! ### Clean bursts (R201, R202) -/

theorem Dev.injectStep_of_off {d : Dev} {b : Fin 8} (h : d.injectOff b) (write : Bool) : d.injectStep b write = (d, noInj) := by
  have hoff : bit (d.reg (A.inject b.val)) 24 = false := h
  simp [Dev.injectStep, hoff]

/-- The counter that the decoding of an encrypted burst advances. -/
def Dev.countCrypt (d : Dev) (b : Fin 8) (enc : Bool) : Dev := if enc then d.bump (A.cryptCount b.val) 0 24 else d

/-- The line that a clean burst delivers. -/
def Dev.burstLine (d : Dev) (i : Inflight) (burst : List (BitVec 64)) : Line :=
  d.crypt1 i.key (decodeLine burst i.loc i.spare i.erased noInj).data

/-- What a read of line `l` delivers that needed no correction. -/
def cleanRead (l : Line) (extra : Nat) : ReadRes := { data := some l, corr := false, fwd := false, bad := false, extra := extra }

/-- A clean burst is decrypted, and counted where it was encrypted. -/
theorem Dev.decodeRead_of_clean {d : Dev} {b : Fin 8} {i : Inflight} {burst : List (BitVec 64)} (hoff : d.injectOff b)
    (hclean : (decodeLine burst i.loc i.spare i.erased noInj).outc = .clean)
    (hcount : (decodeLine burst i.loc i.spare i.erased noInj).counted = []) : ∃ extra,
      d.decodeRead b i burst = (d.countCrypt b i.key.enc, cleanRead (d.burstLine i burst) extra) := by
  refine ⟨if (decodeLine burst i.loc i.spare i.erased noInj).slow then 10 else 3, ?_⟩
  unfold Dev.decodeRead
  rw [Dev.injectStep_of_off hoff]
  simp only [hclean, hcount, Dev.countSymbols]
  cases i.key.enc <;> rfl

theorem attn_ne_cryptCount : ∀ b : Fin 8, A.attn ≠ A.cryptCount b.val := by decide

theorem Dev.countCrypt_eq (d : Dev) (b : Fin 8) (enc : Bool) : ∃ rf, d.countCrypt b enc = { d with rf := rf } := by
  cases enc
  · exact ⟨_, rfl⟩
  · exact ⟨_, rfl⟩

theorem Dev.countCrypt_attnValue (d : Dev) (b : Fin 8) (enc : Bool) : (d.countCrypt b enc).attnValue = d.attnValue := by
  cases enc
  · rfl
  · exact Dev.attnValue_congr (d.bump_regsBut _ _ _ _ (List.mem_singleton.not.mpr (attn_ne_cryptCount b))) rfl rfl

/-- No access of a line without an entry waits for one. -/
theorem Dev.forwardReady_of_none {d : Dev} {p : Fin 4} {loc : Loc} (h : (d.ports[p]).wrAt loc = none) : d.forwardReady p loc = d := by
  simp only [Dev.forwardReady, h]

/-- A hub's read is answered as it is delivered. -/
theorem Dev.deliverRead_hub {d : Dev} {acc : Acc} {tag : BitVec 12} {src : BitVec 10} (hwho : acc.who = .hub tag src) (l : Line)
    (extra : Nat) (ht : d.txn.track = [newTrack .q tag]) : ∃ track, (d.modTxn (fun x => { x with
      track := track, outP := x.outP ++ [rspMsgQ tag (rspD tag src .ok false false l d.attnValue)] })).measures
        (d.deliverRead acc none (cleanRead l extra) none) := by
  obtain ⟨track, htrack⟩ := Dev.respondWith_newTrack true (rspD tag src .ok false false l) ht
  refine ⟨track, ?_⟩
  have hread : d.deliverRead acc none (cleanRead l extra) none =
      (d.respondWith true .q tag false (rspD tag src .ok false false l)).noteLatency acc.note (d.cc + extra + 1 - acc.c0) := by
    simp only [Dev.deliverRead, hwho]
    rfl
  rw [hread, htrack]
  exact Dev.noteLatency_measures _ _ _

section
variable {s : State} {b : Fin 8} {burst : List (BitVec 64)} {i : Inflight} {rest : List Inflight} (hlive : s.dev.live = true)
  (hcalm : s.dev.calm) (hfly : (s.dev.phys[b]).inflight = i :: rest)
include hlive hcalm hfly

/-- A clean burst of a hub's read is taken, and the read answered with its line (R101, R201, R226). -/
theorem readDataCapture_answers {tag : BitVec 12} {src : BitVec 10} (hdrop : i.drop = false) (hop : i.op = .rd)
    (hwho : i.acc.who = .hub tag src) (hov : i.ov = none) (hoff : s.dev.injectOff b) (htrack : s.dev.tracksOnly .q tag)
    (hnone : (s.dev.ports[subPort b]).wrAt i.loc = none)
    (hclean : (decodeLine burst i.loc i.spare i.erased noInj).outc = .clean)
    (hcount : (decodeLine burst i.loc i.spare i.erased noInj).counted = []) :
    ∃ d : Dev, exec (.readDataCapture b burst) s = .next { s with dev := d } ∧ (d.phys[b]).inflight = rest ∧
      s.dev.queuesP d .q tag (rspD tag src .ok false false (s.dev.burstLine i burst) s.dev.attnValue) := by
  let d0 := s.dev.modPhy b (fun x => { x with inflight := rest })
  let d1 := d0.countCrypt b i.key.enc
  obtain ⟨extra, hdec⟩ := Dev.decodeRead_of_clean (d := d0) (b := b) (burst := burst) hoff hclean hcount
  obtain ⟨rf, hrf⟩ : ∃ rf, d1 = { d0 with rf := rf } := d0.countCrypt_eq b i.key.enc
  have htxn : d1.txn = s.dev.txn := by rw [hrf]; rfl
  obtain ⟨track, hread⟩ := Dev.deliverRead_hub hwho (s.dev.burstLine i burst) extra ((congrArg Txn.track htxn).trans htrack.2)
  have hnone' : ((d1.deliverRead i.acc none (cleanRead (s.dev.burstLine i burst) extra) none).ports[subPort b]).wrAt i.loc = none := by
    rw [hread.ports, Dev.modTxn_ports, hrf]
    exact hnone
  have hcalm' : (d1.deliverRead i.acc none (cleanRead (s.dev.burstLine i burst) extra) none).calm :=
    hread.calm (by rw [hrf]; exact hcalm)
  have hcapture : s.dev.capture b burst = d1.deliverRead i.acc none (cleanRead (s.dev.burstLine i burst) extra) none := by
    simp only [Dev.capture, hfly, hdrop]
    rw [if_neg Bool.false_ne_true, hdec]
    simp only [Dev.useRead, hop, Dev.serveRead, hov]
    exact (congrArg Dev.enterQueues (Dev.forwardReady_of_none hnone')).trans (Dev.enterQueues_of_calm hcalm')
  refine ⟨_, (congrArg (devNext s) hcapture).trans (devNext_of_live _ hlive), ?_, ?_⟩
  · rw [hread.phys, Dev.modTxn_phys, hrf, Dev.modPhy_phys_same]
  · have hattn : d1.attnValue = s.dev.attnValue := d0.countCrypt_attnValue b i.key.enc
    rw [hattn] at hread
    rw [Dev.queuesP, hread.txn, ← htxn]
    rfl

/-- A burst whose read was dropped is only taken (R291). -/
theorem readDataCapture_of_dropped (hdrop : i.drop = true) : exec (.readDataCapture b burst) s =
    .next { s with dev := s.dev.modPhy b (fun x => { x with inflight := rest }) } := by
  have hcapture : s.dev.capture b burst = s.dev.modPhy b (fun x => { x with inflight := rest }) := by
    simp only [Dev.capture, hfly, hdrop, if_true]
    exact Dev.enterQueues_of_calm hcalm
  exact (congrArg (devNext s) hcapture).trans (devNext_of_live _ hlive)

end

/-- Settles O31, from the decoding of a clean burst and the answer it brings. -/
theorem capturedReadsAreAnswered : Obligations.CapturedReadsAreAnswered :=
  ⟨fun _ _ _ _ _ _ _ hlive hcalm hfly hdrop hop hwho hov hoff htrack hnone hclean hcount =>
      readDataCapture_answers hlive hcalm hfly hdrop hop hwho hov hoff htrack hnone hclean hcount,
    fun _ _ _ _ _ hlive hcalm hfly hdrop => readDataCapture_of_dropped hlive hcalm hfly hdrop⟩

end Sys2Proof.Machine
end

section
/-! SUPPORT. Requests from their decoding to their verdict (R98 to R104, R109 to R111, R267): the fields of their slots, the request
held, and what its verdict makes of it. -/

namespace Sys2Proof.Machine

/-! ### The fields of a request's slots (Table 4.3) -/

/-- A field of a slot is the bits it names. -/
theorem ofNat_slotField (s : Slot) {hi lo n : Nat} (h : hi + 1 - lo = n) : BitVec.ofNat n (slotField s hi lo) = s.extractLsb' lo n := by
  apply BitVec.eq_of_toNat_eq
  rw [slotField, h, BitVec.toNat_ofNat, BitVec.extractLsb'_toNat, Nat.mod_mod]

theorem atomOp_eq {op : BitVec 2} (hop : op ≠ 3) (h operand : Slot) :
    atomOp op h operand = .atom op (h.extractLsb' 51 3) 0 (operand.extractLsb' 0 64) := by
  rw [atomOp, atomWord, if_neg hop, ofNat_slotField (n := 3) h rfl, ofNat_slotField (n := 64) operand rfl]

theorem atomOp_cas (h : Slot) (c v : BitVec 64) : atomOp 3 h (c ++ v) = .atom 3 (h.extractLsb' 51 3) c v := by
  rw [atomOp, atomWord, if_pos rfl, ofNat_slotField (n := 3) h rfl, ofNat_slotField (n := 64) (c ++ v) (hi := 127) rfl,
    ofNat_slotField (n := 64) (c ++ v) (hi := 63) rfl,
    BitVec.extractLsb'_append_eq_of_le (by decide), BitVec.extractLsb'_append_eq_of_add_le (by decide)]
  simp only [Nat.sub_self, BitVec.extractLsb'_eq_self]

theorem wrmOp_eq (m : Slot) (data : List Slot) : wrmOp m data = .wrm (m.extractLsb' 0 64) (dataLine data) := by
  rw [wrmOp, ofNat_slotField (n := 64) m rfl]
  rfl

section
variable (t : BitVec 16) (b : BitVec 56) (k : BitVec 8) (w : BitVec 4) (n : BitVec 32) (z : BitVec 12)

theorem opkOp_append : opkOp (t ++ b ++ k ++ w ++ n ++ z) = .opk k w n := by
  have hk : (t ++ b ++ k ++ w ++ n ++ z).extractLsb' 48 8 = k := by
    simp only [BitVec.extractLsb'_append_eq_ite]
    simp
  have hw : (t ++ b ++ k ++ w ++ n ++ z).extractLsb' 44 4 = w := by
    simp only [BitVec.extractLsb'_append_eq_ite]
    simp
  have hn : (t ++ b ++ k ++ w ++ n ++ z).extractLsb' 12 32 = n := by
    simp only [BitVec.extractLsb'_append_eq_ite]
    simp
  rw [opkOp, ofNat_slotField (n := 8) _ rfl, ofNat_slotField (n := 4) _ rfl, ofNat_slotField (n := 32) _ rfl, hk, hw, hn]

theorem reqOf_opk_line : (reqOf (t ++ b ++ k ++ w ++ n ++ z)).line = b.extractLsb' 0 42 := by
  have hline : (t ++ b ++ k ++ w ++ n ++ z).extractLsb' 56 42 = b.extractLsb' 0 42 := by
    simp only [BitVec.extractLsb'_append_eq_ite]
    simp
  exact (ofNat_slotField _ rfl).trans hline

end

section
variable (c : BitVec 72) (a : BitVec 24) (n : BitVec 4) (z : BitVec 28)

theorem slotWaddr_append : slotWaddr (c ++ a ++ n ++ z) = a := by
  have h : (c ++ a ++ n ++ z).extractLsb' 32 24 = a := by
    simp only [BitVec.extractLsb'_append_eq_ite]
    simp
  exact (ofNat_slotField _ rfl).trans h

theorem slotCount_append : slotCount (c ++ a ++ n ++ z) = n := by
  have h : (c ++ a ++ n ++ z).extractLsb' 28 4 = n := by
    simp only [BitVec.extractLsb'_append_eq_ite]
    simp
  exact (ofNat_slotField _ rfl).trans h

end

/-- Drain causes are no matter of the transaction unit. -/
theorem Dev.drains.txn {p : Fin 4} {x y : Dev} (h : Dev.drains p x y) : y.txn = x.txn := by
  obtain ⟨_, _, rfl⟩ := h
  rfl

/-! ### Decoding -/

/-- The device once the request `r` of VC `vc` is decoded, with `st` decided: it waits, numbered, for its verdict. -/
def Dev.holds (d : Dev) (vc : Vc) (r : Req) (op : Op) (st : Option Status) : Dev :=
  d.tickRid.hold (mkHeld vc r op st d.txn.nextRid d.cc)

/-- The device with these engines, its next access numbered `k`: what the queues and the banks take depends on neither. -/
def Dev.numbered (d : Dev) (engs : Vector Engine 72) (k : Nat) : Dev := { d with engs := engs, txn := { d.txn with nextRid := k } }

section
variable (d : Dev) (engs : Vector Engine 72) (k : Nat) (p : Fin 4) (n : BitVec 4) (l : LineAddr)

theorem Dev.numbered_cfg : (d.numbered engs k).cfg = d.cfg := rfl
theorem Dev.numbered_ports : (d.numbered engs k).ports = d.ports := rfl
theorem Dev.numbered_held : (d.numbered engs k).txn.held = d.txn.held := rfl
theorem Dev.numbered_applied : (d.numbered engs k).applied = d.applied := rfl
theorem Dev.numbered_reg (a : Nat) : (d.numbered engs k).reg a = d.reg a := rfl
theorem Dev.numbered_flying : (d.numbered engs k).flying p = d.flying p := rfl
theorem Dev.numbered_ingress : (d.numbered engs k).ingress p = d.ingress p := rfl
theorem Dev.numbered_rowCount (t : Fin 16) : (d.numbered engs k).rowCount t = d.rowCount t := rfl

theorem Dev.numbered_fldR (a lo len : Nat) : (d.numbered engs k).fldR a lo len = d.fldR a lo len := by
  simp only [Dev.fldR, Dev.numbered_reg]

theorem Dev.numbered_linePort : (d.numbered engs k).linePort l = d.linePort l := by
  simp only [Dev.linePort, Dev.numbered_cfg]
  rfl

theorem Dev.numbered_heldLoc (h : Held) : (d.numbered engs k).heldLoc h = d.heldLoc h := by
  simp only [Dev.heldLoc, Dev.numbered_cfg]
  rfl

theorem Dev.numbered_takenAt : (d.numbered engs k).takenAt p = d.takenAt p := by
  simp only [Dev.takenAt, Dev.numbered_heldLoc, Dev.numbered_held]

theorem Dev.numbered_res : (d.numbered engs k).res p = d.res p := by
  simp only [Dev.res, Dev.noteBudget, Dev.numbered_fldR]

theorem Dev.numbered_rdFree : (d.numbered engs k).rdFree p n = d.rdFree p n := by
  simp only [Dev.rdFree, Dev.rdUse, Dev.numbered_takenAt, Dev.numbered_ports, Dev.numbered_flying, Dev.numbered_res]

theorem Dev.numbered_wrFree : (d.numbered engs k).wrFree p n = d.wrFree p n := by
  simp only [Dev.wrFree, Dev.wrUse, Dev.atomNotes, Dev.numbered_takenAt, Dev.numbered_ports, Dev.numbered_flying,
    Dev.numbered_res]

theorem Dev.numbered_overBudget : (d.numbered engs k).overBudget p n = d.overBudget p n := by
  simp only [Dev.overBudget, Dev.noteCount, Dev.noteBudget, Dev.numbered_takenAt, Dev.numbered_ports, Dev.numbered_flying,
    Dev.numbered_fldR, Dev.numbered_applied]
  rfl

theorem Dev.numbered_basePrio : (d.numbered engs k).basePrio p n = d.basePrio p n := by
  simp only [Dev.basePrio, Dev.notePrio, Dev.numbered_overBudget, Dev.numbered_fldR]

theorem Dev.numbered_queueAhead : (d.numbered engs k).queueAhead p n l = d.queueAhead p n l := by
  simp only [Dev.queueAhead, Dev.isSpec, Dev.numbered_heldLoc, Dev.numbered_held, Dev.numbered_ports]

theorem Dev.numbered_physRow (x : Loc) : (d.numbered engs k).physRow x = d.physRow x := by
  have h : (d.numbered engs k).remapFor x = d.remapFor x := by simp only [Dev.remapFor, Dev.numbered_reg]
  unfold Dev.physRow Dev.markerRows
  rw [h, Dev.numbered_rowCount, Dev.numbered_fldR]

/-- The guard of R110 does not depend on the engines or the number either. -/
theorem Dev.numbered_speculates (r : Req) : (d.numbered engs k).speculates r = d.speculates r := by
  unfold Dev.speculates
  simp only [Dev.numbered_cfg, Dev.numbered_ports, Dev.numbered_held, Dev.numbered_reg, Dev.numbered_ingress,
    Dev.numbered_linePort, Dev.numbered_heldLoc, Dev.numbered_rdFree, Dev.numbered_basePrio, Dev.numbered_queueAhead,
    Dev.numbered_physRow]
  rfl

end

theorem Dev.arrive_of_run {d : Dev} {p : Fin 4} (h : (d.ports[p]).sr = .run) : d.arrive p = d := by
  rw [Dev.arrive, h]

/-- A Q request is decoded and not queued speculatively, while its port runs (R103, R110). -/
theorem Dev.decodeQ_holds {d : Dev} {r : Req} {op : Op} (hdec : d.decodes = true)
    (hrun : ∀ p, d.linePort r.line = some p → (d.ports[p]).sr = .run) (hspec : op = .rd → d.speculates r = false) :
    d.decodeQ r op = d.holds .q r op (d.decideQ r op) := by
  have harrive : (match d.decideQ r op, d.linePort r.line with
      | none, some p => d.tickRid.arrive p
      | _, _ => d.tickRid) = d.tickRid := by
    split
    next p _ hp => exact Dev.arrive_of_run (d := d.tickRid) (hrun p hp)
    next => rfl
  have hno : ((d.decideQ r op).isNone && decide (op = .rd) && d.tickRid.speculates r) = false := by
    by_cases hop : op = .rd
    · rw [show d.tickRid.speculates r = d.speculates r from d.numbered_speculates d.engs _ r, hspec hop, Bool.and_false]
    · rw [decide_eq_false hop, Bool.and_false, Bool.false_and]
  unfold Dev.decodeQ
  extract_lets dec h d0 d1 loc p
  have hd1 : d1 = d.tickRid := harrive
  rw [hdec, if_neg (by decide), hd1, if_neg (ne_true_of_eq_false hno)]
  rfl

theorem Dev.decodeFlush_holds {d : Dev} (r : Req) (hdec : d.decodes = true) : d.decodeFlush r =
    d.holds .q r .flush (if d.noAccord then some .opfault else if d.flt.fatal then some .poison else none) := by
  rw [Dev.decodeFlush, hdec]
  rfl

theorem Dev.decodeK_holds {d : Dev} (r : Req) (k : BitVec 8) (w : BitVec 4) (n : BitVec 32) (hdec : d.decodes = true) :
    d.decodeK r k w n = d.holds .k r (.opk k w n) (d.decideK r.line k w n) := if_pos hdec

theorem Dev.decodeM_holds {d : Dev} (r : Req) (op : Op) (hdec : d.decodes = true) : d.decodeM r op = d.holds .m r op none :=
  if_pos hdec

section
variable {s : State} {vc : Vc} {r : Req} {op : Op} {st : Option Status} (hlive : s.dev.live = true) (hdec : s.dev.decodes = true)
include hlive

/-- What a command that leaves `y` does to a device that is on and not fenced off. -/
theorem exec_of_devNext {i : Instr} {y : Dev} (h : exec i s = devNext s y) : exec i s = .next { s with dev := y } :=
  h.trans (devNext_of_live _ hlive)

include hdec

/-- A request is decoded, and held with what its slots ask for (R98 to R104). -/
theorem exec_request {i : Instr} (hask : asksFor s.dev i = some (vc, r, op, st))
    (hrun : vc = .q → op ≠ .flush → ∀ p, s.dev.linePort r.line = some p → (s.dev.ports[p]).sr = .run)
    (hspec : op = .rd → s.dev.speculates r = false) :
    exec i s = .next { s with dev := s.dev.holds vc r op st } := by
  refine exec_of_devNext hlive ?_
  have hq (hvc : vc = .q) (hop : op ≠ .flush) : s.dev.decodeQ r op = s.dev.holds .q r op (s.dev.decideQ r op) :=
    Dev.decodeQ_holds hdec (hrun hvc hop) hspec
  cases i <;> cases hask
  case rd h => exact congrArg (devNext s) (hq rfl Op.noConfusion)
  case wr h l => exact congrArg (devNext s) (hq rfl Op.noConfusion)
  case wrm h m l => exact congrArg (devNext s) ((congrArg _ (wrmOp_eq m l)).trans (hq rfl Op.noConfusion))
  case atomAdd c f o => exact congrArg (devNext s) ((congrArg _ (atomOp_eq (by decide) _ o)).trans (hq rfl Op.noConfusion))
  case atomSwap c f o => exact congrArg (devNext s) ((congrArg _ (atomOp_eq (by decide) _ o)).trans (hq rfl Op.noConfusion))
  case atomCas c f x y => exact congrArg (devNext s) ((congrArg _ (atomOp_cas _ x y)).trans (hq rfl Op.noConfusion))
  case flush c f => exact congrArg (devNext s) (Dev.decodeFlush_holds _ hdec)
  case opk t b k w n z =>
    have hline : s.dev.decideK (reqOf (t ++ b ++ k ++ w ++ n ++ z)).line k w n = s.dev.decideK (b.extractLsb' 0 42) k w n := by
      rw [reqOf_opk_line]
    simp only [exec, execOpk, opkOp_append]
    rw [Dev.decodeK_holds _ _ _ _ hdec, hline]
  case mrd c a n z =>
    simp only [exec, execMrd, mrdOp, slotWaddr_append, slotCount_append]
    rw [Dev.decodeM_holds _ _ hdec]
    rfl
  case mwr c a n z l =>
    simp only [exec, execMwr, mwrOp, slotWaddr_append, slotCount_append]
    rw [Dev.decodeM_holds _ _ hdec]
    rfl

end

/-! ### Verdicts (R104, R109, R110, R267) -/

theorem dropFirst_singleton (h : Held) : dropFirst (· = h) [h] = [] := by
  simp [dropFirst]

theorem Dev.openTrack_of_tracked {d : Dev} {vc : Vc} {tag : BitVec 12} (h : d.tracksOnly vc tag) : d.openTrack vc tag = d := by
  simp [Dev.openTrack, h.2]

/-- A request of the hub is the only one held, and waits for its verdict. -/
structure Dev.judges (d : Dev) (h : Held) : Prop where
  held : d.txn.held = [h]
  hub : h.isHub = true
  fresh : h.accepted = false
  untaken : h.taken = false

section
variable {s : State} {h : Held} (hw : s.dev.judges h)
include hw

theorem Dev.judges.find {vc : Vc} (hvc : h.vc = vc) :
    s.dev.txn.held.find? (fun k => k.vc = vc && k.r.tag = h.r.tag && k.isHub && !k.accepted && !k.taken) = some h := by
  simp [hw.held, hvc, hw.hub, hw.fresh, hw.untaken]

theorem State.verdictAt_q (hvc : h.vc = .q) (ok : Bool) :
    s.verdictAt .q h.r.tag ok = { s with dev := s.dev.verdictQ h ok } := by
  simp only [State.verdictAt, hw.find hvc]

theorem State.verdictAt_k (hvc : h.vc = .k) (ok : Bool) :
    s.verdictAt .k h.r.tag ok = { s with dev := s.dev.verdictK h ok } := by
  simp only [State.verdictAt, hw.find hvc]

/-- An OPK that is accepted joins the kernel queue (R267). -/
theorem Dev.verdictK_accept {k : BitVec 8} {w : BitVec 4} {n : BitVec 32} (hdec : h.decided = none) (hop : h.op = .opk k w n)
    (hfatal : s.dev.flt.fatal = false) : (s.dev.verdictK h true).txn.held = [] ∧ (s.dev.verdictK h true).kq = s.dev.kq ++
      [{ kidx := k, window := w, tag := h.r.tag, src := h.r.src, line := h.r.line, length := n, pf := false, onE := none }] := by
  obtain ⟨track, ht⟩ := s.dev.openTrack_eq .k h.r.tag
  obtain ⟨rx, hu⟩ := (s.dev.openTrack .k h.r.tag).unhold_eq h
  have hheld : ((s.dev.openTrack .k h.r.tag).unhold h).txn.held = [] := by
    rw [hu, ht]
    exact (congrArg _ hw.held).trans (dropFirst_singleton h)
  have hkq : ((s.dev.openTrack .k h.r.tag).unhold h).kq = s.dev.kq := by
    rw [hu, ht]
    rfl
  have hflt : ((s.dev.openTrack .k h.r.tag).unhold h).flt.fatal = false := by
    rw [hu, ht]
    exact hfatal
  simp only [Dev.verdictK, hdec, hop, hflt]
  exact ⟨hheld, congrArg (· ++ _) hkq⟩

/-- A FLUSH that is accepted waits for the writes accepted before it (R109). -/
theorem Dev.verdictQ_flush (hdec : h.decided = none) (hop : h.op = .flush) (hfatal : s.dev.flt.fatal = false) :
    (s.dev.verdictQ h true).txn.held = [] ∧ (s.dev.verdictQ h true).txn.flushes =
      s.dev.txn.flushes ++ [{ tag := h.r.tag, src := h.r.src, cover := s.dev.txn.writes, poison := false }] := by
  obtain ⟨track, ht⟩ := s.dev.openTrack_eq .q h.r.tag
  obtain ⟨rx, hu⟩ := (s.dev.openTrack .q h.r.tag).unhold_eq h
  have hflt : (s.dev.openTrack .q h.r.tag).flt.fatal = false := by
    rw [ht]
    exact hfatal
  have htake : s.dev.verdictQ h true = (s.dev.openTrack .q h.r.tag).takeFlush h := by
    simp [Dev.verdictQ, hdec, hflt, hop]
  have htxn : ((s.dev.openTrack .q h.r.tag).takeFlush h).txn = { s.dev.txn with
      track := track, held := dropFirst (· = h) s.dev.txn.held, rx := rx
      flushes := s.dev.txn.flushes ++ [{ tag := h.r.tag, src := h.r.src, cover := s.dev.txn.writes, poison := false }] } := by
    rw [Dev.takeFlush, hu, ht]
    exact Dev.each_keeps (fun d => d.txn = _) _ (fun p d hd => (d.drainStart_drains p).txn.trans hd) _ _ rfl
  rw [htake, htxn, hw.held, dropFirst_singleton]
  exact ⟨rfl, rfl⟩

/-- A request that is turned down goes, unanswered (R104). -/
theorem Dev.verdictQ_refuse (hops : s.dev.tier.ops = []) (hjobs : s.dev.jobs = [])
    (hspec : ∀ p : Fin 4, (s.dev.ports[p]).rdq.any (RdEnt.specOf h.rid) = false) :
    s.dev.verdictQ h false = s.dev.withHeld [] := by
  have hno : s.dev.isSpec h = false := by
    rw [Dev.isSpec, Vector.any_eq_false]
    exact fun p hp => ne_true_of_eq_false (hspec ⟨p, hp⟩)
  have hnext : s.dev.modTxn (fun x => { x with held := dropFirst (· = h) x.held }) = s.dev.withHeld [] := by
    simp only [Dev.modTxn, Dev.withHeld, hw.held, dropFirst_singleton]
  have hcalm : (s.dev.withHeld []).calm := ⟨rfl, hops, hjobs⟩
  simp only [Dev.verdictQ, hno, Bool.false_eq_true, if_false]
  rw [hnext, Dev.enterQueues_of_calm hcalm]

/-- A read whose status was decided at its decoding is answered with it (R104, R111). -/
theorem Dev.verdictQ_decided {st : Status} (hvc : h.vc = .q) (hwho : h.who = .hub h.r.tag h.r.src) (hop : h.op = .rd)
    (hdec : h.decided = some st) (htrack : s.dev.tracksOnly .q h.r.tag) : (s.dev.verdictQ h true).txn.held = [] ∧
      s.dev.queuesP (s.dev.verdictQ h true) .q h.r.tag (rspD h.r.tag h.r.src st false false 0 s.dev.attnValue) := by
  obtain ⟨rx, hu⟩ := s.dev.unhold_eq h
  have ht : (s.dev.unhold h).txn.track = [newTrack .q h.r.tag] := by
    rw [hu]
    exact htrack.2
  have hattn : (s.dev.unhold h).attnValue = s.dev.attnValue := by
    rw [hu]
    rfl
  obtain ⟨track, hrsp⟩ := Dev.respondWith_newTrack (st ≠ .poison) (answerSlots .rd h.r.tag h.r.src st) ht
  have hanswer : s.dev.verdictQ h true = (((s.dev.unhold h).respondWith (st ≠ .poison) .q h.r.tag false
      (answerSlots .rd h.r.tag h.r.src st)).writeEnd h.rid (st = .poison)).noteLatency h.r.note
        ((s.dev.unhold h).cc + 1 - h.c0) := by
    simp only [Dev.verdictQ, hdec, Dev.openTrack_of_tracked htrack, Dev.answerHeld, hwho, hop, hvc]
    rfl
  have htxn := (Dev.noteLatency_measures (((s.dev.unhold h).respondWith (st ≠ .poison) .q h.r.tag false
    (answerSlots .rd h.r.tag h.r.src st)).writeEnd h.rid (st = .poison)) h.r.note ((s.dev.unhold h).cc + 1 - h.c0)).txn
  rw [← hanswer, hrsp, hattn, hu] at htxn
  rw [Dev.queuesP, htxn]
  exact ⟨(congrArg _ hw.held).trans (dropFirst_singleton h), rfl⟩

end

/-- A FLUSH with nothing left to cover is answered (R109). -/
theorem exec_flushDone {s : State} {f : FlushWait} (hlive : s.dev.live = true) (hf : s.dev.txn.flushes = [f]) (hcover : f.cover = [])
    (htrack : s.dev.tracksOnly .q f.tag) : ∃ d : Dev, exec (.flushDone f.tag) s = .next { s with dev := d } ∧ d.txn.flushes = [] ∧
      s.dev.queuesP d .q f.tag (rspC f.tag f.src (if f.poison then .poison else .ok) s.dev.attnValue) := by
  let d1 := s.dev.modTxn (fun x => { x with flushes := [] })
  let mk := rspC f.tag f.src (if f.poison then .poison else .ok)
  obtain ⟨track, hrsp⟩ := Dev.respondWith_newTrack (d := d1) true mk htrack.2
  have hexec : exec (.flushDone f.tag) s = devNext s (d1.respondWith true .q f.tag false mk) := by
    have hclear : s.dev.modTxn (fun x => { x with flushes := dropFirst (fun g => g.tag = f.tag) x.flushes }) = d1 := by
      simp only [Dev.modTxn, hf, dropFirst, decide_true, if_true, d1]
    simp only [exec, execFlushDone, hf, List.find?_cons, decide_true, hcover]
    rw [hclear, if_neg (fun h => h rfl)]
    rfl
  rw [hrsp] at hexec
  exact ⟨_, exec_of_devNext hlive hexec, rfl, rfl⟩

/-- Settles O27, from the request that each command decodes, and what its verdict makes of it. -/
theorem requestsAndVerdicts : Obligations.RequestsAndVerdicts := by
  refine ⟨fun s i vc r op st hlive hdec hask hrun hspec =>
      ⟨_, exec_request hlive hdec hask hrun hspec, rfl, rfl, rfl, rfl, rfl, rfl, rfl, rfl⟩, ?_, ?_, ?_, ?_,
    fun s f hlive hf hcover htrack => exec_flushDone hlive hf hcover htrack⟩
  · intro s h k w n hlive hheld hvc hub hfresh huntaken hdec hop hfatal
    have hw : s.dev.judges h := ⟨hheld, hub, hfresh, huntaken⟩
    exact ⟨_, (stNext_of_live _ hlive).trans (congrArg _ (State.verdictAt_k hw hvc true)), Dev.verdictK_accept hw hdec hop hfatal⟩
  · intro s h hlive hheld hvc hub hfresh huntaken hdec hop hfatal
    have hw : s.dev.judges h := ⟨hheld, hub, hfresh, huntaken⟩
    exact ⟨_, (stNext_of_live _ hlive).trans (congrArg _ (State.verdictAt_q hw hvc true)), Dev.verdictQ_flush hw hdec hop hfatal⟩
  · intro s h hlive hheld hops hjobs hvc hub hfresh huntaken hspec
    have hw : s.dev.judges h := ⟨hheld, hub, hfresh, huntaken⟩
    refine (stNext_of_live _ hlive).trans (congrArg _ ((State.verdictAt_q hw hvc false).trans ?_))
    rw [Dev.verdictQ_refuse hw hops hjobs hspec]
    rfl
  · intro s h st hlive hheld hvc hwho hfresh huntaken hop hdec htrack
    have hw : s.dev.judges h := ⟨hheld, by rw [Held.isHub, hwho], hfresh, huntaken⟩
    exact ⟨_, (stNext_of_live _ hlive).trans (congrArg _ (State.verdictAt_q hw hvc true)),
      Dev.verdictQ_decided hw hvc hwho hop hdec htrack⟩

end Sys2Proof.Machine
end

section
/-! SUPPORT. One core cycle of a port (R134 to R141): what a scheduler's command leaves as the next step of the cycle meets it, and
what each kind of command does. -/

namespace Sys2Proof.Machine

/-! ### What decides the rest of a cycle -/

/-- What decides, beside the candidates, what a core cycle does: the same in `y` as in `x`. -/
structure Dev.sameCycle (x y : Dev) : Prop where
  on : y.on = x.on
  rst : y.rst = x.rst
  pwr : y.pwr = x.pwr
  flt : y.flt = x.flt
  cals : y.cals = x.cals
  status : y.reg A.pwrStatus = x.reg A.pwrStatus
  held : y.txn.held = x.txn.held
  jobs : y.jobs = x.jobs
  ops : y.tier.ops.length = x.tier.ops.length
  init : y.tier.initWait = x.tier.initWait
  unit : ∀ t : Fin 16, (y.tiles[t]).refUnit = (x.tiles[t]).refUnit
  fill : ∀ b : Fin 8, (y.prots[b]).filling = (x.prots[b]).filling ∧ (y.prots[b]).rowOp = (x.prots[b]).rowOp
  ca : ∀ b : Fin 8, (y.phys[b]).alert = (x.phys[b]).alert ∧ (y.phys[b]).testSent = (x.phys[b]).testSent ∧
    (y.phys[b]).turnUntil = (x.phys[b]).turnUntil
  port : ∀ p : Fin 4, (y.ports[p]).sr = (x.ports[p]).sr ∧ (y.ports[p]).cyc = (x.ports[p]).cyc

theorem Dev.sameCycle_refl (d : Dev) : d.sameCycle d :=
  ⟨rfl, rfl, rfl, rfl, rfl, rfl, rfl, rfl, rfl, rfl, fun _ => rfl, fun _ => ⟨rfl, rfl⟩, fun _ => ⟨rfl, rfl, rfl⟩, fun _ => ⟨rfl, rfl⟩⟩

theorem Dev.sameCycle.trans {x y z : Dev} (h : x.sameCycle y) (k : y.sameCycle z) : x.sameCycle z where
  on := k.on.trans h.on
  rst := k.rst.trans h.rst
  pwr := k.pwr.trans h.pwr
  flt := k.flt.trans h.flt
  cals := k.cals.trans h.cals
  status := k.status.trans h.status
  held := k.held.trans h.held
  jobs := k.jobs.trans h.jobs
  ops := k.ops.trans h.ops
  init := k.init.trans h.init
  unit t := (k.unit t).trans (h.unit t)
  fill b := ⟨(k.fill b).1.trans (h.fill b).1, (k.fill b).2.trans (h.fill b).2⟩
  ca b := ⟨(k.ca b).1.trans (h.ca b).1, (k.ca b).2.1.trans (h.ca b).2.1, (k.ca b).2.2.trans (h.ca b).2.2⟩
  port p := ⟨(k.port p).1.trans (h.port p).1, (k.port p).2.trans (h.port p).2⟩

section
variable {x y : Dev} (h : x.sameCycle y)
include h

theorem Dev.sameCycle.now (p : Fin 4) : y.now p = x.now p := congrArg (12 * ·) (h.port p).2

theorem Dev.sameCycle.calm (hc : x.calm) : y.calm := by
  obtain ⟨hheld, hops, hjobs⟩ := hc
  refine ⟨h.held.trans hheld, List.length_eq_zero_iff.mp (h.ops.trans ?_), h.jobs.trans hjobs⟩
  rw [hops, List.length_nil]

theorem Dev.sameCycle.subServes (p : Fin 4) (b : Fin 8) : y.subServes p b = x.subServes p b := by
  obtain ⟨halert, hsent, hturn⟩ := h.ca b
  simp only [Dev.subServes, Dev.caOpen, Dev.subFenced, Dev.pwrState, Dev.fldR, h.on, h.rst, h.pwr, h.flt, h.cals, h.status,
    halert, hsent, hturn, h.now, (h.port p).1]
  rfl

end

section
variable (d : Dev)

theorem Dev.sameCycle_modPort (p : Fin 4) {f : Port → Port} (h : ∀ q, (f q).sr = q.sr ∧ (f q).cyc = q.cyc) :
    d.sameCycle (d.modPort p f) where
  __ := d.sameCycle_refl
  port o := by
    rw [Dev.modPort_ports]
    split
    next ho => rw [ho]; exact h _
    next => exact ⟨rfl, rfl⟩

theorem Dev.sameCycle_modTile (t : Fin 16) {f : Tile → Tile} (h : ∀ x, (f x).refUnit = x.refUnit) : d.sameCycle (d.modTile t f) where
  __ := d.sameCycle_refl
  unit o := by
    by_cases ho : o = t
    · rw [ho, Dev.modTile_tiles_same]
      exact h _
    · rw [Dev.modTile_tiles_ne _ _ _ ho]

theorem Dev.sameCycle_modPhy (b : Fin 8) {f : Phy → Phy}
    (h : ∀ x, (f x).alert = x.alert ∧ (f x).testSent = x.testSent ∧ (f x).turnUntil = x.turnUntil) :
    d.sameCycle (d.modPhy b f) where
  __ := d.sameCycle_refl
  ca o := by
    by_cases ho : o = b
    · rw [ho, Dev.modPhy_phys_same]
      exact h _
    · rw [Dev.modPhy_phys_ne _ _ _ ho]
      exact ⟨rfl, rfl, rfl⟩

theorem Dev.sameCycle_modProt (b : Fin 8) {f : Prot → Prot} (h : ∀ x, (f x).filling = x.filling ∧ (f x).rowOp = x.rowOp) :
    d.sameCycle (d.modProt b f) where
  __ := d.sameCycle_refl
  fill o := by
    by_cases ho : o = b
    · rw [ho, Dev.modProt_prots_same]
      exact h _
    · rw [Dev.modProt_prots_ne _ _ _ ho]
      exact ⟨rfl, rfl⟩

theorem Dev.sameCycle_modTier {f : Tier → Tier} (h : (f d.tier).ops.length = d.tier.ops.length ∧ (f d.tier).initWait = d.tier.initWait) :
    d.sameCycle (d.modTier f) where
  __ := d.sameCycle_refl
  ops := h.1
  init := h.2

theorem Dev.sameCycle_modTxn {f : Txn → Txn} (h : (f d.txn).held = d.txn.held) : d.sameCycle (d.modTxn f) where
  __ := d.sameCycle_refl
  held := h

theorem Dev.sameCycle_modEng (e : Fin 72) (f : Engine → Engine) : d.sameCycle (d.modEng e f) where
  __ := d.sameCycle_refl

theorem Dev.sameCycle_setReg {a : Nat} (v : Word) (h : A.pwrStatus ≠ a) : d.sameCycle (d.setReg a v) where
  __ := d.sameCycle_refl
  status := (Dev.reg_setReg _ _ _ _).trans (if_neg h)

end

theorem Dev.measures.cycle {x y : Dev} (h : x.measures y) : x.sameCycle y := by
  obtain ⟨⟨_, _, _, rfl⟩, hreg⟩ := h
  exact { x.sameCycle_refl with status := hreg }

theorem Dev.drains.cycle {p : Fin 4} {x y : Dev} (h : Dev.drains p x y) : x.sameCycle y := by
  obtain ⟨_, _, rfl⟩ := h
  exact x.sameCycle_modPort p fun _ => ⟨rfl, rfl⟩

section
variable {p : Fin 4} {x y : Dev} (h : Dev.drains p x y)
include h

theorem Dev.drains.phys : y.phys = x.phys := by
  obtain ⟨_, _, rfl⟩ := h
  rfl

theorem Dev.drains.wrq : (y.ports[p]).wrq = (x.ports[p]).wrq := by
  obtain ⟨_, _, rfl⟩ := h
  rw [Dev.modPort_ports_same]

end

theorem Dev.drainEnd_drains (d : Dev) (p : Fin 4) : Dev.drains p d (d.drainEnd p) := by
  unfold Dev.drainEnd
  extract_lets occ lo x end1 d1 d2 d3
  have h1 : Dev.drains p d d1 := Dev.drains_ite (d.drains_setDrain p 1 false) (Dev.drains_refl p d)
  have h2 : Dev.drains p d1 d2 := Dev.drains_ite (d1.drains_setDrain p 2 false) (Dev.drains_refl p d1)
  have h3 : Dev.drains p d2 d3 := Dev.drains_ite (Dev.drains_refl p d2) (d2.drains_setDrain p 3 false)
  have hflush : Dev.drains p d3 (d3.drainFlushEnd p) := Dev.drains_ite (Dev.drains_refl p d3) (d3.drains_setDrain p 4 false)
  exact (((h1.trans h2).trans h3).trans hflush).trans (Dev.drainStart_drains _ p)

/-! ### Completions -/

/-- `y` is `x` but for answers, completions and counts: ports, subchannels and what decides the cycle are the same. -/
structure Dev.completes (x y : Dev) : Prop where
  cycle : x.sameCycle y
  ports : y.ports = x.ports
  phys : y.phys = x.phys

theorem Dev.completes_refl (d : Dev) : d.completes d := ⟨d.sameCycle_refl, rfl, rfl⟩

theorem Dev.completes.trans {x y z : Dev} (h : x.completes y) (k : y.completes z) : x.completes z :=
  ⟨h.cycle.trans k.cycle, k.ports.trans h.ports, k.phys.trans h.phys⟩

theorem Dev.measures.completes {x y : Dev} (h : x.measures y) : x.completes y := ⟨h.cycle, h.ports, h.phys⟩

section
variable (d : Dev)

theorem Dev.completes_modTxn {f : Txn → Txn} (h : (f d.txn).held = d.txn.held) : d.completes (d.modTxn f) :=
  ⟨d.sameCycle_modTxn h, rfl, rfl⟩

theorem Dev.completes_modEng (e : Fin 72) (f : Engine → Engine) : d.completes (d.modEng e f) := ⟨d.sameCycle_modEng e f, rfl, rfl⟩

theorem Dev.markExec_completes (vc : Vc) (tag : BitVec 12) : d.completes (d.markExec vc tag) := by
  have hloss : d.completes (d.addLoss vc tag) := d.completes_modTxn (by cases vc <;> rfl)
  unfold Dev.markExec
  extract_lets d1
  have h1 : d.completes d1 := by
    unfold d1
    split
    · exact hloss
    · exact d.completes_refl
  exact h1.trans (d1.completes_modTxn rfl)

theorem Dev.sendMsg_completes (vc : Vc) (tag : BitVec 12) (slots : List Slot) : d.completes (d.sendMsg vc tag slots) := by
  unfold Dev.sendMsg
  refine d.completes_modTxn ?_
  split <;> rfl

theorem Dev.respondWith_completes (exec : Bool) (vc : Vc) (tag : BitVec 12) (late : Bool) (mk : Nat → List Slot) :
    d.completes (d.respondWith exec vc tag late mk) := by
  unfold Dev.respondWith
  extract_lets sel any isIt
  split
  next t =>
    extract_lets d1 d2
    have h1 : d.completes d1 := by
      unfold d1
      split
      · exact d.completes_refl
      · exact d.markExec_completes vc tag
    split
    · exact h1.trans (d1.completes_modTxn rfl)
    · exact (h1.trans (d1.completes_modTxn rfl)).trans (d2.sendMsg_completes _ _ _)
  next =>
    split
    · exact d.sendMsg_completes _ _ _
    · exact d.completes_refl

theorem Dev.writeEnd_completes (rid : Nat) (bad : Bool) : d.completes (d.writeEnd rid bad) := d.completes_modTxn rfl

/-- A completion of a write entry, but one of a step, changes no more than answers, engines and counts. -/
theorem Dev.complete_completes (c : Acc × Option (BitVec 64)) (st : Status) (hjob : ∀ id k, c.1.who ≠ .job id k) :
    d.completes (d.complete c st) := by
  unfold Dev.complete
  extract_lets a
  cases hwho : a.who with
  | hub tag src => exact (d.respondWith_completes _ _ _ _ _).trans (Dev.noteLatency_measures _ _ _).completes
  | slot e k g => exact (d.completes_modEng _ _).trans (Dev.noteLatency_measures _ _ _).completes
  | latom e g => exact (d.completes_modEng _ _).trans (Dev.noteLatency_measures _ _ _).completes
  | tier id i => exact ⟨d.sameCycle_modTier ⟨List.length_map _, rfl⟩, rfl, rfl⟩
  | job id k => exact absurd hwho (hjob id k)
  | fill s => exact ⟨d.sameCycle_modProt s fun _ => ⟨rfl, rfl⟩, rfl, rfl⟩
  | init => exact ⟨d.sameCycle_modTier ⟨rfl, rfl⟩, rfl, rfl⟩
  | _ => exact d.completes_refl

theorem Dev.jobLoaded_of_none (id : Nat) (h : d.jobs = []) : d.jobLoaded id = d := by
  have hmap : { d with jobs := d.jobs.map (fun (x : Job) => if x.id = id then { x with left := x.left - 1 } else x) } = d := by
    rw [h, List.map_nil, ← h]
  rw [Dev.jobLoaded, hmap, Dev.jobsEnd, h]
  rfl

/-- A WR command's end, while no step is under way (R108). -/
theorem Dev.placeWrite_completes (w : WrEnt) (h : d.jobs = []) : d.completes (d.placeWrite w) := by
  unfold Dev.placeWrite
  extract_lets st tell
  have htell : ∀ c x, d.completes x → d.completes (tell c x) := by
    intro c x hx
    unfold tell
    split
    next id _ _ =>
      rw [x.jobLoaded_of_none id (hx.cycle.jobs.trans h)]
      exact hx
    next hjob => exact hx.trans (x.complete_completes c st hjob)
  exact Dev.each_keeps d.completes _ (fun n x hx => hx.trans (x.writeEnd_completes n false)) _ _
    (Dev.each_keeps d.completes _ htell _ _ d.completes_refl)

end

/-! ### A subchannel that issues nothing, and the end of the cycle -/

theorem Dev.each_of_fixed {α : Type} {f : α → Dev → Dev} {d : Dev} : ∀ {l : List α}, (∀ x ∈ l, f x d = d) → Dev.each f l d = d
  | [], _ => rfl
  | x :: r, h => by
    rw [Dev.each, h x List.mem_cons_self, Dev.each_of_fixed fun y hy => h y (List.mem_cons_of_mem x hy)]

theorem subTiles_portTiles : ∀ (p : Fin 4) (b : Fin 8), b ∈ portSubs p → ∀ t ∈ subTiles b, t ∈ portTiles p := by decide

/-- Nothing waits at port `p` that moves on by itself. -/
structure Dev.settled (d : Dev) (p : Fin 4) : Prop where
  calm : d.calm
  step : d.rst.step = 0
  init : d.tier.initWait = false
  subs : ∀ b ∈ portSubs p, (d.prots[b]).filling = false ∧ (d.prots[b]).rowOp = none

theorem Dev.cycleEnd_of_settled {d : Dev} {p : Fin 4} (h : d.settled p) : d.cycleEnd p = d := by
  have heach : Dev.each (fun s x => ((x.fillStep s).rowGo s).pprGo s) (portSubs p) d = d := by
    refine Dev.each_of_fixed fun b hb => ?_
    obtain ⟨hfill, hrow⟩ := h.subs b hb
    have h1 : d.fillStep b = d := by
      simp only [Dev.fillStep, hfill, Bool.not_false, Bool.true_or, if_true]
    have h2 : d.rowGo b = d := by simp only [Dev.rowGo, hrow]
    have h3 : d.pprGo b = d := by simp only [Dev.pprGo, hrow]
    show ((d.fillStep b).rowGo b).pprGo b = d
    rw [h1, h2, h3]
  have hini : d.initStep = d := by
    simp only [Dev.initStep, h.init, Bool.not_false, Bool.true_or, if_true]
  have hrst : d.rst.step ≠ 2 := by
    rw [h.step]
    decide
  simp only [Dev.cycleEnd, heach, hini, Dev.enterQueues_of_calm h.calm, if_neg hrst]

/-- One core cycle more. -/
def Dev.tickPort (d : Dev) (p : Fin 4) : Dev := d.modPort p (fun x => { x with cyc := x.cyc + 1 })

section
variable {x d : Dev} {p : Fin 4} (hplain : x.plainCycle p) (h : x.sameCycle d)
include hplain h

/-- A subchannel that does not serve requests issues nothing in such a cycle. -/
theorem Dev.pickSub_of_idle {b : Fin 8} (hb : b ∈ portSubs p) (hserve : x.subServes p b = false) (bad first : Bool) :
    d.pickSub x p b bad first = (d, false) := by
  obtain ⟨-, -, -, hunit, hsub⟩ := hplain
  obtain ⟨htest, hdue, -, -⟩ := hsub b hb
  have hserve' : d.subServes p b = false := (h.subServes p b).trans hserve
  have hpick : x.pick p b = none := by rw [Dev.pick, hserve]; rfl
  have hmay : x.testMay p b = none := by simp only [Dev.testMay, htest]
  have hpre : d.duePre p b = none := by rw [Dev.duePre, hserve']; rfl
  have hnext : d.unitNext p b = none := by
    refine List.find?_eq_none.mpr fun t ht => ?_
    rw [(h.unit t).trans (hunit t (subTiles_portTiles p b hb t ht))]
    simp
  have hadvance : d.unitAdvance p b = d := by
    unfold Dev.unitAdvance
    rw [hnext]
    split <;> rfl
  have hno : d.noPick p b bad = d := by
    unfold Dev.noPick
    rw [hpre]
    exact hadvance
  unfold Dev.pickSub
  extract_lets d0
  have hd0 : d0 = d := if_neg (ne_true_of_eq_false hserve')
  rw [hdue, hpick, hmay, hd0]
  exact congrArg (fun y => (y, false)) hno

/-- After such a cycle, counted, nothing waits to move on by itself. -/
theorem Dev.settled_tickPort : (d.tickPort p).settled p := by
  obtain ⟨hcalm, hstep, hinit, -, hsub⟩ := hplain
  refine ⟨h.calm hcalm, (congrArg Rst.step h.rst).trans hstep, h.init.trans hinit, fun b hb => ?_⟩
  obtain ⟨-, -, hfill, hrow⟩ := hsub b hb
  exact ⟨(h.fill b).1.trans hfill, (h.fill b).2.trans hrow⟩

end

/-! ### A cycle of one pick -/

/-- Without a penalty among the candidates no ACT is counted as held back (R160). -/
theorem Dev.countHeld_of_none {d : Dev} {p : Fin 4} {b : Fin 8} (h : ∀ c ∈ d.cands p b, c.penal = false) : d.countHeld p b = d := by
  have hheld : (d.cands p b).filter (fun c => c.penal) = [] :=
    List.filter_eq_nil_iff.mpr fun c hc => ne_true_of_eq_false (h c hc)
  unfold Dev.countHeld
  extract_lets held isR isW n
  have hr : (d.ports[p]).rdq.filter isR = [] :=
    List.filter_eq_nil_iff.mpr fun r _ => by simp only [isR, held, hheld, List.any_nil, Bool.and_false]; decide
  have hw : (d.ports[p]).wrq.filter isW = [] :=
    List.filter_eq_nil_iff.mpr fun w _ => by simp only [isW, held, hheld, List.any_nil, Bool.and_false]; decide
  have hn : n = 0 := by unfold n; rw [hr, hw]; rfl
  rw [if_pos hn]

section
variable {s : State} {p : Fin 4} (hlive : s.dev.live = true) (hplain : s.dev.plainCycle p)
  (hother : s.dev.subServes p (Fin.ofNat 8 (2 * p.val + 1)) = false)
include hlive hplain hother

/-- The cycle is that of its first subchannel: the second issues nothing, and nothing else moves. -/
theorem exec_schedPick {d : Dev} {first : Bool} (hd : s.dev.pickSub s.dev p (Fin.ofNat 8 (2 * p.val)) false true = (d, first))
    (h : s.dev.sameCycle d) : exec (.schedPick p 0) s = .next { s with dev := d.tickPort p } := by
  have hsecond := Dev.pickSub_of_idle hplain h (List.mem_cons_of_mem _ List.mem_cons_self) hother
    ((0 : BitVec 2).getLsbD 1) (!first)
  have hcycle : s.dev.portCycle p 0 = (d.tickPort p).cycleEnd p := by
    unfold Dev.portCycle
    extract_lets q0 q1
    have h0 : q0 = (d, first) := hd
    have h1 : q1 = (d, false) := by
      unfold q1
      rw [h0]
      exact hsecond
    rw [h1]
    rfl
  refine exec_of_devNext hlive (congrArg (devNext s) (hcycle.trans ?_))
  exact Dev.cycleEnd_of_settled (Dev.settled_tickPort hplain h)

/-- A subchannel that serves no requests lets the cycle only count. -/
theorem exec_schedPick_of_idle (hserve : s.dev.subServes p (Fin.ofNat 8 (2 * p.val)) = false) :
    exec (.schedPick p 0) s = .next { s with dev := s.dev.tickPort p } :=
  exec_schedPick hlive hplain hother
    (Dev.pickSub_of_idle hplain s.dev.sameCycle_refl List.mem_cons_self hserve false true) s.dev.sameCycle_refl

/-- The pick is carried out, and the cycle counted. -/
theorem exec_schedPick_of_pick {c : Cand} (hpen : ∀ x ∈ s.dev.cands p (Fin.ofNat 8 (2 * p.val)), x.penal = false)
    (hpick : s.dev.pick p (Fin.ofNat 8 (2 * p.val)) = some c) {d : Dev} {first : Bool}
    (hd : s.dev.takePick p (Fin.ofNat 8 (2 * p.val)) c false true = (d, first)) (h : s.dev.sameCycle d) :
    exec (.schedPick p 0) s = .next { s with dev := d.tickPort p } := by
  refine exec_schedPick hlive hplain hother (first := first) ?_ h
  obtain ⟨-, -, -, -, hsub⟩ := hplain
  obtain ⟨htest, hdue, -, -⟩ := hsub _ List.mem_cons_self
  have hmay : s.dev.testMay p (Fin.ofNat 8 (2 * p.val)) = none := by simp only [Dev.testMay, htest]
  unfold Dev.pickSub
  extract_lets d0
  have hd0 : d0 = s.dev := by
    unfold d0
    rw [Dev.countHeld_of_none hpen, ite_self]
  rw [hdue, hpick, hmay, hd0]
  exact hd

end

/-! ### Commands and banks -/

/-- The bank of `l` after an update of it. -/
theorem Dev.bankAt_modBank (d : Dev) (p : Fin 4) (l : Loc) (f : Bank → Bank) :
    bankAt (d.modBank p (portBankKey l) f).ports[p] l = f (bankAt d.ports[p] l) := by
  rw [Dev.modBank, Dev.modPort_ports_same]
  exact sget_sset_same _ _ _ _

theorem Dev.tickPort_phys (d : Dev) (p : Fin 4) : (d.tickPort p).phys = d.phys := rfl

theorem Dev.tickPort_bankAt (d : Dev) (p : Fin 4) (l : Loc) : bankAt (d.tickPort p).ports[p] l = bankAt d.ports[p] l := by
  rw [Dev.tickPort, Dev.modPort_ports_same]
  rfl

section
variable (d : Dev) (p : Fin 4)

theorem Dev.modBank_sameCycle (k : Nat) (f : Bank → Bank) : d.sameCycle (d.modBank p k f) :=
  d.sameCycle_modPort p fun _ => ⟨rfl, rfl⟩

theorem Dev.issueAt_sameCycle (b : Fin 8) (c : Cmd) (at0 : Nat) : d.sameCycle (d.issueAt b c at0) :=
  d.sameCycle_modPhy b fun _ => ⟨rfl, rfl, rfl⟩

theorem Dev.sent_sameCycle (b : Fin 8) (c : Cmd) : d.sameCycle (d.sent b p c) := d.issueAt_sameCycle b c _

theorem Dev.sent_lastCmd (b : Fin 8) (c : Cmd) : ((d.sent b p c).phys[b]).lastCmd = some c := by
  rw [Dev.sent, Dev.issueAt, Dev.modPhy_phys_same]

theorem Dev.actSent_sameCycle (q : Nat) : d.sameCycle (d.modPort p (fun x => x.actSent q)) :=
  d.sameCycle_modPort p fun _ => ⟨rfl, rfl⟩

theorem Dev.dropRead_sameCycle (q : Nat) : d.sameCycle (d.modPort p (fun x => x.dropRead q)) :=
  d.sameCycle_modPort p fun _ => ⟨rfl, rfl⟩

theorem Dev.issue_ports (b : Fin 8) (wait : Nat) (c : Cmd) : (d.issue b wait c).ports = d.ports := rfl

theorem Dev.issueAt_inflight (b : Fin 8) (c : Cmd) (at0 : Nat) (o : Fin 8) :
    ((d.issueAt b c at0).phys[o]).inflight = (d.phys[o]).inflight := by
  rw [Dev.issueAt]
  by_cases h : o = b
  · rw [h, Dev.modPhy_phys_same]
  · rw [Dev.modPhy_phys_ne _ _ _ h]

theorem Dev.passed_sameCycle (c : Cand) : d.sameCycle (d.modPort p (fun x => x.passed c)) :=
  d.sameCycle_modPort p fun q => by
    unfold Port.passed
    split <;> exact ⟨rfl, rfl⟩

end

/-- `y` is `x` but for the banks of port `p`. -/
def Dev.banksOnly (p : Fin 4) (x y : Dev) : Prop := ∃ banks, y = x.modPort p (fun q => { q with banks := banks })

theorem Dev.banksOnly.trans {p : Fin 4} {x y z : Dev} (h : Dev.banksOnly p x y) (k : Dev.banksOnly p y z) : Dev.banksOnly p x z := by
  obtain ⟨_, rfl⟩ := h
  obtain ⟨banks, rfl⟩ := k
  exact ⟨banks, Dev.modPort_modPort _ _ _ _⟩

theorem Dev.modBank_banksOnly (d : Dev) (p : Fin 4) (k : Nat) (f : Bank → Bank) : Dev.banksOnly p d (d.modBank p k f) := ⟨_, rfl⟩

/-- After a column command: of the port only the bank differs. -/
theorem Dev.columnBank_banksOnly (d : Dev) (p : Fin 4) (l : Loc) (row : BitVec 18) (q : Nat) (write : Bool) :
    Dev.banksOnly p d (d.columnBank p l row q write).1 := by
  unfold Dev.columnBank
  extract_lets k now d1 b ap gap
  have h1 : Dev.banksOnly p d d1 := d.modBank_banksOnly p k _
  split
  · refine h1.trans ?_
    exact ⟨_, rfl⟩
  · exact h1

section
variable {p : Fin 4} {x y : Dev} (h : Dev.banksOnly p x y)
include h

theorem Dev.banksOnly.cycle : x.sameCycle y := by
  obtain ⟨_, rfl⟩ := h
  exact x.sameCycle_modPort p fun _ => ⟨rfl, rfl⟩

theorem Dev.banksOnly.phys : y.phys = x.phys := by
  obtain ⟨_, rfl⟩ := h
  rfl

theorem Dev.banksOnly.queues : (y.ports[p]).rdq = (x.ports[p]).rdq ∧ (y.ports[p]).wrq = (x.ports[p]).wrq := by
  obtain ⟨_, rfl⟩ := h
  rw [Dev.modPort_ports_same]
  exact ⟨rfl, rfl⟩

end

theorem pwrStatus_ne_dist : ∀ p : Fin 4, A.pwrStatus ≠ A.dist p.val ∧ A.pwrStatus ≠ A.distLast p.val := by decide
theorem pwrStatus_ne_inject : ∀ b : Fin 8, A.pwrStatus ≠ A.inject b.val ∧ A.pwrStatus ≠ A.cryptCount b.val := by decide

section
variable (d : Dev)

theorem Dev.completes_setReg {a : Nat} (v : Word) (h : A.pwrStatus ≠ a) : d.completes (d.setReg a v) :=
  ⟨d.sameCycle_setReg v h, rfl, rfl⟩

theorem Dev.bump_completes {a : Nat} (lo len : Nat) (h : A.pwrStatus ≠ a) : d.completes (d.bump a lo len) :=
  (d.measures_bump lo len h).completes

/-- A disturbance event touches neither the ports nor what decides the cycle (R159). -/
theorem Dev.distEvent_sameCycle (p : Fin 4) (l : Loc) (row : BitVec 18) (m : BitVec 11) (first : Bool) :
    d.sameCycle (d.distEvent p l row m first) ∧ (d.distEvent p l row m first).ports = d.ports := by
  obtain ⟨hdist, hlast⟩ := pwrStatus_ne_dist p
  unfold Dev.distEvent
  extract_lets t k last d1 d2 d3
  have h1 : d.sameCycle d1 ∧ d1.ports = d.ports := by
    unfold d1
    split
    · exact ⟨d.sameCycle_refl, rfl⟩
    · exact ⟨d.sameCycle_modTile t fun _ => rfl, rfl⟩
  have h2 : d1.sameCycle d2 ∧ d2.ports = d1.ports := by
    unfold d2
    split
    · exact ⟨d1.issueAt_sameCycle _ _ _, d1.issue_ports _ _ _⟩
    · exact ⟨d1.sameCycle_refl, rfl⟩
  have h3 : d2.completes d3 := (Dev.measures_raiseAttn d2 1).completes.trans (Dev.bump_completes _ 24 24 hdist)
  have hd3 : d.sameCycle d3 ∧ d3.ports = d.ports :=
    ⟨(h1.1.trans h2.1).trans h3.cycle, h3.ports.trans (h2.2.trans h1.2)⟩
  split
  · have hset := d3.completes_setReg (pack [(46, t.val % 4), (42, locCid l + 1), (39, locBg l), (37, locBank l),
      (19, row.toNat), (8, m.toNat), (0, 1)]) hlast
    exact ⟨hd3.1.trans hset.cycle, hset.ports.trans hd3.2⟩
  · exact hd3

/-- An ACT is counted without touching the ports or what decides the cycle (R157 to R159). -/
theorem Dev.trackAct_sameCycle (p : Fin 4) (l : Loc) (row : BitVec 18) (m : BitVec 11) (first : Bool) :
    d.sameCycle (d.trackAct p l row m first).1 ∧ (d.trackAct p l row m first).1.ports = d.ports := by
  unfold Dev.trackAct
  extract_lets th t k es es'
  have htile : ∀ es, d.sameCycle (d.modTile t (fun x => { x with trackers := kvSet x.trackers k es })) :=
    fun _ => d.sameCycle_modTile t fun _ => rfl
  split
  · exact ⟨d.sameCycle_refl, rfl⟩
  · split
    next e _ =>
      split
      · obtain ⟨hcycle, hports⟩ :=
          (d.modTile t (fun x => { x with trackers := kvSet x.trackers k es' })).distEvent_sameCycle p l row e.master first
        exact ⟨(htile _).trans hcycle, hports⟩
      · exact ⟨htile _, rfl⟩
    next => exact ⟨d.sameCycle_refl, rfl⟩

/-- The injection of a subchannel counts without touching the ports, the subchannels or what decides the cycle (R221). -/
theorem Dev.injectStep_completes (b : Fin 8) (write : Bool) : d.completes (d.injectStep b write).1 := by
  have hinj := (pwrStatus_ne_inject b).1
  have hprot : ∀ n, d.completes (d.modProt b (fun x => { x with injCount := n })) :=
    fun n => ⟨d.sameCycle_modProt b fun _ => ⟨rfl, rfl⟩, rfl, rfl⟩
  unfold Dev.injectStep
  extract_lets v flips period n
  split
  · exact d.completes_refl
  · split
    · exact (d.measures_setFld _ _ _ hinj).completes.trans (Dev.bump_completes _ 0 24 hinj)
    · split
      · exact (hprot 0).trans (Dev.bump_completes _ 0 24 hinj)
      · exact hprot n

end

/-! ### What each kind of command does -/

theorem filter_modFirst {α : Type} {c p : α → Bool} {f : α → α} (h : ∀ x, c x = true → p x = false ∧ p (f x) = false) :
    ∀ l : List α, (modFirst c f l).filter p = l.filter p
  | [] => rfl
  | x :: r => by
    rw [modFirst]
    split
    next hc => rw [List.filter_cons_of_neg (ne_true_of_eq_false (h x hc).2), List.filter_cons_of_neg (ne_true_of_eq_false (h x hc).1)]
    next => rw [List.filter_cons, List.filter_cons, filter_modFirst h r]

/-- An element that satisfies `c` is replaced. -/
theorem mem_modFirst {α : Type} {c : α → Bool} {f : α → α} : ∀ {l : List α} {x : α}, x ∈ l → c x = true →
    ∃ y, c y = true ∧ f y ∈ modFirst c f l
  | y :: r, x, hx, hc => by
    rw [modFirst]
    split
    next hy => exact ⟨y, hy, List.mem_cons_self⟩
    next hy =>
      have hr : x ∈ r := (List.mem_cons.mp hx).resolve_left fun e => hy (e ▸ hc)
      obtain ⟨z, hz, hmem⟩ := mem_modFirst hr hc
      exact ⟨z, hz, List.mem_cons_of_mem _ hmem⟩

/-- The entries left when the picked command's goes are those left of the queue as it was. -/
theorem Port.passed_filter (x : Port) (c : Cand) :
    (x.passed c).rdq.filter (fun e => e.q ≠ c.q) = x.rdq.filter (fun e => e.q ≠ c.q) ∧
      (x.passed c).wrq.filter (fun e => e.q ≠ c.q) = x.wrq.filter (fun e => e.q ≠ c.q) := by
  unfold Port.passed
  split
  · exact ⟨filter_modFirst (fun e he => by simpa using he) _, rfl⟩
  · exact ⟨rfl, filter_modFirst (fun e he => by simpa using he) _⟩

/-- The entry of the picked read is still queued. -/
theorem Port.passed_mem {x : Port} (c : Cand) {r : RdEnt} (hr : r ∈ x.rdq) (hq : r.q = c.q) : ∃ e ∈ (x.passed c).rdq, e.q = c.q := by
  unfold Port.passed
  split
  · obtain ⟨y, hy, hmem⟩ := mem_modFirst (c := fun e => e.q = c.q) (f := fun e => { e with discards := 0 }) hr (decide_eq_true hq)
    exact ⟨_, hmem, of_decide_eq_true hy⟩
  · exact ⟨r, hr, hq⟩

section
variable (d : Dev) (p : Fin 4)

/-- An ACT opens its row (R134). -/
theorem Dev.loadAct_opens (l : Loc) (m : BitVec 11) (q : Nat) (c : Cmd) (first : Bool) :
    d.sameCycle (d.loadAct p l m q c first).1 ∧ (bankAt (d.loadAct p l m q c first).1.ports[p] l).row = some c.row ∧
      (bankAt (d.loadAct p l m q c first).1.ports[p] l).tAct = some (d.now p) := by
  unfold Dev.loadAct
  extract_lets now cyc d1 d2 d3
  have h1 : d.sameCycle d1 :=
    ((d.sent_sameCycle p (locSub l) c).trans (Dev.actSent_sameCycle _ p q)).trans (Dev.modBank_sameCycle _ p _ _)
  have h2 : d1.sameCycle d2 := d1.sameCycle_modPhy _ fun _ => ⟨rfl, rfl, rfl⟩
  have h3 : d2.sameCycle d3 := d2.sameCycle_modTile _ fun _ => rfl
  obtain ⟨htrack, hports⟩ := d3.trackAct_sameCycle p l c.row m first
  have hd3 : d3.ports = d1.ports := (Dev.modTile_ports _ _ _).trans (Dev.modPhy_ports _ _ _)
  rw [hports, hd3]
  refine ⟨((h1.trans h2).trans h3).trans htrack, ?_, ?_⟩
  · exact congrArg Bank.row (Dev.bankAt_modBank _ _ _ _)
  · exact congrArg Bank.tAct (Dev.bankAt_modBank _ _ _ _)

/-- A read goes in flight (R201). -/
theorem Dev.loadRead_flies (r : RdEnt) (c : Cmd) : d.sameCycle (d.loadRead p r c) ∧
    ((d.loadRead p r c).ports[p]).rdq = (d.ports[p]).rdq.filter (fun x => x.q ≠ r.q) ∧
    ∃ i : Inflight, ((d.loadRead p r c).phys[r.s]).inflight = (d.phys[r.s]).inflight ++ [i] ∧ i.loc = r.loc ∧ i.op = r.op ∧
      i.acc = r.acc ∧ i.drop = false := by
  unfold Dev.loadRead
  extract_lets q pr spare fly
  have hbank : Dev.banksOnly p ((d.modPort p (fun x => x.dropRead r.q)).sent r.s p c) q.1 := Dev.columnBank_banksOnly _ _ _ _ _ _
  refine ⟨?_, ?_, fly, ?_, rfl, rfl, rfl, rfl⟩
  · exact (((d.dropRead_sameCycle p r.q).trans (Dev.sent_sameCycle _ p r.s c)).trans hbank.cycle).trans
      (Dev.sameCycle_modPhy _ _ fun _ => ⟨rfl, rfl, rfl⟩)
  · rw [Dev.modPhy_ports, hbank.queues.1, Dev.sent, Dev.issueAt, Dev.modPhy_ports, Dev.modPort_ports_same]
    rfl
  · rw [Dev.modPhy_phys_same]
    refine congrArg (· ++ [fly]) ?_
    rw [hbank.phys]
    exact Dev.issueAt_inflight _ _ _ _ _

/-- A write leaves its queue for the pins (R201). -/
theorem Dev.loadWrite_leaves (w : WrEnt) (c : Cmd) (hjobs : d.jobs = []) : d.sameCycle (d.loadWrite p w c) ∧
    ((d.loadWrite p w c).ports[p]).wrq = (d.ports[p]).wrq.filter (fun x => x.q ≠ w.q) ∧
    (((d.loadWrite p w c).phys[w.s]).lastWr).isSome = true := by
  unfold Dev.loadWrite
  extract_lets inj burst d1 q keep kept d2 d3
  have hinj : d.completes inj.1 := d.injectStep_completes w.s true
  have h1 : inj.1.sameCycle d1 := inj.1.sameCycle_modPort p fun _ => ⟨rfl, rfl⟩
  have hbank : Dev.banksOnly p (d1.sent w.s p c) q.1 := Dev.columnBank_banksOnly _ _ _ _ _ _
  have h2 : q.1.sameCycle d2 := q.1.sameCycle_modPhy _ fun _ => ⟨rfl, rfl, rfl⟩
  have h3 : d2.completes d3 := by
    unfold d3
    split
    · exact d2.bump_completes _ _ (pwrStatus_ne_inject w.s).2
    · exact d2.completes_refl
  have hcycle : d.sameCycle d3 :=
    ((((hinj.cycle.trans h1).trans (d1.sent_sameCycle p w.s c)).trans hbank.cycle).trans h2).trans h3.cycle
  have hplace : d3.completes (d3.placeWrite w) := d3.placeWrite_completes w (hcycle.jobs.trans hjobs)
  have hdrain : Dev.drains p (d3.placeWrite w) ((d3.placeWrite w).drainEnd p) := Dev.drainEnd_drains _ p
  refine ⟨(hcycle.trans hplace.cycle).trans hdrain.cycle, ?_, ?_⟩
  · have hd2 : d2.ports = q.1.ports := Dev.modPhy_ports _ _ _
    have hsent : (d1.sent w.s p c).ports = d1.ports := Dev.modPhy_ports _ _ _
    rw [hdrain.wrq, hplace.ports, h3.ports, hd2, hbank.queues.2, hsent, ← hinj.ports]
    unfold d1
    rw [Dev.modPort_ports_same]
  · rw [hdrain.phys, hplace.phys, h3.phys]
    exact congrArg (fun x : Phy => x.lastWr.isSome) (Dev.modPhy_phys_same q.1 w.s _)

end

/-! ### Carrying out a pick (R134, R111) -/

section
variable {d : Dev} {p : Fin 4} {c : Cand} (b : Fin 8) (first : Bool)

/-- The picked command's request has passed the comparators. -/
def Dev.passPick (d : Dev) (p : Fin 4) (c : Cand) : Dev := d.modPort p (fun x => x.passed c)

theorem Dev.passPick_queues : ((d.passPick p c).ports[p]).rdq.filter (fun e => e.q ≠ c.q) = (d.ports[p]).rdq.filter (fun e => e.q ≠ c.q) ∧
    ((d.passPick p c).ports[p]).wrq.filter (fun e => e.q ≠ c.q) = (d.ports[p]).wrq.filter (fun e => e.q ≠ c.q) := by
  rw [Dev.passPick, Dev.modPort_ports_same]
  exact Port.passed_filter _ _

theorem Dev.takePick_act (h : c.cmd.kind = .act) :
    ∃ m, d.takePick p b c false first = (d.passPick p c).loadAct p c.loc m c.q c.cmd first := by
  simp only [Dev.takePick, h]
  exact ⟨_, rfl⟩

/-- A picked PRE leaves, and its bank is closed. -/
def Dev.pickPre (d : Dev) (p : Fin 4) (b : Fin 8) (c : Cand) : Dev :=
  ((d.passPick p c).sent b p c.cmd).modBank p (portBankKey c.loc) (fun x =>
    { x with row := none, due := false, tPre := some (d.now p), preQ := some c.q })

theorem Dev.takePick_pre (h : c.cmd.kind = .pre) : d.takePick p b c false first = (d.pickPre p b c, false) := by
  simp only [Dev.takePick, h]
  rfl

theorem Dev.takePick_wr {w : WrEnt} (h : c.cmd.kind = .wr) (hw : (d.ports[p]).wrq.find? (fun x => x.q = c.q) = some w) :
    d.takePick p b c false first = ((d.passPick p c).loadWrite p w c.cmd, false) := by
  simp only [Dev.takePick, h, hw]
  rfl

section
variable {r : RdEnt} (h : c.cmd.kind = .rd) (hr : (d.ports[p]).rdq.find? (fun x => x.q = c.q) = some r)
include h hr

theorem Dev.takePick_rd (hspec : r.specWait = false) : d.takePick p b c false first = ((d.passPick p c).loadRead p r c.cmd, false) := by
  simp only [Dev.takePick, h, hr, hspec]
  rfl

/-- The column command of a RD whose verdict is still due waits, picked (R111). -/
theorem Dev.takePick_spec (hspec : r.specWait = true) : d.takePick p b c false first = ((d.passPick p c).modPort p (fun x =>
    { x with rdq := modFirst (fun e => e.q = r.q) (fun e => { e with picked := true }) x.rdq }), false) := by
  simp only [Dev.takePick, h, hr, hspec]
  rfl

end

end

theorem Dev.passPick_sameCycle (d : Dev) (p : Fin 4) (c : Cand) : d.sameCycle (d.passPick p c) := d.passed_sameCycle p c

section
variable {s : State} {p : Fin 4} {c : Cand} (hlive : s.dev.live = true) (hplain : s.dev.plainCycle p)
  (hother : s.dev.subServes p (Fin.ofNat 8 (2 * p.val + 1)) = false)
  (hpen : ∀ x ∈ s.dev.cands p (Fin.ofNat 8 (2 * p.val)), x.penal = false)
  (hpick : s.dev.pick p (Fin.ofNat 8 (2 * p.val)) = some c)
include hlive hplain hother hpen hpick

/-- A picked ACT opens its row. -/
theorem schedPick_act (hkind : c.cmd.kind = .act) : ∃ d : Dev, exec (.schedPick p 0) s = .next { s with dev := d } ∧
    (bankAt d.ports[p] c.loc).row = some c.cmd.row ∧ (bankAt d.ports[p] c.loc).tAct = some (s.dev.now p) ∧
    (d.ports[p]).cyc = (s.dev.ports[p]).cyc + 1 := by
  obtain ⟨m, htake⟩ := Dev.takePick_act (d := s.dev) (p := p) (Fin.ofNat 8 (2 * p.val)) true hkind
  have hpass := s.dev.passPick_sameCycle p c
  obtain ⟨hcycle, hrow, hact⟩ := (s.dev.passPick p c).loadAct_opens p c.loc m c.q c.cmd true
  have hexec := exec_schedPick_of_pick hlive hplain hother hpen hpick (htake.trans Prod.mk.eta.symm) (hpass.trans hcycle)
  refine ⟨_, hexec, ?_, ?_, ?_⟩
  · rw [Dev.tickPort_bankAt, hrow]
  · rw [Dev.tickPort_bankAt, hact, hpass.now]
  · rw [Dev.tickPort, Dev.modPort_ports_same]
    exact congrArg (· + 1) ((hpass.trans hcycle).port p).2

/-- A picked PRE closes its bank. -/
theorem schedPick_pre (hkind : c.cmd.kind = .pre) : ∃ d : Dev, exec (.schedPick p 0) s = .next { s with dev := d } ∧
    (bankAt d.ports[p] c.loc).row = none ∧ (bankAt d.ports[p] c.loc).tPre = some (s.dev.now p) ∧
    (d.phys[Fin.ofNat 8 (2 * p.val)]).lastCmd = some c.cmd ∧ (d.ports[p]).cyc = (s.dev.ports[p]).cyc + 1 := by
  have htake := Dev.takePick_pre (d := s.dev) (p := p) (Fin.ofNat 8 (2 * p.val)) true hkind
  have hcycle : s.dev.sameCycle (s.dev.pickPre p (Fin.ofNat 8 (2 * p.val)) c) :=
    ((s.dev.passPick_sameCycle p c).trans (Dev.sent_sameCycle _ p _ c.cmd)).trans (Dev.modBank_sameCycle _ p _ _)
  have hbank : bankAt (s.dev.pickPre p (Fin.ofNat 8 (2 * p.val)) c).ports[p] c.loc = _ := Dev.bankAt_modBank _ p c.loc _
  refine ⟨_, exec_schedPick_of_pick hlive hplain hother hpen hpick htake hcycle, ?_, ?_, ?_, ?_⟩
  · rw [Dev.tickPort_bankAt, hbank]
  · rw [Dev.tickPort_bankAt, hbank]
  · exact (s.dev.passPick p c).sent_lastCmd p _ c.cmd
  · rw [Dev.tickPort, Dev.modPort_ports_same]
    exact congrArg (· + 1) (hcycle.port p).2

section
variable {r : RdEnt} (hkind : c.cmd.kind = .rd) (hr : (s.dev.ports[p]).rdq.find? (fun x => x.q = c.q) = some r)
include hkind hr

/-- A picked read leaves its queue and goes in flight. -/
theorem schedPick_rd (hspec : r.specWait = false) : ∃ (d : Dev) (i : Inflight), exec (.schedPick p 0) s = .next { s with dev := d } ∧
    (d.ports[p]).rdq = (s.dev.ports[p]).rdq.filter (fun x => x.q ≠ c.q) ∧
    (d.phys[r.s]).inflight = (s.dev.phys[r.s]).inflight ++ [i] ∧ i.loc = r.loc ∧ i.op = r.op ∧ i.acc = r.acc ∧ i.drop = false := by
  have hq : r.q = c.q := by simpa using List.find?_some hr
  have htake := Dev.takePick_rd (Fin.ofNat 8 (2 * p.val)) true hkind hr hspec
  obtain ⟨hcycle, hrdq, i, hfly, hi⟩ := (s.dev.passPick p c).loadRead_flies p r c.cmd
  refine ⟨_, i, exec_schedPick_of_pick hlive hplain hother hpen hpick htake ((s.dev.passPick_sameCycle p c).trans hcycle), ?_, ?_, hi⟩
  · rw [Dev.tickPort, Dev.modPort_ports_same]
    refine hrdq.trans ?_
    rw [hq]
    exact Dev.passPick_queues.1
  · rw [Dev.tickPort_phys]
    exact hfly

/-- A picked read whose verdict is due waits in its queue (R111). -/
theorem schedPick_spec (hspec : r.specWait = true) : ∃ d : Dev, exec (.schedPick p 0) s = .next { s with dev := d } ∧
    d.phys = s.dev.phys ∧ ∃ x ∈ (d.ports[p]).rdq, x.q = c.q ∧ x.picked = true := by
  have hq : r.q = c.q := by simpa using List.find?_some hr
  have htake := Dev.takePick_spec (Fin.ofNat 8 (2 * p.val)) true hkind hr hspec
  have hcycle := (s.dev.passPick_sameCycle p c).trans ((s.dev.passPick p c).sameCycle_modPort p (f := fun x =>
    { x with rdq := modFirst (fun e => e.q = r.q) (fun e => { e with picked := true }) x.rdq }) fun _ => ⟨rfl, rfl⟩)
  refine ⟨_, exec_schedPick_of_pick hlive hplain hother hpen hpick htake hcycle, rfl, ?_⟩
  obtain ⟨e, he, heq⟩ := Port.passed_mem c (List.mem_of_find?_eq_some hr) hq
  obtain ⟨y, hy, hmem⟩ := mem_modFirst (c := fun e => e.q = r.q) (f := fun e => { e with picked := true }) he
    (decide_eq_true (heq.trans hq.symm))
  refine ⟨{ y with picked := true }, ?_, (of_decide_eq_true hy).trans hq, rfl⟩
  rw [Dev.tickPort, Dev.modPort_ports_same, Dev.modPort_ports_same, Dev.passPick, Dev.modPort_ports_same]
  exact hmem

end

/-- A picked write leaves its queue. -/
theorem schedPick_wr {w : WrEnt} (hkind : c.cmd.kind = .wr) (hw : (s.dev.ports[p]).wrq.find? (fun x => x.q = c.q) = some w) :
    ∃ d : Dev, exec (.schedPick p 0) s = .next { s with dev := d } ∧
      (d.ports[p]).wrq = (s.dev.ports[p]).wrq.filter (fun x => x.q ≠ c.q) ∧ (d.phys[w.s]).lastWr.isSome = true := by
  have hq : w.q = c.q := by simpa using List.find?_some hw
  obtain ⟨-, -, hjobs⟩ := hplain.1
  have htake := Dev.takePick_wr (Fin.ofNat 8 (2 * p.val)) true hkind hw
  obtain ⟨hcycle, hwrq, hlast⟩ := (s.dev.passPick p c).loadWrite_leaves p w c.cmd hjobs
  refine ⟨_, exec_schedPick_of_pick hlive hplain hother hpen hpick htake ((s.dev.passPick_sameCycle p c).trans hcycle), ?_, ?_⟩
  · rw [Dev.tickPort, Dev.modPort_ports_same]
    refine hwrq.trans ?_
    rw [hq]
    exact Dev.passPick_queues.2
  · rw [Dev.tickPort_phys]
    exact hlast

end

/-- Settles O30: the second subchannel issues nothing, so the cycle is the first one's pick, and is counted. -/
theorem schedulerIssuesItsPick : Obligations.SchedulerIssuesItsPick :=
  fun _ _ hlive hplain hother =>
    ⟨exec_schedPick_of_idle hlive hplain hother, fun _ hpen hpick =>
      ⟨schedPick_act hlive hplain hother hpen hpick, schedPick_pre hlive hplain hother hpen hpick,
        fun _ hkind hr hspec => schedPick_rd hlive hplain hother hpen hpick hkind hr hspec,
        fun _ hkind hr hspec => schedPick_spec hlive hplain hother hpen hpick hkind hr hspec,
        fun _ hkind hw => schedPick_wr hlive hplain hother hpen hpick hkind hw⟩⟩

end Sys2Proof.Machine
end

section
/-! SUPPORT. Accesses of engines to lines: what an engine's registers hold at their end (R255, R259, R260), and the entries of a
port (R105). -/

namespace Sys2Proof.Machine

/-! ### Engines (R255, R259, R260) -/

section
variable (x : Engine)

theorem Engine.setW_eq (i : Fin 16) (v : Word) : ∃ regs, x.setW i v = { x with regs := regs } := by
  unfold Engine.setW
  split
  · exact ⟨x.regs, rfl⟩
  · exact ⟨_, rfl⟩

theorem Engine.w_setW (i : Fin 16) (v : Word) (k : Fin 16) : (x.setW i v).w k = if k = i ∧ k ≠ 0 then v else x.w k := by
  unfold Engine.setW Engine.w
  by_cases hk : k = 0
  · rw [if_pos hk, if_pos hk, if_neg fun h => h.2 hk]
  · by_cases hi : i = 0
    · rw [if_pos hi, if_neg hk, if_neg fun h => hk (h.1.trans hi)]
    · rw [if_neg hi, if_neg hk]
      by_cases hki : k = i
      · subst hki
        simp [hk]
      · have hne : i.val ≠ k.val := fun h => hki (Fin.ext h.symm)
        simp [hki, hne, hk]

/-- OLD leaves the bits of its upper register free that the STATUS takes. -/
theorem put_status_ok (v : BitVec 64) : put ((v >>> 48).setWidth 48) 44 4 (statusCode .ok) = (v >>> 48).setWidth 48 := by
  apply BitVec.eq_of_getLsbD_eq
  intro i hi
  rw [put_getLsbD _ _ _ _ _ (by decide) (by decide)]
  split
  next h =>
    have hout : v.getLsbD (48 + i) = false := BitVec.getLsbD_of_ge _ _ (by omega)
    simp [statusCode, hout]
  next => rfl

variable {x}

theorem succReg_of_even : ∀ {i : Fin 16}, i.val % 2 = 0 → succReg i ≠ 0 ∧ succReg i ≠ i := by decide

/-- The result of an LATOM that ends OK: OLD in the pair (R260). -/
theorem Engine.latomResult_ok (rd : Fin 16) (old : BitVec 64) : ∃ regs, x.latomResult rd .ok old = { x with regs := regs } := by
  obtain ⟨_, h1⟩ := x.setW_eq rd (old.setWidth 48)
  obtain ⟨_, h2⟩ := (x.setW rd (old.setWidth 48)).setW_eq (succReg rd) ((old >>> 48).setWidth 48)
  obtain ⟨regs, h3⟩ := (x.setPair rd old).setW_eq (succReg rd) (put ((x.setPair rd old).w (succReg rd)) 44 4 (statusCode .ok))
  refine ⟨regs, h3.trans ?_⟩
  rw [Engine.setPair, h2, h1]

theorem Engine.latomResult_writesPair {rd : Fin 16} (old : BitVec 64) (h : rd.val % 2 = 0) :
    x.writesPair (x.latomResult rd .ok old) rd old := by
  obtain ⟨hsucc, hne⟩ := succReg_of_even h
  have hupper : (x.setPair rd old).w (succReg rd) = (old >>> 48).setWidth 48 := by
    rw [Engine.setPair, Engine.w_setW, if_pos ⟨rfl, hsucc⟩]
  intro k
  show ((x.setPair rd old).setW (succReg rd) (put ((x.setPair rd old).w (succReg rd)) 44 4 (statusCode .ok))).w k = _
  rw [hupper, put_status_ok, Engine.w_setW, Engine.setPair, Engine.w_setW, Engine.w_setW]
  by_cases hk : k = 0
  · simp [hk, Engine.w]
  · by_cases hrd : k = rd
    · simp [hrd, hne.symm, hrd ▸ hk]
    · by_cases hks : k = succReg rd
      · simp [hks, hsucc, hne, show rd + 1 = succReg rd from rfl]
      · simp [hk, hrd, hks, show rd + 1 = succReg rd from rfl]

/-- The LATOM that the engine waits on ends OK (R260). -/
theorem Engine.atomDone_atom {rd : Fin 16} (old : BitVec 64) (hrun : x.run = .waiting) (hwait : x.wait = .atom rd)
    (heven : rd.val % 2 = 0) : x.writesPair (x.atomDone x.gen .ok old) rd old ∧ (x.atomDone x.gen .ok old).pc = x.pc + 1 ∧
      (x.atomDone x.gen .ok old).run = .running := by
  have hdone : x.atomDone x.gen .ok old = (x.latomResult rd .ok old).resume := by
    simp [Engine.atomDone, hrun, hwait]
  obtain ⟨regs, hregs⟩ := x.latomResult_ok rd old
  refine ⟨fun k => ?_, ?_, ?_⟩
  · rw [hdone]
    exact Engine.latomResult_writesPair old heven k
  · rw [hdone, hregs]
    rfl
  · rw [hdone]
    rfl

/-- The LPOIS that the engine waits on ends OK (Table 10.8). -/
theorem Engine.atomDone_pois {rd : Fin 16} (old : BitVec 64) (hrun : x.run = .waiting) (hwait : x.wait = .pois rd) :
    x.writes (x.atomDone x.gen .ok old) rd 0 ∧ (x.atomDone x.gen .ok old).pc = x.pc + 1 ∧
      (x.atomDone x.gen .ok old).run = .running := by
  have hdone : x.atomDone x.gen .ok old = (x.setW rd 0).resume := by
    simp [Engine.atomDone, hrun, hwait, Engine.notePf, statusCode]
  obtain ⟨regs, hregs⟩ := x.setW_eq rd 0
  refine ⟨fun k => ?_, ?_, ?_⟩
  · rw [hdone]
    exact x.w_setW rd 0 k
  · rw [hdone, hregs]
    rfl
  · rw [hdone]
    rfl

/-- A running engine learns of the end of a slot's access at LINE_ACCESS_DONE (R259). -/
theorem Engine.accessEnds_of_running (k : Nat) (st : BitVec 4) (data : Option Line) (hrun : x.run = .running) :
    x.accessEnds k x.gen st data = { x with ended := x.ended ++ [(k, st, data)] } := by
  simp [Engine.accessEnds, hrun]

end

/-! ### Entries of a port (R105, R107) -/

theorem lineMask_fullMask : lineMask fullMask = BitVec.allOnes 512 := by decide +kernel

/-- All bytes of a line are its new ones. -/
theorem mergeLine_fullMask (new old : Line) : mergeLine fullMask new old = new := by
  rw [mergeLine, lineMask_fullMask, BitVec.not_allOnes, BitVec.and_allOnes, BitVec.and_zero, BitVec.or_zero]

theorem fullMask_or (m : BitVec 64) : m ||| fullMask = fullMask := BitVec.or_allOnes

section
variable {x : Port} {loc : Loc} {key : KeyUse} {data : Line} {poison : Bool} {acc : Acc} {comps : List (Acc × Option (BitVec 64))}

/-- A line without an entry gets one (R105). -/
theorem Port.putWrite_opens (h : x.wrAt loc = none) (mask : BitVec 64) (carry : Option Carry) :
    ∃ w, (x.putWrite loc key mask data poison acc comps carry).wrAt loc = some w ∧ w.key = key ∧ w.data = data ∧ w.mask = mask ∧
      w.poison = poison ∧ w.master = acc.master ∧ w.comps = comps := by
  have hnone : x.wrq.find? (fun w => w.loc = loc) = none := h
  rw [Port.putWrite, h]
  simp only [Port.wrAt, List.find?_append, hnone, Option.none_or, List.find?_cons, decide_true]
  exact ⟨_, rfl, rfl, rfl, rfl, rfl, rfl, rfl⟩

/-- A whole line merges into its entry (R105). -/
theorem Port.putWrite_merges {q : WrEnt} (h : x.wrAt loc = some q) (carry : Option Carry) :
    ∃ w, (x.putWrite loc key fullMask data poison acc comps carry).wrAt loc = some w ∧ w.data = data ∧ w.mask = fullMask ∧
      w.poison = poison ∧ w.comps = q.comps ++ comps := by
  have hfind : x.wrq.find? (fun w => w.loc = loc) = some q := h
  have hq : q.loc = loc := by simpa using List.find?_some hfind
  rw [Port.putWrite, h]
  simp only [Port.wrAt, List.find?_map]
  have hsame : ∀ f : WrEnt → WrEnt, (∀ w, (f w).loc = w.loc) → ((fun w : WrEnt => decide (w.loc = loc)) ∘ f) = fun w => decide (w.loc = loc) :=
    fun f hf => funext fun w => by simp [hf]
  rw [hsame _ fun w => by split <;> rfl, hfind]
  refine ⟨_, rfl, ?_⟩
  beta_reduce
  rw [if_pos hq]
  exact ⟨mergeLine_fullMask _ _, fullMask_or _, rfl, rfl⟩

theorem Port.putWrite_rdq (mask : BitVec 64) (carry : Option Carry) :
    (x.putWrite loc key mask data poison acc comps carry).rdq = x.rdq := by
  unfold Port.putWrite
  extract_lets hubs reqs
  split <;> rfl

end

end Sys2Proof.Machine
end

section
/-! SUPPORT. What the end of an access tells an engine, and the entry that its write opens (R105, R108). -/

namespace Sys2Proof.Machine

/-! ### What the end of an access tells (R105, R108) -/

/-- From `x` to `y` engine `e` becomes `F` of what it was; the queues and locks of the ports are the same, and calm stays. -/
structure Dev.tells (e : Fin 72) (F : Engine → Engine) (x y : Dev) : Prop where
  eng : y.engs[e] = F x.engs[e]
  rdq : ∀ p : Fin 4, (y.ports[p]).rdq = (x.ports[p]).rdq
  wrq : ∀ p : Fin 4, (y.ports[p]).wrq = (x.ports[p]).wrq
  locks : ∀ p : Fin 4, (y.ports[p]).locks = (x.ports[p]).locks
  calm : x.calm → y.calm

section
variable {e : Fin 72} {F G : Engine → Engine} {x y z : Dev}

theorem Dev.tells_refl (d : Dev) : Dev.tells e id d d := ⟨rfl, fun _ => rfl, fun _ => rfl, fun _ => rfl, id⟩

theorem Dev.tells.trans (h : Dev.tells e F x y) (k : Dev.tells e G y z) : Dev.tells e (fun w => G (F w)) x z where
  eng := k.eng.trans (congrArg G h.eng)
  rdq p := (k.rdq p).trans (h.rdq p)
  wrq p := (k.wrq p).trans (h.wrq p)
  locks p := (k.locks p).trans (h.locks p)
  calm hc := k.calm (h.calm hc)

theorem Dev.tells.wrAt (h : Dev.tells e F x y) (p : Fin 4) (l : Loc) : (y.ports[p]).wrAt l = (x.ports[p]).wrAt l := by
  unfold Port.wrAt
  rw [h.wrq p]

theorem Dev.tells.locked (h : Dev.tells e F x y) (p : Fin 4) (l : Loc) : (y.ports[p]).locked l = (x.ports[p]).locked l := by
  unfold Port.locked
  rw [h.locks p]

theorem Dev.measures.tells (h : x.measures y) : Dev.tells e id x y where
  eng := by rw [h.engs]; rfl
  rdq p := by rw [h.ports]
  wrq p := by rw [h.ports]
  locks p := by rw [h.ports]
  calm := h.calm

/-- An update of a port apart from its queues and locks. -/
theorem Dev.tells_modPort (d : Dev) (p : Fin 4) {f : Port → Port} (h : ∀ q, (f q).rdq = q.rdq ∧ (f q).wrq = q.wrq ∧ (f q).locks = q.locks) :
    Dev.tells e id d (d.modPort p f) where
  eng := rfl
  rdq o := by
    rw [Dev.modPort_ports]
    split
    next ho => rw [ho, (h _).1]
    next => rfl
  wrq o := by
    rw [Dev.modPort_ports]
    split
    next ho => rw [ho, (h _).2.1]
    next => rfl
  locks o := by
    rw [Dev.modPort_ports]
    split
    next ho => rw [ho, (h _).2.2]
    next => rfl
  calm := id

theorem Dev.drains.tells {p : Fin 4} (h : Dev.drains p x y) : Dev.tells e id x y := by
  obtain ⟨_, _, rfl⟩ := h
  exact x.tells_modPort p fun _ => ⟨rfl, rfl, rfl⟩

theorem Dev.tells_modTxn (d : Dev) {f : Txn → Txn} (h : (f d.txn).held = d.txn.held) : Dev.tells e id d (d.modTxn f) where
  eng := rfl
  rdq _ := rfl
  wrq _ := rfl
  locks _ := rfl
  calm hc := ⟨h.trans hc.1, hc.2⟩

theorem Dev.tells_modEng (d : Dev) (F : Engine → Engine) : Dev.tells e F d (d.modEng e F) where
  eng := Dev.modEng_engs_same _ _ _
  rdq _ := rfl
  wrq _ := rfl
  locks _ := rfl
  calm := id

end

theorem Dev.pmtWrote_tells {e : Fin 72} (d : Dev) (m : LineAddr) (l : Option Line) : Dev.tells e id d (d.pmtWrote m l) := by
  unfold Dev.pmtWrote
  split
  · exact d.tells_refl
  · exact ⟨rfl, fun _ => rfl, fun _ => rfl, fun _ => rfl, id⟩

theorem Dev.tells_tiles {e : Fin 72} (d : Dev) (tiles : Vector Tile 16) : Dev.tells e id d { d with tiles := tiles } :=
  ⟨rfl, fun _ => rfl, fun _ => rfl, fun _ => rfl, id⟩

theorem Dev.rtBegin_tells {e : Fin 72} (d : Dev) (p : Fin 4) (n : BitVec 4) : Dev.tells e id d (d.rtBegin p n) := by
  have h : Dev.tells e id d (d.modPort p (fun x => { x with rtBurst := true, burstEnded := false })) :=
    d.tells_modPort p fun _ => ⟨rfl, rfl, rfl⟩
  unfold Dev.rtBegin
  split
  · exact h.trans (Dev.tells_tiles _ _)
  · exact d.tells_refl

section
variable {d : Dev} {acc : Acc} {e : Fin 72} {g : Nat}

theorem Dev.complete_slot {k : Fin 32} (h : acc.who = .slot e k g) (st : Status) :
    Dev.tells e (fun x => x.accessEnds k.val g (BitVec.ofNat 4 (statusCode st)) none) d (d.complete (acc, none) st) := by
  simp only [Dev.complete, h]
  exact (d.tells_modEng _).trans (Dev.noteLatency_measures _ _ _).tells

theorem Dev.complete_latom (h : acc.who = .latom e g) (old : Option (BitVec 64)) (st : Status) :
    Dev.tells e (fun x => x.atomDone g st (old.getD 0)) d (d.complete (acc, old) st) := by
  simp only [Dev.complete, h]
  exact (d.tells_modEng _).trans (Dev.noteLatency_measures _ _ _).tells

end

/-! ### Entering the queues -/

/-- No read of the line waits: a full entry forwards to none (R105). -/
theorem Dev.forwardReady_of_unread {d : Dev} {p : Fin 4} {loc : Loc} (h : ∀ r ∈ (d.ports[p]).rdq, r.loc ≠ loc) :
    d.forwardReady p loc = d := by
  unfold Dev.forwardReady
  split
  · rfl
  next w _ =>
    have hnone : (d.ports[p]).rdq.filter (fun r => r.loc = loc && w.q < r.q && !r.specWait) = [] :=
      List.filter_eq_nil_iff.mpr fun r hr => by simp [h r hr]
    rw [hnone]
    split <;> rfl

section
variable {d : Dev} {p : Fin 4} {loc : Loc} (key : KeyUse) (data : Line) (poison : Bool) {acc : Acc} {e : Fin 72} {g : Nat}
  (hnone : (d.ports[p]).wrAt loc = none)
include hnone

/-- A slot's whole line opens its entry; a posted one has ended (R108). -/
theorem Dev.enterWrite_slot {k : Fin 32} (hwho : acc.who = .slot e k g) : ∃ comps F,
    (F = id ∨ F = fun x => x.accessEnds k.val g 0 none) ∧
    Dev.tells e F (d.modPort p (fun x => x.putWrite loc key fullMask data poison acc comps none))
      (d.enterWrite p loc key fullMask data poison acc) := by
  have hcarry : d.carryOf acc loc = none := by simp only [Dev.carryOf, hwho]
  unfold Dev.enterWrite
  simp only [hwho, hnone, hcarry, Who.told, if_true, Bool.false_or, Bool.not_false, Bool.and_true]
  cases acc.placed with
  | true => exact ⟨_, id, .inl rfl, (Dev.drainStart_drains _ p).tells⟩
  | false => exact ⟨_, _, .inr rfl, (Dev.complete_slot hwho .ok).trans (Dev.drainStart_drains _ p).tells⟩

/-- An LPOIS ends as its line opens its entry (Table 10.8). -/
theorem Dev.enterWrite_latom (hwho : acc.who = .latom e g) :
    Dev.tells e (fun x => x.atomDone g .ok 0) (d.modPort p (fun x => x.putWrite loc key fullMask data poison acc [] none))
      (d.enterWrite p loc key fullMask data poison acc) := by
  have hcarry : d.carryOf acc loc = none := by simp only [Dev.carryOf, hwho]
  unfold Dev.enterWrite
  simp only [hwho, hnone, hcarry, Who.told, if_true, Bool.false_or, Bool.not_true, Bool.and_false]
  exact (Dev.complete_latom hwho none .ok).trans (Dev.drainStart_drains _ p).tells

end

end Sys2Proof.Machine
end

section
/-! SUPPORT. Atomics on a line (R100, R107), and the access that its port takes as it is issued (R130). -/

namespace Sys2Proof.Machine

/-! ### Atomics on a line (R100, R107) -/

theorem atomApply_eq {op : BitVec 2} (hop : op ≠ 0) (w : BitVec 3) (c v : BitVec 64) (l : Line) :
    atomApply op w c v l = (lineWord l w.toNat, (atomNew op (lineWord l w.toNat) c v).map (putLineWord l w.toNat)) := by
  have hcases : op = 1 ∨ op = 2 ∨ op = 3 := by
    revert op
    decide
  obtain rfl | rfl | rfl := hcases
  · rfl
  · rfl
  · simp only [atomApply, atomNew]
    congr 1
    simp

/-- An atomic that stores has an OP that R100 gives. -/
theorem op_ne_zero_of_atomNew {op : BitVec 2} {o c v n : BitVec 64} (h : atomNew op o c v = some n) : op ≠ 0 := by
  rintro rfl
  simp [atomNew] at h

theorem Dev.writeEnd_tells {e : Fin 72} (d : Dev) (rid : Nat) (bad : Bool) : Dev.tells e id d (d.writeEnd rid bad) := d.tells_modTxn rfl

theorem Dev.atomAnswer_latom {acc : Acc} {e : Fin 72} {g : Nat} (hwho : acc.who = .latom e g) (d : Dev) (old : BitVec 64) :
    Dev.tells e (fun x => x.atomDone g .ok old) d (d.atomAnswer acc .ok old) :=
  Dev.complete_latom hwho (some old) .ok

section
variable {d : Dev} {p : Fin 4} {loc : Loc} (key : KeyUse) {acc : Acc} {e : Fin 72} {g : Nat} (hwho : acc.who = .latom e g)
  {op : BitVec 2} (hop : op ≠ 0) {w : BitVec 3} {c v : BitVec 64} {l : Line}
include hwho hop

/-- A CAS that differs writes nothing, and is answered. -/
theorem Dev.atomOn_keeps (hnew : atomNew op (lineWord l w.toNat) c v = none) :
    Dev.tells e (fun x => x.atomDone g .ok (lineWord l w.toNat)) d (d.atomOn p loc key acc op w c v none (some l)) := by
  have happly := atomApply_eq hop w c v l
  rw [hnew] at happly
  simp only [Dev.atomOn, overLine, happly, Option.map_none]
  exact (Dev.atomAnswer_latom hwho d _).trans (Dev.writeEnd_tells _ _ _)

/-- The new line enters the queue; the atomic is answered, or its answer waits for the pins (R108). -/
theorem Dev.atomOn_stores {n : BitVec 64} (hnew : atomNew op (lineWord l w.toNat) c v = some n) :
    Dev.tells e (if acc.placed then id else fun x => x.atomDone g .ok (lineWord l w.toNat))
      (d.modPort p (fun x => x.putWrite loc key fullMask (putLineWord l w.toNat n) false acc
        (if acc.placed then [(acc, some (lineWord l w.toNat))] else []) none))
      (d.atomOn p loc key acc op w c v none (some l)) := by
  have happly := atomApply_eq hop w c v l
  rw [hnew] at happly
  simp only [Dev.atomOn, overLine, happly, Option.map_some, hwho, Option.isSome_none]
  cases acc.placed with
  | true => exact (Dev.drainStart_drains _ p).tells
  | false => exact (Dev.atomAnswer_latom hwho _ _).trans (Dev.drainStart_drains _ p).tells

end

/-! ### An access that its port takes at once (R130) -/

/-- Nothing keeps an access of note `n` to `loc` from the queues: its port runs and has an entry of each kind, and no read of
the line waits. -/
structure Dev.freeAt (d : Dev) (loc : Loc) (n : BitVec 4) : Prop where
  calm : d.calm
  ingress : d.ingress (locPort loc) = true
  rd : d.rdFree (locPort loc) n = true
  wr : d.wrFree (locPort loc) n = true
  unlocked : (d.ports[locPort loc]).locked loc = false
  unread : ∀ r ∈ (d.ports[locPort loc]).rdq, r.loc ≠ loc
  unfenced : d.subFenced (locSub loc) = false
  unfilled : d.fillHolds (locSub loc) = false

theorem Dev.takes.freeAt {d : Dev} {loc : Loc} {n : BitVec 4} (h : d.takes loc n) :
    d.freeAt loc n ∧ (d.ports[locPort loc]).wrAt loc = none := by
  obtain ⟨hcalm, hin, hrd, hwr, hlock, hat, hread, hfence, hfill⟩ := h
  exact ⟨⟨hcalm, hin, hrd, hwr, hlock, hread, hfence, hfill⟩, hat⟩

theorem Dev.takesAtEntry.freeAt {d : Dev} {loc : Loc} {n : BitVec 4} {q : WrEnt} (h : d.takesAtEntry loc n q) :
    d.freeAt loc n ∧ (d.ports[locPort loc]).wrAt loc = some q := by
  obtain ⟨hcalm, hin, hwr, hrd, hlock, hat, hread, hfence, hfill⟩ := h
  exact ⟨⟨hcalm, hin, hrd, hwr, hlock, hread, hfence, hfill⟩, hat⟩

theorem Dev.freeAt.numbered {d : Dev} {loc : Loc} {n : BitVec 4} (h : d.freeAt loc n) (engs : Vector Engine 72) (k : Nat) :
    (d.numbered engs k).freeAt loc n where
  calm := h.calm
  ingress := (d.numbered_ingress engs k _).trans h.ingress
  rd := (d.numbered_rdFree engs k _ n).trans h.rd
  wr := (d.numbered_wrFree engs k _ n).trans h.wr
  unlocked := h.unlocked
  unread := h.unread
  unfenced := h.unfenced
  unfilled := h.unfilled

theorem Dev.sr_of_ingress {d : Dev} {p : Fin 4} (h : d.ingress p = true) : (d.ports[p]).sr = .run := by
  rw [Dev.ingress, Bool.and_eq_true, Bool.and_eq_true, decide_eq_true_eq] at h
  exact h.1.2

/-- An access of an engine, as it is held: accepted, and no message. -/
structure Held.ofEngine (h : Held) (n : BitVec 4) : Prop where
  vc : h.vc = .q
  decided : h.decided = none
  accepted : h.accepted = true
  msg : h.msg = false
  outer : h.isInner = false
  hub : h.isHub = false
  note : h.r.note = n

theorem Dev.unhold_hold {d : Dev} {h : Held} (hheld : d.txn.held = []) (hmsg : h.msg = false) : (d.hold h).unhold h = d := by
  have htxn : ({ d.txn with held := dropFirst (· = h) (insertHeld h d.txn.held) } : Txn) = d.txn := by
    rw [hheld, insertHeld, dropFirst_singleton, ← hheld]
  unfold Dev.unhold Dev.rxDrop
  rw [hmsg]
  exact congrArg (fun x => ({ d with txn := x } : Dev)) htxn

theorem Dev.hold_heldLoc (d : Dev) (h k : Held) : (d.hold h).heldLoc k = d.heldLoc k := by
  unfold Dev.heldLoc
  rfl

section
variable {d : Dev} {h : Held} {loc : Loc} {n : BitVec 4} (hfree : d.freeAt loc n) (heng : h.ofEngine n) (hloc : d.heldLoc h = some loc)
include hfree heng hloc

/-- The one access held is taken. -/
theorem Dev.admitList_hold {d1 : Dev} (hadm : d.admitOne h (locPort loc) loc = some d1) :
    Dev.admitList (d.hold h).txn.held [] [] (d.hold h) = d1.rtBegin (locPort loc) n := by
  have hheld : (d.hold h).txn.held = [h] := by
    show insertHeld h d.txn.held = [h]
    rw [hfree.calm.1]
    rfl
  have hloc' : (d.hold h).heldLoc h = some loc := (d.hold_heldLoc h h).trans hloc
  have hlock : ((d.hold h).ports[locPort loc]).locked loc = false := hfree.unlocked
  have hfence : (d.hold h).subFenced (locSub loc) = false := hfree.unfenced
  have hfill : (d.hold h).fillHolds (locSub loc) = false := hfree.unfilled
  have hlets : (d.hold h).lets (locPort loc) h = true := by
    have hin : (d.hold h).ingress (locPort loc) = true := hfree.ingress
    simp [Dev.lets, heng.outer, hin]
  have hun : (d.hold h).unhold h = d := Dev.unhold_hold hfree.calm.1 heng.msg
  rw [hheld, Dev.admitList]
  simp only [heng.vc, heng.decided, heng.accepted, hloc', hlock, hfence, hfill, hlets, hun, hadm, heng.note, List.any_nil,
    List.contains_nil, Bool.or_false, Bool.and_false, Bool.not_true, Bool.false_and, ne_eq, not_true_eq_false,
    decide_false, Option.isSome_none, Bool.false_eq_true, if_false, Dev.admitList]

/-- What is held enters the queues, and nothing else moves. -/
theorem Dev.enterQueues_hold {d1 : Dev} (hadm : d.admitOne h (locPort loc) loc = some d1) (hcalm : d1.calm) :
    (d.hold h).enterQueues = d1.rtBegin (locPort loc) n := by
  have hafter : (d1.rtBegin (locPort loc) n).calm := (Dev.rtBegin_tells (e := 0) d1 _ n).calm hcalm
  have hround : (d1.rtBegin (locPort loc) n).jobsEnd.tierAdvance = d1.rtBegin (locPort loc) n := by
    have h1 := Dev.settleN_of_calm 1 hafter
    rw [Dev.settleN, Dev.settleN, hafter.1, Dev.admitList] at h1
    exact h1
  rw [Dev.enterQueues, Dev.settleN, Dev.admitList_hold hfree heng hloc hadm, hround]
  exact Dev.settleN_of_calm 3 hafter

end

end Sys2Proof.Machine
end

section
/-! SUPPORT. What an access does as its port takes it (R105 to R107), and an engine's access as it is issued (R253). -/

namespace Sys2Proof.Machine

/-! ### What an access does as its port takes it (R105 to R107) -/

section
variable {d : Dev} {h : Held} {p : Fin 4} {loc : Loc}

theorem heldKey_of_fixed (fixed : Option (Loc × KeyUse)) (k : KeyUse) : (match fixed with
    | some (_, k) => k
    | none => k) = match fixed with
    | some x => x.2
    | none => k := by
  cases fixed <;> rfl

/-- A read of a line without an entry is queued. -/
theorem Dev.admitOne_rd (hop : h.op = .rd) (hat : (d.ports[p]).wrAt loc = none) (hrd : d.rdFree p h.r.note = true) :
    ∃ ov, d.admitOne h p loc = some (d.modPort p (fun x => x.putRead loc (d.heldKey h) .rd (d.accOf h) ov false)) := by
  unfold Dev.admitOne
  extract_lets key n acc at? ov wr
  have hkey : key = d.heldKey h := heldKey_of_fixed _ _
  have hat' : at? = none := hat
  have hneeds : Op.rd.needsWr none = false := rfl
  simp only [hop, hat', hkey, n, hrd, hneeds, Bool.not_true, Bool.and_false, Bool.false_and, Bool.or_false,
    Bool.false_eq_true, if_false]
  exact ⟨ov, rfl⟩

/-- A whole line, or poison, opens an entry. -/
theorem Dev.admitOne_wr {e : Fin 72} {l : Line} {poison : Bool} (hop : h.op = .wr l ∧ poison = false ∨ h.op = .pois ∧ l = 0 ∧ poison = true)
    (hat : (d.ports[p]).wrAt loc = none) (hwr : d.wrFree p h.r.note = true) : ∃ d1, d.admitOne h p loc = some d1 ∧
      Dev.tells e id ((d.enterWrite p loc (d.heldKey h) fullMask l poison (d.accOf h)).forwardReady p loc) d1 := by
  have hwait : (d.ports[p]).readsWait loc = false := by
    unfold Port.readsWait
    rw [hat]
  have htells : ∀ (y : Dev) (c : Bool) (m : LineAddr) (o : Option Line), Dev.tells e id y (if c then y.pmtWrote m o else y) := by
    intro y c m o
    cases c with
    | true => exact y.pmtWrote_tells m o
    | false => exact y.tells_refl
  unfold Dev.admitOne
  extract_lets key n acc at? ov wr
  have hkey : key = d.heldKey h := heldKey_of_fixed _ _
  have hat' : at? = none := hat
  obtain ⟨hop, rfl⟩ | ⟨hop, rfl, rfl⟩ := hop
  · have hneeds : (Op.wr l).needsRd none = false := rfl
    simp only [hop, hat', hkey, n, hwr, wr, hwait, hneeds, Bool.not_true, Bool.and_false, Bool.false_and,
      Bool.or_false, Bool.false_eq_true, if_false]
    exact ⟨_, rfl, htells _ _ _ _⟩
  · have hneeds : Op.pois.needsRd none = false := rfl
    simp only [hop, hat', hkey, n, hwr, wr, hwait, hneeds, Bool.not_true, Bool.and_false, Bool.false_and,
      Bool.or_false, Bool.false_eq_true, if_false, if_true]
    exact ⟨_, rfl, htells _ _ _ _⟩

section
variable {op : BitVec 2} {w : BitVec 3} {c v : BitVec 64} (hop : h.op = .atom op w c v)
include hop

/-- An atomic on a full entry is done at once. -/
theorem Dev.admitOne_atomEntry {q : WrEnt} (hat : (d.ports[p]).wrAt loc = some q) (hmask : q.mask = fullMask)
    (hpoison : q.poison = false) (hov : h.byMedia = true → d.overlay (d.heldKey h).media = none) :
    d.admitOne h p loc = some (d.atomOn p loc q.key (d.accOf h) op w c v none (some q.data)) := by
  have hfull : q.full = true := decide_eq_true hmask
  have hfwd : q.forward.data = some q.data := by
    unfold WrEnt.forward
    rw [hpoison]
    rfl
  unfold Dev.admitOne
  extract_lets key n acc at? ov wr
  have hkey : key = d.heldKey h := heldKey_of_fixed _ _
  have hat' : at? = some q := hat
  have hnone : ov = none := by
    unfold ov
    rw [hkey]
    split
    next hm => exact hov hm
    next => rfl
  have hrd : (Op.atom op w c v).needsRd (some q) = false := by
    show (!(some q).any WrEnt.full) = false
    rw [Option.any_some, hfull, Bool.not_true]
  have hwr : (Op.atom op w c v).needsWr (some q) = false := rfl
  simp only [hop, hat', hfull, hfwd, hnone, hrd, hwr, Bool.false_and, Bool.or_false, Bool.false_eq_true, if_false, if_true]
  rfl

/-- An atomic on a line without an entry locks it and reads it. -/
theorem Dev.admitOne_atomRead (hat : (d.ports[p]).wrAt loc = none) (hrd : d.rdFree p h.r.note = true)
    (hwr : d.wrFree p h.r.note = true) : ∃ ov, d.admitOne h p loc = some ((d.modPort p (fun x =>
      { x with locks := x.locks ++ [loc] }.putRead loc (d.heldKey h) (.atom op w c v) (d.accOf h) ov false)).drainStart p) := by
  unfold Dev.admitOne
  extract_lets key n acc at? ov wr
  have hkey : key = d.heldKey h := heldKey_of_fixed _ _
  have hat' : at? = none := hat
  simp only [hop, hat', hkey, n, hrd, hwr, Bool.not_true, Bool.and_false, Bool.or_false, Bool.false_eq_true, if_false]
  exact ⟨ov, rfl⟩

end

end

/-! ### An engine's access (R253, R259, R260) -/

/-- An access of an engine's slot, or of its LATOM or LPOIS. -/
def Who.byEngine : Who → Bool
  | .slot .. => true
  | .latom .. => true
  | _ => false

section
variable (d : Dev) (e : Fin 72) (t : Target) (op : Op) (who : Who)

theorem Dev.engHeld_op : (d.engHeld e t op who).op = op := by
  cases t <;> rfl

theorem Dev.engHeld_who : (d.engHeld e t op who).who = who := by
  cases t <;> rfl

theorem Dev.engHeld_master : (d.engHeld e t op who).master = masterEng e := by
  cases t <;> rfl

theorem Dev.engHeld_ofEngine (hwho : who.byEngine = true) : (d.engHeld e t op who).ofEngine (d.engNote e) := by
  have houter : (d.engHeld e t op who).isInner = false ∧ (d.engHeld e t op who).isHub = false := by
    unfold Held.isInner Held.isHub
    rw [Dev.engHeld_who]
    revert hwho
    cases who <;> simp [Who.byEngine]
  cases t <;> exact ⟨rfl, rfl, rfl, rfl, houter.1, houter.2, rfl⟩

end

/-- The device that takes the access of engine `e`, which `f` leaves waiting. -/
def Dev.issues (d : Dev) (e : Fin 72) (f : Engine → Engine) : Dev := d.numbered (d.modEng e f).engs (d.txn.nextRid + 1)

section
variable (d : Dev) (e : Fin 72) (f : Engine → Engine)

theorem Dev.issues_eng : (d.issues e f).engs[e] = f d.engs[e] := Dev.modEng_engs_same d e f

theorem Dev.issues_ports : (d.issues e f).ports = d.ports := rfl

theorem Dev.issues_heldKey (h : Held) : (d.issues e f).heldKey h = d.heldKey h := by
  have hepoch : ∀ r u, (d.issues e f).epochAt r u = d.epochAt r u := fun _ _ => rfl
  have hcfg : (d.issues e f).cfg = d.cfg := rfl
  simp only [Dev.heldKey, Dev.directKey, Dev.keyUse, hepoch, hcfg]

theorem Dev.issues_overlay (m : LineAddr) : (d.issues e f).overlay m = d.overlay m := rfl

theorem Dev.issues_notePlaced (n : BitVec 4) : (d.issues e f).notePlaced n = d.notePlaced n := rfl

theorem Dev.freeAt.issues {d : Dev} {loc : Loc} {n : BitVec 4} (h : d.freeAt loc n) (e : Fin 72) (f : Engine → Engine) :
    (d.issues e f).freeAt loc n := h.numbered _ _

end

section
variable {d : Dev} {e : Fin 72} {f : Engine → Engine} (hf : ∀ x, (f x).inv = x.inv ∧ (f x).fromE = x.fromE)
include hf

theorem Dev.modEng_engNote : (d.modEng e f).engNote e = d.engNote e := by
  obtain ⟨hinv, hfrom⟩ := hf d.engs[e]
  unfold Dev.engNote
  rw [Dev.modEng_engs_same, hinv, hfrom]
  rfl

theorem Dev.modEng_engHeld (t : Target) (op : Op) (who : Who) : (d.modEng e f).engHeld e t op who = d.engHeld e t op who := by
  unfold Dev.engHeld
  rw [Dev.modEng_engNote hf]
  rfl

/-- An access that its port takes at once is taken as it is issued. -/
theorem Dev.engIssue_of_free {t : Target} {op : Op} {who : Who} {loc : Loc} {d1 : Dev} (hwho : who.byEngine = true)
    (hloc : d.heldLoc (d.engHeld e t op who) = some loc) (hlost : d.engLost (d.engHeld e t op who) = false)
    (hfree : d.freeAt loc (d.engNote e))
    (hadm : (d.issues e f).admitOne (d.engHeld e t op who) (locPort loc) loc = some d1)
    (hcalm : d1.calm) : (d.modEng e f).engIssue e t op who = d1.rtBegin (locPort loc) (d.engNote e) := by
  have hheldLoc : (d.modEng e f).heldLoc (d.engHeld e t op who) = some loc :=
    (d.numbered_heldLoc (d.modEng e f).engs d.txn.nextRid _).trans hloc
  have hlost' : (d.modEng e f).engLost (d.engHeld e t op who) = false := by
    have hbank : ∀ l, (d.modEng e f).bankLost l = d.bankLost l := fun l => by simp only [Dev.bankLost, Dev.modEng_reg]
    rw [← hlost]
    simp only [Dev.engLost, hheldLoc, hloc, Option.any_some, hbank]
  have harrive : (d.modEng e f).arrive (locPort loc) = d.modEng e f := Dev.arrive_of_run (Dev.sr_of_ingress hfree.ingress)
  unfold Dev.engIssue
  extract_lets h y
  have hh : h = d.engHeld e t op who := Dev.modEng_engHeld hf t op who
  have hy : y = d.modEng e f := by
    unfold y
    rw [hh, hheldLoc]
    exact harrive
  rw [hh, hlost', if_neg Bool.false_ne_true, hy]
  exact Dev.enterQueues_hold (hfree.issues e f) (d.engHeld_ofEngine e t op who hwho)
    ((d.numbered_heldLoc _ _ _).trans hloc) hadm hcalm

end

end Sys2Proof.Machine
end

section
/-! SUPPORT. What an engine's access leaves in the queues of its port, and what it tells the engine (R105, R107, R259, R260). -/

namespace Sys2Proof.Machine

/-! ### What an engine's access queues (R105, R107, R259, R260) -/

theorem Port.putRead_rdq (x : Port) (loc : Loc) (key : KeyUse) (op : RdOp) (acc : Acc) (ov : Option (BitVec 64 × Line)) (spec : Bool) :
    ∃ r : RdEnt, (x.putRead loc key op acc ov spec).rdq = x.rdq ++ [r] ∧ r.loc = loc ∧ r.key = key ∧ r.op = op ∧ r.acc = acc :=
  ⟨_, rfl, rfl, rfl, rfl, rfl⟩

theorem Dev.drains.engs {p : Fin 4} {x y : Dev} (h : Dev.drains p x y) : y.engs = x.engs := by
  obtain ⟨_, _, rfl⟩ := h
  rfl

section
variable {d : Dev} {h : Held} {loc : Loc} {n : BitVec 4} (hfree : d.freeAt loc n) (heng : h.ofEngine n)
include hfree heng

/-- A read: one read entry. -/
theorem Dev.freeAt.admits_rd (hop : h.op = .rd) (hat : (d.ports[locPort loc]).wrAt loc = none) : ∃ (d1 : Dev) (r : RdEnt),
    d.admitOne h (locPort loc) loc = some d1 ∧ d1.calm ∧ d1.engs = d.engs ∧
    (d1.ports[locPort loc]).rdq = (d.ports[locPort loc]).rdq ++ [r] ∧ (d1.ports[locPort loc]).wrq = (d.ports[locPort loc]).wrq ∧
    r.loc = loc ∧ r.key = d.heldKey h ∧ r.op = .rd ∧ r.acc = d.accOf h := by
  obtain ⟨ov, hadm⟩ := Dev.admitOne_rd hop hat (heng.note ▸ hfree.rd)
  obtain ⟨r, hr, hof⟩ := (d.ports[locPort loc]).putRead_rdq loc (d.heldKey h) .rd (d.accOf h) ov false
  refine ⟨_, r, hadm, hfree.calm, rfl, ?_, ?_, hof⟩
  · rw [Dev.modPort_ports_same, hr]
  · rw [Dev.modPort_ports_same]
    rfl

/-- A whole line, or poison: its write entry. -/
theorem Dev.freeAt.admits_wr {e : Fin 72} {F : Engine → Engine} {l : Line} {poison : Bool} {comps : List (Acc × Option (BitVec 64))}
    (hop : h.op = .wr l ∧ poison = false ∨ h.op = .pois ∧ l = 0 ∧ poison = true) (hat : (d.ports[locPort loc]).wrAt loc = none)
    (hent : Dev.tells e F
      (d.modPort (locPort loc) (fun x => x.putWrite loc (d.heldKey h) fullMask l poison (d.accOf h) comps none))
      (d.enterWrite (locPort loc) loc (d.heldKey h) fullMask l poison (d.accOf h))) : ∃ (d1 : Dev) (w : WrEnt),
    d.admitOne h (locPort loc) loc = some d1 ∧ d1.calm ∧ d1.engs[e] = F d.engs[e] ∧
    (d1.ports[locPort loc]).wrAt loc = some w ∧ (d1.ports[locPort loc]).rdq = (d.ports[locPort loc]).rdq ∧
    w.key = d.heldKey h ∧ w.data = l ∧ w.mask = fullMask ∧ w.poison = poison ∧ w.master = h.master := by
  obtain ⟨d1, hadm, htells⟩ := Dev.admitOne_wr (e := e) hop hat (heng.note ▸ hfree.wr)
  have hport := Dev.modPort_ports_same d (locPort loc) (fun x => x.putWrite loc (d.heldKey h) fullMask l poison (d.accOf h) comps none)
  obtain ⟨w, hw, hkey, hdata, hmask, hpoison, hmaster, -⟩ :=
    Port.putWrite_opens (key := d.heldKey h) (data := l) (poison := poison) (acc := d.accOf h) (comps := comps) hat fullMask none
  have hread : ((d.enterWrite (locPort loc) loc (d.heldKey h) fullMask l poison (d.accOf h)).ports[locPort loc]).rdq =
      (d.ports[locPort loc]).rdq := by
    rw [hent.rdq, hport, Port.putWrite_rdq]
  rw [Dev.forwardReady_of_unread (by rw [hread]; exact hfree.unread)] at htells
  have hall := hent.trans htells
  refine ⟨d1, w, hadm, hall.calm hfree.calm, hall.eng, ?_, ?_, hkey, hdata, hmask, hpoison, hmaster⟩
  · rw [hall.wrAt, hport, hw]
  · rw [hall.rdq, hport, Port.putWrite_rdq]

section
variable {op : BitVec 2} {w : BitVec 3} {c v : BitVec 64} (hop : h.op = .atom op w c v)
include hop

/-- An atomic on a line without an entry: the line's lock and one read entry. -/
theorem Dev.freeAt.admits_atomRead (hat : (d.ports[locPort loc]).wrAt loc = none) : ∃ (d1 : Dev) (r : RdEnt),
    d.admitOne h (locPort loc) loc = some d1 ∧ d1.calm ∧ d1.engs = d.engs ∧ (d1.ports[locPort loc]).locked loc = true ∧
    (d1.ports[locPort loc]).rdq = (d.ports[locPort loc]).rdq ++ [r] ∧
    r.loc = loc ∧ r.key = d.heldKey h ∧ r.op = .atom op w c v ∧ r.acc = d.accOf h := by
  obtain ⟨ov, hadm⟩ := Dev.admitOne_atomRead hop hat (heng.note ▸ hfree.rd) (heng.note ▸ hfree.wr)
  obtain ⟨r, hr, hof⟩ := { d.ports[locPort loc] with locks := (d.ports[locPort loc]).locks ++ [loc] }.putRead_rdq loc (d.heldKey h)
    (.atom op w c v) (d.accOf h) ov false
  have hdrain := Dev.drainStart_drains (d.modPort (locPort loc) (fun x => { x with locks := x.locks ++ [loc] }.putRead loc (d.heldKey h)
    (.atom op w c v) (d.accOf h) ov false)) (locPort loc)
  have hport := Dev.modPort_ports_same d (locPort loc) (fun x => { x with locks := x.locks ++ [loc] }.putRead loc (d.heldKey h)
    (.atom op w c v) (d.accOf h) ov false)
  refine ⟨_, r, hadm, (hdrain.tells (e := 0)).calm hfree.calm, hdrain.engs, ?_, ?_, hof⟩
  · rw [(hdrain.tells (e := 0)).locked, hport]
    simp [Port.putRead, Port.locked]
  · rw [(hdrain.tells (e := 0)).rdq, hport, hr]

omit heng in
/-- An atomic on a full entry that writes nothing: its answer. -/
theorem Dev.freeAt.admits_atomKeeps {e : Fin 72} {g : Nat} {q : WrEnt} (hop0 : op ≠ 0) (hwho : h.who = .latom e g)
    (hat : (d.ports[locPort loc]).wrAt loc = some q) (hmask : q.mask = fullMask) (hpoison : q.poison = false)
    (hov : h.byMedia = true → d.overlay (d.heldKey h).media = none) (hnew : atomNew op (lineWord q.data w.toNat) c v = none) :
    ∃ d1 : Dev, d.admitOne h (locPort loc) loc = some d1 ∧ d1.calm ∧
      d1.engs[e] = (d.engs[e]).atomDone g .ok (lineWord q.data w.toNat) ∧ (d1.ports[locPort loc]).wrAt loc = some q := by
  have htells := Dev.atomOn_keeps (d := d) (p := locPort loc) (loc := loc) q.key (acc := d.accOf h) hwho hop0 hnew
  exact ⟨_, Dev.admitOne_atomEntry hop hat hmask hpoison hov, htells.calm hfree.calm, htells.eng, (htells.wrAt _ _).trans hat⟩

/-- An atomic on a full entry that stores: the entry's new line, and the answer, or that it waits for the pins. -/
theorem Dev.freeAt.admits_atomStores {e : Fin 72} {g : Nat} {q : WrEnt} {new : BitVec 64} (hwho : h.who = .latom e g)
    (hat : (d.ports[locPort loc]).wrAt loc = some q) (hmask : q.mask = fullMask) (hpoison : q.poison = false)
    (hov : h.byMedia = true → d.overlay (d.heldKey h).media = none) (hnew : atomNew op (lineWord q.data w.toNat) c v = some new) :
    ∃ (d1 : Dev) (q' : WrEnt), d.admitOne h (locPort loc) loc = some d1 ∧ d1.calm ∧
      d1.engs[e] = (if d.notePlaced n then id else fun x : Engine => x.atomDone g .ok (lineWord q.data w.toNat)) d.engs[e] ∧
      (d1.ports[locPort loc]).wrAt loc = some q' ∧ q'.mask = fullMask ∧ q'.poison = false ∧
      q'.data = putLineWord q.data w.toNat new ∧
      (d.notePlaced n = true → (d.accOf h, some (lineWord q.data w.toNat)) ∈ q'.comps) := by
  have hplaced : (d.accOf h).placed = d.notePlaced n := congrArg d.notePlaced heng.note
  have htells := Dev.atomOn_stores (d := d) (p := locPort loc) (loc := loc) q.key (acc := d.accOf h) hwho (op_ne_zero_of_atomNew hnew) hnew
  rw [hplaced] at htells
  obtain ⟨q', hq', hdata', hmask', hpoison', hcomps'⟩ := Port.putWrite_merges (key := q.key) (data := putLineWord q.data w.toNat new)
    (poison := false) (acc := d.accOf h) (comps := if d.notePlaced n then [(d.accOf h, some (lineWord q.data w.toNat))] else []) hat none
  refine ⟨_, q', Dev.admitOne_atomEntry hop hat hmask hpoison hov, htells.calm hfree.calm, htells.eng, ?_, hmask', hpoison', hdata',
    fun hp => ?_⟩
  · rw [htells.wrAt, Dev.modPort_ports_same, hq']
  · rw [hcomps', if_pos hp]
    exact List.mem_append_right _ List.mem_cons_self

end

end

end Sys2Proof.Machine
end

section
/-! SUPPORT. The instructions that issue an access of a line: LGET, LPUT and LPOIS (R253, R254, R259, Table 10.8). -/

namespace Sys2Proof.Machine

/-! ### Instructions that an engine executes -/

theorem State.engineRuns_of_executes {s : State} {e : Fin 72} {i : Instr} (h : s.executes e i)
    (o : Host.Outcome State Fault Refusal) : s.engineRuns e i o = o := by
  obtain ⟨hlive, hruns, hfetch⟩ := h
  simp [State.engineRuns, hlive, hruns, hfetch]

theorem State.executes.running {s : State} {e : Fin 72} {i : Instr} (h : s.executes e i) : (s.dev.engs[e]).run = .running := by
  obtain ⟨-, hruns, -⟩ := h
  rw [Dev.engRuns, Bool.and_eq_true, Bool.and_eq_true, decide_eq_true_eq] at hruns
  exact hruns.1.1

/-- An instruction that the engine executes leaves the device `d`. -/
theorem State.exec_of_executes {s : State} {e : Fin 72} {i : Instr} {d : Dev} (h : s.executes e i)
    (hexec : exec i s = s.engineRuns e i (devNext s d)) : exec i s = .next { s with dev := d } :=
  (hexec.trans (State.engineRuns_of_executes h _)).trans (devNext_of_live _ h.1)

/-- The engine once it has issued an access of its slot (R259). -/
def Engine.issueSlot (k : Fin 32) (x : Engine) : Engine := (x.setBusy k.val true).next

theorem Engine.issueSlot_isBusy (k : Fin 32) (x : Engine) : (x.issueSlot k).isBusy k.val = true := by
  show (putBit x.busy k.val true).getLsbD k.val = true
  rw [putBit_getLsbD, if_pos rfl, decide_eq_true k.isLt]
  rfl

/-- The engine once it waits for its access (R260). -/
def Engine.waitOn (w : Wait) (x : Engine) : Engine := { x with run := .waiting, wait := w }

/-! ### LGET, LPUT and LPOIS (R253, R254, R259, Table 10.8) -/

section
variable {s : State} {e : Fin 72} {ra : Fin 16} {k : Fin 32} {t : Target} {loc : Loc} (hissues : s.dev.engIssues e = true)
include hissues

section
variable (hbusy : (s.dev.engs[e]).isBusy k.val = false)
include hbusy

theorem Dev.lineAccess_issues {write : Bool} (hwin : s.dev.winTarget e ((s.dev.engs[e]).w ra) write false = some t) :
    s.dev.lineAccess e ra k write = (s.dev.modEng e (Engine.issueSlot k)).engIssue e t
      (if write then .wr ((s.dev.engs[e]).slot k.val) else .rd) (.slot e k (s.dev.engs[e]).gen) := by
  simp only [Dev.lineAccess, hissues, hbusy, hwin]
  rfl

theorem Dev.lineAccess_traps {write : Bool} (hwin : s.dev.winTarget e ((s.dev.engs[e]).w ra) write false = none) :
    s.dev.lineAccess e ra k write = s.dev.trap e 2 := by
  simp only [Dev.lineAccess, hissues, hbusy, hwin]
  rfl

/-- LGET: one read entry is queued, while the slot is busy (R105, R259). -/
theorem lget_queues (hx : s.executes e (.lget e ra k)) (hwin : s.dev.winTarget e ((s.dev.engs[e]).w ra) false false = some t)
    {h : Held} (hh : h = s.dev.engHeld e t .rd (.slot e k (s.dev.engs[e]).gen)) (hloc : s.dev.heldLoc h = some loc)
    (hlost : s.dev.engLost h = false) (htakes : s.dev.takes loc (s.dev.engNote e)) :
    ∃ (d : Dev) (r : RdEnt), exec (.lget e ra k) s = .next { s with dev := d } ∧
      (d.engs[e]).isBusy k.val = true ∧ (d.engs[e]).pc = (s.dev.engs[e]).pc + 1 ∧
      (d.ports[locPort loc]).rdq = (s.dev.ports[locPort loc]).rdq ++ [r] ∧ r.loc = loc ∧ r.key = s.dev.heldKey h ∧
      r.op = .rd ∧ r.acc.who = h.who ∧ r.acc.note = s.dev.engNote e ∧ r.acc.master = masterEng e ∧
      (d.ports[locPort loc]).wrq = (s.dev.ports[locPort loc]).wrq := by
  obtain ⟨hfree, hat⟩ := htakes.freeAt
  have heng : h.ofEngine (s.dev.engNote e) := hh ▸ s.dev.engHeld_ofEngine e t .rd _ rfl
  have hop : h.op = .rd := hh ▸ s.dev.engHeld_op e t .rd _
  have hmaster : h.master = masterEng e := hh ▸ s.dev.engHeld_master e t .rd _
  obtain ⟨d1, r, hadm, hcalm, hengs, hrdq, hwrq, hrloc, hkey, hrop, hacc⟩ :=
    (hfree.issues e (Engine.issueSlot k)).admits_rd heng hop hat
  have hissue : s.dev.lineAccess e ra k false = d1.rtBegin (locPort loc) (s.dev.engNote e) := by
    rw [Dev.lineAccess_issues hissues hbusy hwin, if_neg Bool.false_ne_true]
    subst hh
    exact Dev.engIssue_of_free (f := Engine.issueSlot k) (fun _ => ⟨rfl, rfl⟩) rfl hloc hlost hfree hadm hcalm
  have htells := Dev.rtBegin_tells (e := e) d1 (locPort loc) (s.dev.engNote e)
  have heng1 : (d1.rtBegin (locPort loc) (s.dev.engNote e)).engs[e] = (s.dev.engs[e]).issueSlot k := by
    rw [htells.eng, hengs, id, Dev.issues_eng]
  refine ⟨_, r, (State.exec_of_executes hx rfl).trans (congrArg _ (congrArg _ hissue)), ?_, ?_, ?_, hrloc, ?_, hrop, ?_, ?_, ?_, ?_⟩
  · rw [heng1, Engine.issueSlot_isBusy]
  · rw [heng1]
    rfl
  · rw [htells.rdq, hrdq, Dev.issues_ports]
  · rw [hkey, Dev.issues_heldKey]
  · rw [hacc]
    rfl
  · rw [hacc]
    exact heng.note
  · rw [hacc]
    exact hmaster
  · rw [htells.wrq, hwrq, Dev.issues_ports]

/-- LPUT: the slot's line stands in a write entry, while the slot is busy (R105, R259). -/
theorem lput_queues (hx : s.executes e (.lput e ra k)) (hwin : s.dev.winTarget e ((s.dev.engs[e]).w ra) true false = some t)
    {h : Held} (hh : h = s.dev.engHeld e t (.wr ((s.dev.engs[e]).slot k.val)) (.slot e k (s.dev.engs[e]).gen))
    (hloc : s.dev.heldLoc h = some loc) (htakes : s.dev.takes loc (s.dev.engNote e)) :
    ∃ (d : Dev) (w : WrEnt), exec (.lput e ra k) s = .next { s with dev := d } ∧ (d.engs[e]).isBusy k.val = true ∧
      (d.engs[e]).pc = (s.dev.engs[e]).pc + 1 ∧ (d.ports[locPort loc]).wrAt loc = some w ∧ w.key = s.dev.heldKey h ∧
      w.data = (s.dev.engs[e]).slot k.val ∧ w.mask = fullMask ∧ w.poison = false ∧ w.master = masterEng e ∧
      (d.ports[locPort loc]).rdq = (s.dev.ports[locPort loc]).rdq := by
  obtain ⟨hfree, hat⟩ := htakes.freeAt
  have heng : h.ofEngine (s.dev.engNote e) := hh ▸ s.dev.engHeld_ofEngine e t _ _ rfl
  have hop : h.op = .wr ((s.dev.engs[e]).slot k.val) := hh ▸ s.dev.engHeld_op e t _ _
  have hwho : h.who = .slot e k (s.dev.engs[e]).gen := hh ▸ s.dev.engHeld_who e t _ _
  have hmaster : h.master = masterEng e := hh ▸ s.dev.engHeld_master e t _ _
  have hlost : s.dev.engLost h = false := by
    rw [Dev.engLost, hop]
    rfl
  obtain ⟨comps, F, hF, hent⟩ := Dev.enterWrite_slot (d := s.dev.issues e (Engine.issueSlot k)) (p := locPort loc)
    ((s.dev.issues e (Engine.issueSlot k)).heldKey h) ((s.dev.engs[e]).slot k.val) false
    (acc := (s.dev.issues e (Engine.issueSlot k)).accOf h) hat hwho
  obtain ⟨d1, w, hadm, hcalm, heng1, hw, hrdq, hkey, hdata, hmask, hpoison, hm⟩ :=
    (hfree.issues e (Engine.issueSlot k)).admits_wr heng (.inl ⟨hop, rfl⟩) hat hent
  have hissue : s.dev.lineAccess e ra k true = d1.rtBegin (locPort loc) (s.dev.engNote e) := by
    rw [Dev.lineAccess_issues hissues hbusy hwin, if_pos rfl]
    subst hh
    exact Dev.engIssue_of_free (f := Engine.issueSlot k) (fun _ => ⟨rfl, rfl⟩) rfl hloc hlost hfree hadm hcalm
  have htells := Dev.rtBegin_tells (e := e) d1 (locPort loc) (s.dev.engNote e)
  obtain ⟨ended, hend⟩ : ∃ ended, (d1.rtBegin (locPort loc) (s.dev.engNote e)).engs[e] =
      { (s.dev.engs[e]).issueSlot k with ended := ended } := by
    rw [htells.eng, heng1, id, Dev.issues_eng]
    obtain rfl | rfl := hF
    · exact ⟨_, rfl⟩
    · exact ⟨_, Engine.accessEnds_of_running (x := (s.dev.engs[e]).issueSlot k) k.val 0 none hx.running⟩
  refine ⟨_, w, (State.exec_of_executes hx rfl).trans (congrArg _ (congrArg _ hissue)), ?_, ?_, ?_, ?_, hdata, hmask, hpoison, ?_, ?_⟩
  · rw [hend]
    exact Engine.issueSlot_isBusy k _
  · rw [hend]
    rfl
  · rw [htells.wrAt, hw]
  · rw [hkey, Dev.issues_heldKey]
  · rw [hm, hmaster]
  · rw [htells.rdq, hrdq, Dev.issues_ports]

end

/-- LPOIS: the line is poison in a write entry, and rd holds STATUS OK (Table 10.8). -/
theorem lpois_queues {rd : Fin 16} (hx : s.executes e (.lpois e rd ra))
    (hwin : s.dev.winTarget e ((s.dev.engs[e]).w ra) true true = some t)
    {h : Held} (hh : h = s.dev.engHeld e t .pois (.latom e (s.dev.engs[e]).gen))
    (hloc : s.dev.heldLoc h = some loc) (htakes : s.dev.takes loc (s.dev.engNote e)) :
    ∃ (d : Dev) (w : WrEnt), exec (.lpois e rd ra) s = .next { s with dev := d } ∧
      (s.dev.engs[e]).writes d.engs[e] rd 0 ∧ (d.engs[e]).pc = (s.dev.engs[e]).pc + 1 ∧ (d.engs[e]).run = .running ∧
      (d.ports[locPort loc]).wrAt loc = some w ∧ w.poison = true ∧ w.mask = fullMask ∧ w.key = s.dev.heldKey h := by
  obtain ⟨hfree, hat⟩ := htakes.freeAt
  have heng : h.ofEngine (s.dev.engNote e) := hh ▸ s.dev.engHeld_ofEngine e t _ _ rfl
  have hop : h.op = .pois := hh ▸ s.dev.engHeld_op e t _ _
  have hwho : h.who = .latom e (s.dev.engs[e]).gen := hh ▸ s.dev.engHeld_who e t _ _
  have hlost : s.dev.engLost h = false := by
    rw [Dev.engLost, hop]
    rfl
  have hent := Dev.enterWrite_latom (d := s.dev.issues e (Engine.waitOn (.pois rd))) (p := locPort loc)
    ((s.dev.issues e (Engine.waitOn (.pois rd))).heldKey h) 0 true
    (acc := (s.dev.issues e (Engine.waitOn (.pois rd))).accOf h) hat hwho
  obtain ⟨d1, w, hadm, hcalm, heng1, hw, -, hkey, -, hmask, hpoison, -⟩ :=
    (hfree.issues e (Engine.waitOn (.pois rd))).admits_wr heng (.inr ⟨hop, rfl, rfl⟩) hat hent
  have hexec : exec (.lpois e rd ra) s = .next { s with dev := d1.rtBegin (locPort loc) (s.dev.engNote e) } := by
    refine State.exec_of_executes hx (congrArg (fun y => s.engineRuns e _ (devNext s y)) ?_)
    simp only [hissues, hwin, Bool.not_true, Bool.false_eq_true, if_false]
    subst hh
    exact Dev.engIssue_of_free (f := Engine.waitOn (.pois rd)) (fun _ => ⟨rfl, rfl⟩) rfl hloc hlost hfree hadm hcalm
  have htells := Dev.rtBegin_tells (e := e) d1 (locPort loc) (s.dev.engNote e)
  obtain ⟨hwrites, hpc, hrun⟩ := Engine.atomDone_pois (x := (s.dev.engs[e]).waitOn (.pois rd)) 0 rfl rfl
  have hend : (d1.rtBegin (locPort loc) (s.dev.engNote e)).engs[e] =
      ((s.dev.engs[e]).waitOn (.pois rd)).atomDone ((s.dev.engs[e]).waitOn (.pois rd)).gen .ok 0 := by
    rw [htells.eng, heng1, id, Dev.issues_eng]
    rfl
  rw [← hend] at hwrites hpc hrun
  refine ⟨_, w, hexec, hwrites, hpc, hrun, ?_, hpoison, hmask, ?_⟩
  · rw [htells.wrAt, hw]
  · rw [hkey, Dev.issues_heldKey]

end

/-- Settles O20, from what the port of each access queues, and what the engine is told. -/
theorem engineLineAccesses : Obligations.EngineLineAccesses :=
  ⟨fun _ _ _ _ _ _ hx hissues hbusy hwin hloc hlost htakes => lget_queues hissues hbusy hx hwin rfl hloc hlost htakes,
    fun _ _ _ _ _ _ hx hissues hbusy hwin hloc htakes => lput_queues hissues hbusy hx hwin rfl hloc htakes,
    fun _ _ _ _ _ _ hx hissues hwin hloc htakes => lpois_queues hissues hx hwin rfl hloc htakes,
    fun s _ _ _ hx hissues hbusy hwin =>
      (State.exec_of_executes hx rfl).trans (congrArg (fun y => Host.Outcome.next { s with dev := y }) (Dev.lineAccess_traps hissues hbusy hwin))⟩

end Sys2Proof.Machine
end

section
/-! SUPPORT. The atomics of engines (R100, R107, R108, R260): as they are issued, and as their line is captured. -/

namespace Sys2Proof.Machine

/-! ### LATOM (R260) -/

/-- The atomic that engine `e` asks for: its word, COMPARE and VALUE are registers of the engine. -/
def Dev.latomHeld (d : Dev) (e : Fin 72) (t : Target) (op : BitVec 2) (rd ra rb : Fin 16) : Held :=
  d.engHeld e t (.atom op (((d.engs[e]).w ra).extractLsb' 3 3) ((d.engs[e]).pair rd) ((d.engs[e]).pair rb)) (.latom e (d.engs[e]).gen)

section
variable (d : Dev) (e : Fin 72) (t : Target) (op : BitVec 2) (rd ra rb : Fin 16)

theorem Dev.latomHeld_ofEngine : (d.latomHeld e t op rd ra rb).ofEngine (d.engNote e) := d.engHeld_ofEngine e t _ _ rfl

theorem Dev.latomHeld_op : (d.latomHeld e t op rd ra rb).op =
    .atom op (((d.engs[e]).w ra).extractLsb' 3 3) ((d.engs[e]).pair rd) ((d.engs[e]).pair rb) := d.engHeld_op e t _ _

theorem Dev.latomHeld_who : (d.latomHeld e t op rd ra rb).who = .latom e (d.engs[e]).gen := d.engHeld_who e t _ _

end

section
variable {s : State} {i : Instr} {op : BitVec 2} {e : Fin 72} {rd ra rb : Fin 16} (hi : latomOf i = some (op, e, rd, ra, rb))
include hi

/-- An LATOM has an OP that R100 gives. -/
theorem exec_latom : exec i s = s.engineRuns e i (devNext s (s.dev.latom e rd ra rb op)) ∧ op ≠ 0 := by
  cases i <;> cases hi
  case latomAdd => exact ⟨rfl, by decide⟩
  case latomSwap => exact ⟨rfl, by decide⟩
  case latomCas => exact ⟨rfl, by decide⟩

variable (hx : s.executes e i) (hissues : s.dev.engIssues e = true) (hrd : rd.val % 2 = 0) (hrb : rb.val % 2 = 0)
  {t : Target} {loc : Loc} (hwin : s.dev.winTarget e ((s.dev.engs[e]).w ra) true false = some t)
  (hloc : s.dev.heldLoc (s.dev.latomHeld e t op rd ra rb) = some loc)
  (hlost : s.dev.engLost (s.dev.latomHeld e t op rd ra rb) = false)
include hx hissues hrd hrb hwin hloc hlost

/-- An atomic that its port takes at once is taken as it is issued. -/
theorem latom_taken {d1 : Dev} (hfree : s.dev.freeAt loc (s.dev.engNote e))
    (hadm : (s.dev.issues e (Engine.waitOn (.atom rd))).admitOne (s.dev.latomHeld e t op rd ra rb) (locPort loc) loc = some d1)
    (hcalm : d1.calm) : exec i s = .next { s with dev := d1.rtBegin (locPort loc) (s.dev.engNote e) } := by
  refine State.exec_of_executes hx ((exec_latom hi).1.trans (congrArg (fun y => s.engineRuns e i (devNext s y)) ?_))
  have heven : (oddReg rd || oddReg rb) = false := by simp [oddReg, hrd, hrb]
  obtain ⟨-, hruns, -⟩ := hx
  simp only [Dev.latom, hissues, Dev.instrTrap, hruns, heven, hwin, Bool.not_true, Bool.false_eq_true, if_false]
  exact Dev.engIssue_of_free (f := Engine.waitOn (.atom rd)) (fun _ => ⟨rfl, rfl⟩) rfl hloc hlost hfree hadm hcalm

/-- On a line without an entry the engine waits, the line is locked, and its read is queued. -/
theorem latom_reads (htakes : s.dev.takes loc (s.dev.engNote e)) : ∃ (d : Dev) (r : RdEnt), exec i s = .next { s with dev := d } ∧
    d.engs[e] = { s.dev.engs[e] with run := .waiting, wait := .atom rd } ∧ (d.ports[locPort loc]).locked loc = true ∧
    (d.ports[locPort loc]).rdq = (s.dev.ports[locPort loc]).rdq ++ [r] ∧ r.loc = loc ∧
    r.acc.who = (s.dev.latomHeld e t op rd ra rb).who ∧
    r.op = .atom op (((s.dev.engs[e]).w ra).extractLsb' 3 3) ((s.dev.engs[e]).pair rd) ((s.dev.engs[e]).pair rb) := by
  obtain ⟨hfree, hat⟩ := htakes.freeAt
  obtain ⟨d1, r, hadm, hcalm, hengs, hlock, hrdq, hrloc, -, hrop, hacc⟩ :=
    (hfree.issues e (Engine.waitOn (.atom rd))).admits_atomRead (s.dev.latomHeld_ofEngine e t op rd ra rb)
      (s.dev.latomHeld_op e t op rd ra rb) hat
  have hexec := latom_taken hi hx hissues hrd hrb hwin hloc hlost hfree hadm hcalm
  have htells := Dev.rtBegin_tells (e := e) d1 (locPort loc) (s.dev.engNote e)
  refine ⟨_, r, hexec, ?_, ?_, ?_, hrloc, ?_, hrop⟩
  · rw [htells.eng, hengs, id, Dev.issues_eng]
    rfl
  · rw [htells.locked, hlock]
  · rw [htells.rdq, hrdq, Dev.issues_ports]
  · rw [hacc]
    rfl

/-- On a full entry the atomic is done at once, but the result of a store waits for the pins at a placed note (R108). -/
theorem latom_onEntry {q : WrEnt} (htakes : s.dev.takesAtEntry loc (s.dev.engNote e) q) (hmask : q.mask = fullMask)
    (hpoison : q.poison = false) (hov : (s.dev.latomHeld e t op rd ra rb).byMedia = true →
      s.dev.overlay (s.dev.heldKey (s.dev.latomHeld e t op rd ra rb)).media = none)
    {o : BitVec 64} (ho : o = lineWord q.data (BitVec.toNat (((s.dev.engs[e]).w ra).extractLsb' 3 3)))
    {new : Option (BitVec 64)} (hnew : new = atomNew op o ((s.dev.engs[e]).pair rd) ((s.dev.engs[e]).pair rb)) :
    ∃ (d : Dev) (q' : WrEnt), exec i s = .next { s with dev := d } ∧ (d.ports[locPort loc]).wrAt loc = some q' ∧
      q'.mask = fullMask ∧ q'.poison = false ∧
      (∀ v, new = some v → q'.data = putLineWord q.data (BitVec.toNat (((s.dev.engs[e]).w ra).extractLsb' 3 3)) v) ∧
      (new = none → q'.data = q.data) ∧
      (s.dev.notePlaced (s.dev.engNote e) = false ∨ new = none →
        (s.dev.engs[e]).writesPair d.engs[e] rd o ∧ (d.engs[e]).pc = (s.dev.engs[e]).pc + 1 ∧ (d.engs[e]).run = .running) ∧
      (s.dev.notePlaced (s.dev.engNote e) = true → new.isSome = true →
        d.engs[e] = { s.dev.engs[e] with run := .waiting, wait := .atom rd } ∧
        ∃ c ∈ q'.comps, c.1.who = (s.dev.latomHeld e t op rd ra rb).who ∧ c.2 = some o) := by
  obtain ⟨hfree, hat⟩ := htakes.freeAt
  have heng := s.dev.latomHeld_ofEngine e t op rd ra rb
  have hop := s.dev.latomHeld_op e t op rd ra rb
  have hwho := s.dev.latomHeld_who e t op rd ra rb
  have hov' : (s.dev.latomHeld e t op rd ra rb).byMedia = true → (s.dev.issues e (Engine.waitOn (.atom rd))).overlay
      ((s.dev.issues e (Engine.waitOn (.atom rd))).heldKey (s.dev.latomHeld e t op rd ra rb)).media = none := by
    rw [Dev.issues_heldKey, Dev.issues_overlay]
    exact hov
  have hfree' := hfree.issues e (Engine.waitOn (.atom rd))
  obtain ⟨hpair, hpc, hrun⟩ := Engine.atomDone_atom (x := (s.dev.engs[e]).waitOn (.atom rd)) (rd := rd) o rfl rfl hrd
  rw [ho] at hnew
  cases hn : new with
  | none =>
    obtain ⟨d1, hadm, hcalm, heng1, hq⟩ := hfree'.admits_atomKeeps hop (exec_latom (s := s) hi).2 hwho hat hmask hpoison hov'
      (hnew.symm.trans hn)
    have hexec := latom_taken hi hx hissues hrd hrb hwin hloc hlost hfree hadm hcalm
    have htells := Dev.rtBegin_tells (e := e) d1 (locPort loc) (s.dev.engNote e)
    have hend : (d1.rtBegin (locPort loc) (s.dev.engNote e)).engs[e] =
        ((s.dev.engs[e]).waitOn (.atom rd)).atomDone ((s.dev.engs[e]).waitOn (.atom rd)).gen .ok o := by
      rw [htells.eng, heng1, id, Dev.issues_eng, ho]
      rfl
    rw [← hend] at hpair hpc hrun
    exact ⟨_, q, hexec, (htells.wrAt _ _).trans hq, hmask, hpoison, fun v hv => absurd hv (by simp), fun _ => rfl,
      fun _ => ⟨hpair, hpc, hrun⟩, fun _ h => absurd h (by simp)⟩
  | some v =>
    obtain ⟨d1, q', hadm, hcalm, heng1, hq, hmask', hpoison', hdata, hcomps⟩ :=
      hfree'.admits_atomStores heng hop hwho hat hmask hpoison hov' (hnew.symm.trans hn)
    have hexec := latom_taken hi hx hissues hrd hrb hwin hloc hlost hfree hadm hcalm
    have htells := Dev.rtBegin_tells (e := e) d1 (locPort loc) (s.dev.engNote e)
    rw [Dev.issues_notePlaced, Dev.issues_eng] at heng1
    refine ⟨_, q', hexec, (htells.wrAt _ _).trans hq, hmask', hpoison', fun u hu => ?_, fun h => absurd h (by simp), fun h => ?_,
      fun hp _ => ⟨?_, _, hcomps hp, ?_, ?_⟩⟩
    · rw [hdata, Option.some.inj hu]
    · have hplaced : s.dev.notePlaced (s.dev.engNote e) = false := h.resolve_right (by simp)
      have hend : (d1.rtBegin (locPort loc) (s.dev.engNote e)).engs[e] =
          ((s.dev.engs[e]).waitOn (.atom rd)).atomDone ((s.dev.engs[e]).waitOn (.atom rd)).gen .ok o := by
        rw [htells.eng, heng1, id, hplaced, if_neg Bool.false_ne_true, ho]
        rfl
      rw [← hend] at hpair hpc hrun
      exact ⟨hpair, hpc, hrun⟩
    · rw [htells.eng, heng1, if_pos hp]
      rfl
    · rfl
    · rw [ho]

end

/-! ### The capture of an atomic's line (R107, R201) -/

/-- The capture of a clean burst gives the result, and opens the entry of the new line. -/
theorem capture_atomStores {s : State} {b : Fin 8} {burst : List (BitVec 64)} {f : Inflight} {rest : List Inflight} {e : Fin 72}
    {rd : Fin 16} {op : BitVec 2} {w : BitVec 3} {c v n : BitVec 64} (hlive : s.dev.live = true) (hcalm : s.dev.calm)
    (hoff : s.dev.injectOff b) (hfly : (s.dev.phys[b]).inflight = f :: rest) (hdrop : f.drop = false) (hop : f.op = .atom op w c v)
    (hov : f.ov = none) (hwho : f.acc.who = .latom e (s.dev.engs[e]).gen) (hplaced : f.acc.placed = false)
    (hrun : (s.dev.engs[e]).run = .waiting) (hwait : (s.dev.engs[e]).wait = .atom rd) (heven : rd.val % 2 = 0)
    (hat : (s.dev.ports[locPort f.loc]).wrAt f.loc = none) (hport : locPort f.loc = subPort b)
    (hread : ∀ r ∈ (s.dev.ports[locPort f.loc]).rdq, r.loc ≠ f.loc)
    (hclean : (decodeLine burst f.loc f.spare f.erased noInj).outc = .clean)
    (hcount : (decodeLine burst f.loc f.spare f.erased noInj).counted = [])
    (hnew : atomNew op (lineWord (s.dev.burstLine f burst) w.toNat) c v = some n) :
    ∃ (d : Dev) (q : WrEnt), exec (.readDataCapture b burst) s = .next { s with dev := d } ∧
      (s.dev.engs[e]).writesPair d.engs[e] rd (lineWord (s.dev.burstLine f burst) w.toNat) ∧
      (d.engs[e]).pc = (s.dev.engs[e]).pc + 1 ∧ (d.engs[e]).run = .running ∧
      (d.ports[locPort f.loc]).wrAt f.loc = some q ∧ q.data = putLineWord (s.dev.burstLine f burst) w.toNat n ∧
      q.mask = fullMask ∧ q.poison = false ∧ q.key = f.key := by
  let d0 := s.dev.modPhy b (fun x => { x with inflight := rest })
  let d1 := d0.countCrypt b f.key.enc
  let d2 := d1.modPort (locPort f.loc) (fun x => x.unlock f.loc)
  let y := d2.atomOn (locPort f.loc) f.loc f.key f.acc op w c v none (some (s.dev.burstLine f burst))
  obtain ⟨extra, hdec⟩ := Dev.decodeRead_of_clean (d := d0) (b := b) (burst := burst) hoff hclean hcount
  obtain ⟨rf, hrf⟩ : ∃ rf, d1 = { d0 with rf := rf } := d0.countCrypt_eq b f.key.enc
  have hports : d1.ports = s.dev.ports := by rw [hrf]; rfl
  have hengs : d2.engs = s.dev.engs := by
    show d1.engs = s.dev.engs
    rw [hrf]
    rfl
  have hcalm2 : d2.calm := by
    show d1.calm
    rw [hrf]
    exact hcalm
  have hqueues : (d2.ports[locPort f.loc]).wrAt f.loc = none ∧
      (d2.ports[locPort f.loc]).rdq = (s.dev.ports[locPort f.loc]).rdq := by
    rw [Dev.modPort_ports_same, hports]
    exact ⟨hat, rfl⟩
  have htells := Dev.atomOn_stores (d := d2) (p := locPort f.loc) (loc := f.loc) f.key hwho (op_ne_zero_of_atomNew hnew) hnew
  simp only [hplaced, Bool.false_eq_true, if_false] at htells
  obtain ⟨q, hq, hkey, hdata, hmask, hpoison, -⟩ := Port.putWrite_opens (key := f.key)
    (data := putLineWord (s.dev.burstLine f burst) w.toNat n) (poison := false) (acc := f.acc) (comps := []) hqueues.1 fullMask none
  have hunread : ∀ r ∈ (y.ports[locPort f.loc]).rdq, r.loc ≠ f.loc := by
    rw [htells.rdq, Dev.modPort_ports_same, Port.putWrite_rdq, hqueues.2]
    exact hread
  have hcapture : s.dev.capture b burst = y := by
    simp only [Dev.capture, hfly, hdrop]
    rw [if_neg Bool.false_ne_true, hdec]
    simp only [Dev.useRead, hop, Dev.serveRead, hov, ← hport]
    exact (congrArg Dev.enterQueues (Dev.forwardReady_of_unread hunread)).trans (Dev.enterQueues_of_calm (htells.calm hcalm2))
  obtain ⟨hpair, hpc, hrun'⟩ := Engine.atomDone_atom (lineWord (s.dev.burstLine f burst) w.toNat) hrun hwait heven
  have hend : y.engs[e] = (s.dev.engs[e]).atomDone (s.dev.engs[e]).gen .ok (lineWord (s.dev.burstLine f burst) w.toNat) := by
    rw [htells.eng, Dev.modPort_engs, hengs]
  rw [← hend] at hpair hpc hrun'
  refine ⟨y, q, (congrArg (devNext s) hcapture).trans (devNext_of_live _ hlive), hpair, hpc, hrun', ?_, hdata, hmask, hpoison, hkey⟩
  rw [htells.wrAt, Dev.modPort_ports_same, hq]

/-- Settles O22, from the atomic that its port takes as it is issued, and the one whose line is captured. -/
theorem engineAtomics : Obligations.EngineAtomics := by
  refine ⟨fun s i op e rd ra rb t loc hi hx hissues hrd hrb hwin hloc hlost hov =>
    ⟨fun q htakes hmask hpoison => ?_, fun htakes => ?_⟩, ?_⟩
  · exact latom_onEntry hi hx hissues hrd hrb hwin hloc hlost htakes hmask hpoison hov rfl rfl
  · exact latom_reads hi hx hissues hrd hrb hwin hloc hlost htakes
  · intro s b burst f rest e rd op w c v n hlive hcalm hoff hfly hdrop hop hov hwho hplaced hrun hwait heven hat hport hread z hclean hcount l hnew
    exact capture_atomStores hlive hcalm hoff hfly hdrop hop hov hwho hplaced hrun hwait heven hat hport hread hclean hcount hnew

end Sys2Proof.Machine
end

section
/-! SUPPORT. What the commands of refresh and self-refresh touch (R52, R150 to R154, R174): the command bus, delays that land, banks
that close, and units due by force. -/

namespace Sys2Proof.Machine

/-! ### Lists of units -/

/-- What every application to an element of the list keeps, the whole list keeps. -/
theorem Dev.each_keeps_of_mem {α : Type} (P : Dev → Prop) (f : α → Dev → Dev) : ∀ {l : List α} (d : Dev),
    (∀ x ∈ l, ∀ y, P y → P (f x y)) → P d → P (Dev.each f l d)
  | [], _, _, hd => hd
  | x :: _, d, h, hd => Dev.each_keeps_of_mem P f (f x d) (fun y hy => h y (List.mem_cons_of_mem x hy)) (h x List.mem_cons_self d hd)

/-- What the application to one element of the list brings about, and the applications to all of them keep, holds after the whole
list. -/
theorem Dev.each_reaches {α : Type} {P Q : Dev → Prop} {f : α → Dev → Dev} {l : List α} {t : α} (ht : t ∈ l)
    (hP : ∀ x d, P d → P (f x d)) (hset : ∀ d, P d → Q (f t d)) (hQ : ∀ x d, Q d → Q (f x d)) {d : Dev} (hd : P d) :
    Q (Dev.each f l d) := by
  induction l generalizing d with
  | nil => cases ht
  | cons x r ih =>
    obtain rfl | hr := List.mem_cons.mp ht
    · exact Dev.each_keeps Q f hQ r _ (hset d hd)
    · exact ih hr (hP x d hd)

theorem tilePort_of_mem : ∀ (p : Fin 4), ∀ t ∈ portTiles p, tilePort t = p := by decide

theorem Dev.modTile_tiles (d : Dev) (t : Fin 16) (f : Tile → Tile) (u : Fin 16) :
    (d.modTile t f).tiles[u] = if u = t then f d.tiles[t] else d.tiles[u] := by
  split
  next h => rw [h, Dev.modTile_tiles_same]
  next h => exact Dev.modTile_tiles_ne _ _ _ h

/-- An update that leaves the tile as it is leaves the device. -/
theorem Dev.modTile_of_fixed {d : Dev} {t : Fin 16} {f : Tile → Tile} (h : f d.tiles[t] = d.tiles[t]) : d.modTile t f = d := by
  have hset : d.tiles.set t (f d.tiles[t]) = d.tiles := by
    rw [h]
    exact Vector.set_getElem_self _
  rw [Dev.modTile, hset]

theorem Dev.modTile_modTile (d : Dev) (t : Fin 16) (f g : Tile → Tile) :
    (d.modTile t f).modTile t g = d.modTile t (fun x => g (f x)) := by
  simp [Dev.modTile]

/-! ### The command bus (R174, R180) -/

theorem Dev.sameCycle.caOpen {x y : Dev} (h : x.sameCycle y) (b : Fin 8) : y.caOpen b = x.caOpen b := by
  obtain ⟨halert, hsent, hturn⟩ := h.ca b
  simp only [Dev.caOpen, halert, hsent, hturn, h.now]

section
variable (d : Dev) (b : Fin 8) (wait : Nat)

theorem Dev.issue_lastCmd (c : Cmd) : ((d.issue b wait c).phys[b]).lastCmd = some c := by
  rw [Dev.issue, Dev.issueAt, Dev.modPhy_phys_same]

/-- Commands sent on CA touch the subchannels alone. -/
theorem Dev.caSend_eq (cs : List Cmd) : d.caSend b wait cs = { d with phys := (d.caSend b wait cs).phys } := by
  have hphys : ∃ phys, d.caSend b wait cs = { d with phys := phys } := by
    unfold Dev.caSend
    split
    · refine Dev.each_keeps (fun y => ∃ phys, y = { d with phys := phys }) _ (fun c y hy => ?_) cs d ⟨d.phys, rfl⟩
      obtain ⟨_, rfl⟩ := hy
      exact ⟨_, rfl⟩
    · exact ⟨_, rfl⟩
  obtain ⟨_, he⟩ := hphys
  rw [he]

theorem Dev.caSend_sameCycle (cs : List Cmd) : d.sameCycle (d.caSend b wait cs) := by
  unfold Dev.caSend
  split
  · exact Dev.each_keeps d.sameCycle _ (fun c y hy => hy.trans (y.issueAt_sameCycle b c _)) cs d d.sameCycle_refl
  · exact d.sameCycle_modPhy b fun _ => ⟨rfl, rfl, rfl⟩

/-- Of commands that may leave, the last one is the subchannel's last. -/
theorem Dev.caSend_lastCmd {b : Fin 8} (hopen : d.caOpen b = true) (cs : List Cmd) (c : Cmd) :
    ((d.caSend b wait (cs ++ [c])).phys[b]).lastCmd = some c := by
  rw [Dev.caSend, if_pos hopen, Dev.each_append]
  exact Dev.issue_lastCmd _ _ _ _

end

/-- The last command that left on subchannel `b` is of kind `k`. -/
def Dev.lastKind (d : Dev) (b : Fin 8) (k : CmdKind) : Prop := ∃ c : Cmd, (d.phys[b]).lastCmd = some c ∧ c.kind = k

theorem Dev.lastKind_modPhy {d : Dev} {b : Fin 8} {k : CmdKind} (o : Fin 8) {f : Phy → Phy}
    (hf : (f d.phys[o]).lastCmd = (d.phys[o]).lastCmd ∨ ∃ c : Cmd, (f d.phys[o]).lastCmd = some c ∧ c.kind = k)
    (h : d.lastKind b k) : (d.modPhy o f).lastKind b k := by
  by_cases hb : b = o
  · subst hb
    rw [Dev.lastKind, Dev.modPhy_phys_same]
    obtain hsame | hnew := hf
    · rw [hsame]
      exact h
    · exact hnew
  · rw [Dev.lastKind, Dev.modPhy_phys_ne _ _ _ hb]
    exact h

section
variable (d : Dev) (t : Fin 16) (kind : CmdKind) (row wait : Nat)

theorem Dev.layerSend_eq : d.layerSend t kind row wait = { d with phys := (d.layerSend t kind row wait).phys } := d.caSend_eq _ _ _

theorem Dev.layerSend_tiles : (d.layerSend t kind row wait).tiles = d.tiles := by rw [Dev.layerSend_eq]

theorem Dev.layerSend_ports : (d.layerSend t kind row wait).ports = d.ports := by rw [Dev.layerSend_eq]

theorem Dev.layerSend_sameCycle : d.sameCycle (d.layerSend t kind row wait) := d.caSend_sameCycle _ _ _

/-- Further commands of a kind to any tile leave it the kind of the last command. -/
theorem Dev.layerSend_keeps_lastKind {b : Fin 8} (h : d.lastKind b kind) : (d.layerSend t kind row wait).lastKind b kind := by
  unfold Dev.layerSend Dev.caSend
  split
  · refine Dev.each_keeps_of_mem (Dev.lastKind · b kind) _ d (fun c hc y hy => ?_) h
    obtain ⟨cid, -, rfl⟩ := List.mem_map.mp hc
    exact Dev.lastKind_modPhy _ (.inr ⟨_, rfl, rfl⟩) hy
  · exact Dev.lastKind_modPhy _ (.inl rfl) h

/-- A present tile has layers. -/
theorem Dev.stack_pos {d : Dev} {t : Fin 16} (h : d.present t = true) : 0 < d.stack t := by
  rw [Dev.stack, if_pos h, codeOf]
  split
  next hcode =>
    have hmem := List.contains_iff_mem.mp hcode
    simp only [List.mem_cons, List.not_mem_nil, or_false] at hmem
    omega
  next =>
    generalize hi : Config.freeNat _ % ([1, 2, 4, 8] : List Nat).length = i
    have hlt : i < 4 := hi ▸ Nat.mod_lt _ (by decide)
    interval_cases i <;> decide

/-- Where commands may leave, the last to leave is the one to the highest layer. -/
theorem Dev.layerSend_lastCmd (hopen : d.caOpen (tileSub t) = true) (hpres : d.present t = true) :
    ((d.layerSend t kind row wait).phys[tileSub t]).lastCmd = some (layerCmd kind t row (d.stack t - 1)) := by
  obtain ⟨n, hn⟩ : ∃ n, d.stack t = n + 1 := Nat.exists_eq_succ_of_ne_zero (Dev.stack_pos hpres).ne'
  rw [Dev.layerSend, hn, List.range_succ, List.map_append, List.map_singleton, Nat.add_sub_cancel]
  exact Dev.caSend_lastCmd _ _ hopen _ _

end

/-! ### Delays that land with a refresh command or at the exit of self-refresh (R52) -/

/-- `y` is `x` but for the commit groups, their shadow and the registers that these cover. -/
def Dev.landsOnly (x y : Dev) : Prop :=
  (∃ rf shadow cg, y = { x with rf := rf, shadow := shadow, cg := cg }) ∧
    ∀ a, noCg a = true → a ≠ A.cgState 3 → y.reg a = x.reg a

theorem Dev.landsOnly_refl (d : Dev) : d.landsOnly d := ⟨⟨d.rf, d.shadow, d.cg, rfl⟩, fun _ _ _ => rfl⟩

theorem Dev.landsOnly.trans {x y z : Dev} (h : x.landsOnly y) (k : y.landsOnly z) : x.landsOnly z := by
  obtain ⟨⟨_, _, _, rfl⟩, hreg⟩ := h
  obtain ⟨⟨rf, shadow, cg, rfl⟩, kreg⟩ := k
  exact ⟨⟨rf, shadow, cg, rfl⟩, fun a ha hne => (kreg a ha hne).trans (hreg a ha hne)⟩

theorem Dev.cgLandSet_landsOnly (d : Dev) (i : Nat) : d.landsOnly (d.cgLandSet 3 i) := by
  unfold Dev.cgLandSet
  extract_lets x d1 d2 a
  have hload : d.landsOnly
      (Dev.each (fun (e : Nat × Word) y => y.setReg e.1 e.2) (d.shadow.filter (fun e => inGroup 3 i e.1)) d) := by
    refine Dev.each_keeps_of_mem d.landsOnly _ d
      (fun e he y hy => hy.trans ⟨⟨_, y.shadow, y.cg, rfl⟩, fun b hb _ => ?_⟩) d.landsOnly_refl
    have hin : inGroup 3 i e.1 = true := (List.mem_filter.mp he).2
    rw [Dev.reg_setReg, if_neg (ne_of_inGroup hin hb).symm]
  have h1 : d.landsOnly d1 := by
    unfold d1
    split
    · exact hload.trans ⟨⟨_, _, _, rfl⟩, fun _ _ _ => rfl⟩
    · exact d.landsOnly_refl
  have h2 : d1.landsOnly d2 := ⟨⟨d1.rf, d1.shadow, _, rfl⟩, fun _ _ _ => rfl⟩
  exact (h1.trans h2).trans ⟨⟨_, d2.shadow, d2.cg, rfl⟩, fun b _ hne => (Dev.reg_setFld _ _ _ _ _ _).trans (if_neg hne)⟩

theorem Dev.landsOnly.ports {x y : Dev} (h : x.landsOnly y) : y.ports = x.ports := by
  obtain ⟨⟨_, _, _, rfl⟩, -⟩ := h
  rfl

theorem Dev.landsOnly.tiles {x y : Dev} (h : x.landsOnly y) : y.tiles = x.tiles := by
  obtain ⟨⟨_, _, _, rfl⟩, -⟩ := h
  rfl

theorem Dev.delayLand_landsOnly (d : Dev) (t : Fin 16) : d.landsOnly (d.delayLand t) := by
  unfold Dev.delayLand
  split
  · exact d.landsOnly_refl
  · exact d.cgLandSet_landsOnly t.val

/-- Where no commit of the tile's delays waits, nothing lands. -/
theorem Dev.delayLand_of_none {d : Dev} {t : Fin 16} (h : (d.cg[grpNo 3]).waits t.val = 0) : d.delayLand t = d :=
  if_pos (by rw [h]; rfl)

/-! ### Banks that close (R151) -/

/-- No bank of tile `t` has a row open. -/
def Port.tileClosed (x : Port) (t : Fin 16) : Prop := ∀ e ∈ x.banks, e.1 / 256 = t.val % 4 → e.2.row = none

/-- A closed tile's banks have no row, those that are not listed among them. -/
theorem Port.tileClosed.row {x : Port} {t : Fin 16} (h : x.tileClosed t) {k : Nat} (hk : k / 256 = t.val % 4) :
    (sget Bank.closed x.banks k).row = none := by
  have hlist : ∀ l : List (Nat × Bank), (∀ e ∈ l, e.1 / 256 = t.val % 4 → e.2.row = none) →
      (sget Bank.closed l k).row = none := by
    intro l hl
    induction l with
    | nil => rfl
    | cons e r ih =>
      obtain ⟨a, b⟩ := e
      rw [sget]
      split
      next ha => exact hl (a, b) List.mem_cons_self (ha ▸ hk)
      next => exact ih fun e he => hl e (List.mem_cons_of_mem _ he)
  exact hlist x.banks h

/-- A tile with no row open is closed. -/
theorem Dev.tileClosed_of_not_rowsOpen {d : Dev} {t : Fin 16} (h : d.rowsOpen t = false) : (d.ports[tilePort t]).tileClosed t := by
  intro e he hk
  have hno := List.any_eq_false.mp h e he
  simpa [hk] using hno

section
variable (d : Dev) (t : Fin 16)

theorem Dev.closeTile_closes : ((d.closeTile t).ports[tilePort t]).tileClosed t := by
  rw [Dev.closeTile, Dev.modPort_ports_same]
  intro e he hk
  obtain ⟨b, -, rfl⟩ := List.mem_map.mp he
  split at hk
  next hb => rw [if_pos hb]
  next hb => exact absurd hk hb

/-- Closing any tile keeps a tile closed. -/
theorem Dev.closeTile_keeps_closed {p : Fin 4} {u : Fin 16} (h : (d.ports[p]).tileClosed u) :
    ((d.closeTile t).ports[p]).tileClosed u := by
  rw [Dev.closeTile, Dev.modPort_ports]
  split
  next hp =>
    subst hp
    intro e he hk
    obtain ⟨b, hb, rfl⟩ := List.mem_map.mp he
    split at hk
    next ht => rw [if_pos ht]
    next ht =>
      rw [if_neg ht]
      exact h b hb hk
  next => exact h

theorem Dev.prechargeTile_tiles : (d.prechargeTile t).tiles = d.tiles := d.layerSend_tiles t .preAll 0 0

theorem Dev.prechargeTile_closes : ((d.prechargeTile t).ports[tilePort t]).tileClosed t := Dev.closeTile_closes _ t

theorem Dev.prechargeTile_keeps_closed {p : Fin 4} {u : Fin 16} (h : (d.ports[p]).tileClosed u) :
    ((d.prechargeTile t).ports[p]).tileClosed u := by
  refine Dev.closeTile_keeps_closed _ t ?_
  rw [Dev.layerSend_ports]
  exact h

end

/-! ### Units due by force (R153, R154) -/

theorem Dev.latchForced_eq (d : Dev) (t : Fin 16) :
    d.latchForced t = d.modTile t (fun x => { x with forced := x.forced || d.levelReached t }) := by
  unfold Dev.latchForced
  split
  next h => simp only [h, Bool.or_true]
  next h => exact (Dev.modTile_of_fixed (by simp only [h, Bool.or_false])).symm

/-- An update of a tile leaves the level of a tile that owes as much as before. -/
theorem Dev.levelReached_modTile (d : Dev) (u : Fin 16) {f : Tile → Tile} (hf : ∀ x, (f x).owed = x.owed) (t : Fin 16) :
    (d.modTile u f).levelReached t = d.levelReached t := by
  have howed : ((d.modTile u f).tiles[t]).owed = (d.tiles[t]).owed := by
    rw [Dev.modTile_tiles]
    split
    next h => rw [hf, h]
    next => rfl
  simp only [Dev.levelReached, howed]
  rfl

end Sys2Proof.Machine
end

section
/-! SUPPORT. Refresh (R150 to R156, R158, R159): intervals, units, temperature polls, Geysers and penalties. -/

namespace Sys2Proof.Machine

/-! ### Penalties (R159) -/

theorem kvGet_kvDel_same {α : Type} (l : List (Nat × α)) (a : Nat) : kvGet (kvDel l a) a = none :=
  (kvGet_filter (fun k => decide (k ≠ a)) l a).trans (if_neg (by simp))

theorem kvGet_kvDel_ne {α : Type} (l : List (Nat × α)) {a k : Nat} (h : k ≠ a) : kvGet (kvDel l a) k = kvGet l k :=
  (kvGet_filter (fun k => decide (k ≠ a)) l k).trans (if_pos (by simp [h]))

theorem penaltyEnd_clears (s : State) (b : BankId) (hlive : s.dev.live = true) :
    ∃ d : Dev, exec (.penaltyEnd b) s = .next { s with dev := d } ∧ kvGet (d.tiles[b.tile]).pens (bankIdKey b) = none ∧
      ∀ k, k ≠ bankIdKey b → kvGet (d.tiles[b.tile]).pens k = kvGet (s.dev.tiles[b.tile]).pens k := by
  refine ⟨_, devNext_of_live _ hlive, ?_⟩
  rw [Dev.modTile_tiles_same]
  exact ⟨kvGet_kvDel_same _ _, fun k hk => kvGet_kvDel_ne _ hk⟩

/-! ### Intervals (R150) -/

section
variable {s : State} {t : Fin 16} (hlive : s.dev.live = true) (href : s.dev.refreshed t = true)
include hlive href

/-- An interval that may be owed is owed, and a unit that this makes due is due by force. -/
theorem refreshInterval_owes (hlt : (s.dev.tiles[t]).owed < 15) :
    ∃ d : Dev, exec (.refreshInterval t) s = .next { s with dev := d } ∧
      d = { s.dev with tiles := d.tiles } ∧ (∀ u : Fin 16, u ≠ t → d.tiles[u] = s.dev.tiles[u]) ∧
      d.tiles[t] = { s.dev.tiles[t] with
        owed := (s.dev.tiles[t]).owed + 1,
        forced := (s.dev.tiles[t]).forced || decide ((if (s.dev.ports[tilePort t]).rtBurst then s.dev.forceLevel t
          else s.dev.issueLevel t) ≤ (s.dev.tiles[t]).owed + 1) } := by
  have hinterval : s.dev.interval t = (s.dev.modTile t (fun x => { x with owed := x.owed + 1 })).latchForced t := by
    rw [Dev.interval, href, if_neg (by decide), if_pos hlt]
  refine ⟨_, devNext_of_live _ hlive, ?_⟩
  rw [hinterval, Dev.latchForced_eq, Dev.modTile_modTile]
  refine ⟨rfl, fun u hu => Dev.modTile_tiles_ne _ _ _ hu, ?_⟩
  have hmode : s.dev.refMode (tilePort t) ≠ 0 := by
    rw [Dev.refreshed, Bool.and_eq_true] at href
    exact of_decide_eq_true href.2
  have hlevel : (s.dev.modTile t (fun x => { x with owed := x.owed + 1 })).levelReached t =
      decide ((if (s.dev.ports[tilePort t]).rtBurst then s.dev.forceLevel t else s.dev.issueLevel t) ≤
        (s.dev.tiles[t]).owed + 1) := by
    rw [Dev.levelReached, Dev.modTile_tiles_same]
    exact (congrArg (· && _) (decide_eq_true hmode)).trans (Bool.true_and _)
  rw [Dev.modTile_tiles_same, hlevel]

/-- An interval more than can be owed is dropped and reported. -/
theorem refreshInterval_drops (hle : 15 ≤ (s.dev.tiles[t]).owed) : exec (.refreshInterval t) s =
    .next { s with dev := s.dev.fault (116 + (tilePort t).val) (owedReport t) } := by
  have hinterval : s.dev.interval t = s.dev.fault (116 + (tilePort t).val) (owedReport t) := by
    rw [Dev.interval, href, if_neg (by decide), if_neg (Nat.not_lt.mpr hle)]
  exact (devNext_of_live _ hlive).trans (by rw [hinterval])

end

/-! ### The start of a unit (R151, R154) -/

/-- The device once a unit of tile `t` is under way, before its first command. -/
def Dev.unitBegun (d : Dev) (t : Fin 16) : Dev :=
  d.modTile t (fun x => { x with refUnit := true, refNext := 0, forced := d.refForced t })

theorem Dev.unitBegun_refUnit (d : Dev) (t : Fin 16) : ((d.unitBegun t).tiles[t]).refUnit = true := by
  rw [Dev.unitBegun, Dev.modTile_tiles_same]

/-- The first commands of a unit that starts: in same-bank mode the first REFsb, otherwise the precharge of the tile. -/
def Dev.unitOpened (d : Dev) (t : Fin 16) : Dev :=
  if d.refMode (tilePort t) = 2 then (d.unitBegun t).unitIssue t
  else ((d.unitBegun t).prechargeTile t).modTile t (fun x => { x with holdUntil := d.now (tilePort t) + d.timing t 1 })

/-- A unit that starts does no more than send its first commands and count. -/
theorem Dev.unitStart_of_allowed {d : Dev} {t : Fin 16} (h : d.unitAllowed t = true) :
    (d.unitStart t).ports = (d.unitOpened t).ports ∧ (d.unitStart t).tiles = (d.unitOpened t).tiles := by
  have hstart : d.unitStart t = if d.refForced t && !(d.tiles[t]).geyser then (d.unitOpened t).bump (A.refCount (tilePort t).val) 12 12
      else d.unitOpened t := by
    rw [Dev.unitStart, h, if_neg (by decide)]
    rfl
  rw [hstart]
  split <;> exact ⟨rfl, rfl⟩

/-- What closes the banks of a REFsb (R151). -/
def Dev.closeSb (d : Dev) (t : Fin 16) : Dev :=
  Dev.each (fun g x => x.modBank (tilePort t) (d.sbKey t g) (fun b =>
    { b with row := none, due := false, tPre := some (d.now (tilePort t) + d.tNs t 0x0C - d.timing t 1), preQ := none })) (List.range 8) d

theorem Dev.closeSb_ports (d : Dev) (t : Fin 16) : ∃ ports, d.closeSb t = { d with ports := ports } := by
  refine Dev.each_keeps (fun y => ∃ ports, y = { d with ports := ports }) _ (fun g y hy => ?_) _ d ⟨d.ports, rfl⟩
  obtain ⟨_, rfl⟩ := hy
  exact ⟨_, rfl⟩

/-- The row of a bank after the banks of a list have closed. -/
theorem Dev.row_each_modBank (p : Fin 4) (key : Nat → Nat) {f : Bank → Bank} (hf : ∀ b, (f b).row = none) (l : List Nat) (d : Dev)
    (k : Nat) : (sget Bank.closed ((Dev.each (fun g x => x.modBank p (key g) f) l d).ports[p]).banks k).row =
      if k ∈ l.map key then none else (sget Bank.closed (d.ports[p]).banks k).row := by
  induction l generalizing d with
  | nil => rfl
  | cons g r ih =>
    have hbank : (sget Bank.closed ((d.modBank p (key g) f).ports[p]).banks k).row =
        if k = key g then none else (sget Bank.closed (d.ports[p]).banks k).row := by
      rw [Dev.modBank, Dev.modPort_ports_same]
      split
      next h => rw [h, sget_sset_same, hf]
      next h => rw [sget_sset_ne _ _ _ _ h]
    rw [Dev.each, ih, hbank, List.map_cons]
    by_cases hr : k ∈ r.map key
    · simp [hr]
    · simp [hr]

/-- A command of a unit closes no more than its banks, of the tile counts itself and holds it, and lets the tile's delays land. -/
theorem Dev.unitIssue_eq (d : Dev) (t : Fin 16) : ∃ (y : Dev) (n hold : Nat), d.unitIssue t = y.delayLand t ∧
    y.tiles = (d.modTile t (fun x => { x with refNext := n, holdUntil := hold })).tiles ∧ y.cg = d.cg ∧ y.rf = d.rf ∧
    (d.refMode (tilePort t) = 2 → y.ports = (d.closeSb t).ports) := by
  unfold Dev.unitIssue
  extract_lets p now k step c0 c d1 d2
  obtain ⟨ports, hports⟩ := d.closeSb_ports t
  have hd1 : d1 = d.closeSb t := rfl
  by_cases hmode : d.refMode p = 2
  · have hd2 : d2 = (d1.issue (tileSub t) 0 c).modTile t step := if_pos hmode
    rw [hd1] at hd2
    refine ⟨d2, k + 1, (d.tiles[t]).holdUntil, rfl, ?_, ?_, ?_, fun _ => by rw [hd2]; rfl⟩
    · rw [hd2, hports]
      rfl
    · rw [hd2, hports]
      rfl
    · rw [hd2, hports]
      rfl
  · have hd2 : d2 = (d.issue (tileSub t) 0 (layerCmd .refAb t 0 k)).modTile t (fun x =>
        { step x with holdUntil := now + d.tNs t (if k + 1 = d.stack t then 0x08 else 0x0A) }) := if_neg hmode
    rw [hd2]
    exact ⟨_, k + 1, _, rfl, rfl, rfl, rfl, fun h => absurd h hmode⟩

/-- In same-bank mode a unit's first REFsb takes bank 0 of each bank group of the first layer. -/
theorem Dev.sbKey_unitBegun (d : Dev) (t : Fin 16) (g : Nat) : (d.unitBegun t).sbKey t g = t.val % 4 * 256 + 4 * g := by
  have hnext : (d.unitBegun t).nextSb t = (0, 0) := by
    rw [Dev.nextSb, Dev.unitBegun, Dev.modTile_tiles_same]
    exact Prod.ext (Nat.zero_div _) (Nat.zero_mod _)
  rw [Dev.sbKey, hnext, bankKey]
  omega

theorem mem_firstSb_iff {t : Fin 16} {k : Nat} (hk : k / 256 = t.val % 4) :
    k ∈ (List.range 8).map (fun g => t.val % 4 * 256 + 4 * g) ↔ k % 256 / 32 = 0 ∧ k % 4 = 0 := by
  simp only [List.mem_map, List.mem_range]
  constructor
  · rintro ⟨g, hg, rfl⟩
    omega
  · rintro ⟨hlayer, hbank⟩
    exact ⟨k % 256 / 4, by omega, by omega⟩

/-- A unit that starts closes the tile in all-bank mode, and the banks of its first REFsb in same-bank mode. -/
theorem refreshUnit_starts (s : State) (t : Fin 16) (hlive : s.dev.live = true) (hallowed : s.dev.unitAllowed t = true) :
    ∃ d : Dev, exec (.refreshUnit t) s = .next { s with dev := d } ∧ (d.tiles[t]).refUnit = true ∧
      (s.dev.refMode (tilePort t) ≠ 2 →
        ∀ k, k / 256 = t.val % 4 → (sget Bank.closed (d.ports[tilePort t]).banks k).row = none) ∧
      (s.dev.refMode (tilePort t) = 2 → ∀ k, k / 256 = t.val % 4 →
        (sget Bank.closed (d.ports[tilePort t]).banks k).row =
          if k % 256 / 32 = 0 ∧ k % 4 = 0 then none else (sget Bank.closed (s.dev.ports[tilePort t]).banks k).row) := by
  obtain ⟨hports, htiles⟩ := Dev.unitStart_of_allowed hallowed
  refine ⟨_, devNext_of_live _ hlive, ?_⟩
  rw [hports, htiles]
  by_cases hmode : s.dev.refMode (tilePort t) = 2
  · have hopened : s.dev.unitOpened t = (s.dev.unitBegun t).unitIssue t := if_pos hmode
    obtain ⟨y, n, hold, hissue, hytiles, -, -, hclosed⟩ := (s.dev.unitBegun t).unitIssue_eq t
    have hland := y.delayLand_landsOnly t
    rw [hopened, hissue, hland.tiles, hland.ports, hytiles, hclosed hmode]
    refine ⟨?_, fun h => absurd hmode h, fun _ k hk => ?_⟩
    · rw [Dev.modTile_tiles_same]
      exact s.dev.unitBegun_refUnit t
    · rw [Dev.closeSb, Dev.row_each_modBank _ _ (fun _ => rfl), funext (s.dev.sbKey_unitBegun t)]
      simp only [mem_firstSb_iff hk]
      rfl
  · have hopened : s.dev.unitOpened t = ((s.dev.unitBegun t).prechargeTile t).modTile t (fun x =>
        { x with holdUntil := s.dev.now (tilePort t) + s.dev.timing t 1 }) := if_neg hmode
    rw [hopened]
    refine ⟨?_, fun _ k hk => ((s.dev.unitBegun t).prechargeTile_closes t).row hk, fun h => absurd h hmode⟩
    rw [Dev.modTile_tiles_same, Dev.prechargeTile_tiles]
    exact s.dev.unitBegun_refUnit t

/-! ### The end of a unit (R151) -/

/-- `y` is `x` but for what commands of a unit of tile `t` bring about: of the tile only the unit's own course differs, of the
registers only those that hold delays, and none where no delays wait. -/
structure Dev.unitRuns (t : Fin 16) (x y : Dev) : Prop where
  others : ∀ u : Fin 16, u ≠ t → y.tiles[u] = x.tiles[u]
  tile : ∃ n hold, y.tiles[t] = { x.tiles[t] with refNext := n, holdUntil := hold }
  regs : ∀ a, noCg a = true → a ≠ A.cgState 3 → y.reg a = x.reg a
  none : (x.cg[grpNo 3]).waits t.val = 0 → y.cg = x.cg ∧ y.rf = x.rf

theorem Dev.unitRuns_refl (t : Fin 16) (d : Dev) : Dev.unitRuns t d d :=
  ⟨fun _ _ => rfl, ⟨_, _, rfl⟩, fun _ _ _ => rfl, fun _ => ⟨rfl, rfl⟩⟩

theorem Dev.unitRuns.trans {t : Fin 16} {x y z : Dev} (h : Dev.unitRuns t x y) (k : Dev.unitRuns t y z) : Dev.unitRuns t x z where
  others u hu := (k.others u hu).trans (h.others u hu)
  tile := by
    obtain ⟨_, _, hx⟩ := h.tile
    obtain ⟨n, hold, hy⟩ := k.tile
    exact ⟨n, hold, by rw [hy, hx]⟩
  regs a ha hne := (k.regs a ha hne).trans (h.regs a ha hne)
  none hw := by
    obtain ⟨hcg, hrf⟩ := h.none hw
    obtain ⟨kcg, krf⟩ := k.none (by rw [hcg]; exact hw)
    exact ⟨kcg.trans hcg, krf.trans hrf⟩

theorem Dev.unitIssue_unitRuns (d : Dev) (t : Fin 16) : Dev.unitRuns t d (d.unitIssue t) := by
  obtain ⟨y, n, hold, hissue, hytiles, hcg, hrf, -⟩ := d.unitIssue_eq t
  have hland := y.delayLand_landsOnly t
  have htiles : (y.delayLand t).tiles = (d.modTile t (fun x => { x with refNext := n, holdUntil := hold })).tiles :=
    hland.tiles.trans hytiles
  rw [hissue]
  refine ⟨fun u hu => ?_, ⟨n, hold, ?_⟩, fun a ha hne => ?_, fun hw => ?_⟩
  · rw [htiles, Dev.modTile_tiles_ne _ _ _ hu]
  · rw [htiles, Dev.modTile_tiles_same]
  · rw [hland.2 a ha hne, Dev.reg, hrf, Dev.reg]
  · rw [Dev.delayLand_of_none (by rw [hcg]; exact hw)]
    exact ⟨hcg, hrf⟩

theorem noCg_refCount : ∀ p : Fin 4, noCg (A.refCount p.val) = true ∧ A.refCount p.val ≠ A.cgState 3 := by decide

/-- The tile once a unit has settled one interval: its Geyser goes on while it owes more. -/
def Tile.unitSettled (x : Tile) : Tile :=
  { x with
    refUnit := false, forced := false, owed := x.owed - 1, settled := x.settled + 1,
    geyser := x.geyser && !x.geyserEnd && 1 < x.owed, geyserEnd := false }

theorem Dev.unitFinish_eq (d : Dev) (t : Fin 16) : d.unitFinish t =
    ((Dev.each (fun (_ : Nat) x => x.unitIssue t) (List.range (d.unitLeft t)) d).modTile t Tile.unitSettled).bump
      (A.refCount (tilePort t).val) 24 24 := rfl

/-- The last command of a unit settles one interval, is counted, and leaves every other tile. -/
theorem refreshUnitDone_settles (s : State) (t : Fin 16) (hlive : s.dev.live = true) (hunit : (s.dev.tiles[t]).refUnit = true)
    (hopen : s.dev.caOpen (tileSub t) = true) :
    ∃ d : Dev, exec (.refreshUnitDone t) s = .next { s with dev := d } ∧ (d.tiles[t]).refUnit = false ∧
      (d.tiles[t]).owed = (s.dev.tiles[t]).owed - 1 ∧ (d.tiles[t]).settled = (s.dev.tiles[t]).settled + 1 ∧
      d.fldR (A.refCount (tilePort t).val) 24 24 = min (s.dev.fldR (A.refCount (tilePort t).val) 24 24 + 1) (2 ^ 24 - 1) ∧
      ((s.dev.cg[grpNo 3]).waits t.val = 0 → s.dev.regsBut d [A.refCount (tilePort t).val]) ∧
      ∀ u : Fin 16, u ≠ t → d.tiles[u] = s.dev.tiles[u] := by
  have hdone : s.dev.unitDone t = (s.dev.unitFinish t).latchForced t := by
    rw [Dev.unitDone, hunit, hopen]
    rfl
  refine ⟨_, devNext_of_live _ hlive, ?_⟩
  rw [hdone, Dev.latchForced_eq, Dev.modTile_tiles_same, Dev.unitFinish_eq]
  generalize hx : Dev.each (fun (_ : Nat) x => x.unitIssue t) (List.range (s.dev.unitLeft t)) s.dev = x
  have hruns : Dev.unitRuns t s.dev x :=
    hx ▸ Dev.each_keeps (Dev.unitRuns t s.dev) _ (fun _ y hy => hy.trans (y.unitIssue_unitRuns t)) _ _ (Dev.unitRuns_refl t s.dev)
  obtain ⟨n, hold, htile⟩ := hruns.tile
  obtain ⟨hcg, hstate⟩ := noCg_refCount (tilePort t)
  rw [Dev.bump_tiles, Dev.modTile_tiles_same, htile]
  refine ⟨rfl, rfl, rfl, ?_, fun hw => ?_, fun u hu => ?_⟩
  · have hcount := (x.modTile t Tile.unitSettled).fldR_bump_same (A.refCount (tilePort t).val) 24 24 (by decide) (by decide)
    have hfld : x.fldR (A.refCount (tilePort t).val) 24 24 = s.dev.fldR (A.refCount (tilePort t).val) 24 24 :=
      congrArg (fld · 24 24) (hruns.regs _ hcg hstate)
    exact hcount.trans (congrArg (fun v => min (v + 1) (2 ^ 24 - 1)) hfld)
  · have hrf : s.dev.regsBut x [A.refCount (tilePort t).val] := fun a _ => by rw [Dev.reg, (hruns.none hw).2, Dev.reg]
    exact hrf.trans (Dev.bump_regsBut _ _ _ _)
  · rw [Dev.modTile_tiles_ne _ _ _ hu, Dev.bump_tiles, Dev.modTile_tiles_ne _ _ _ hu, hruns.others u hu]

/-- The trackers of a tile empty after each 8192 units settled (R158). -/
theorem trackerClear_clears (s : State) (t : Fin 16) (hlive : s.dev.live = true) (h : 8192 ≤ (s.dev.tiles[t]).settled) :
    exec (.trackerClear t) s = .next { s with dev := s.dev.modTile t (fun x => { x with settled := x.settled - 8192, trackers := [] }) } :=
  exec_of_devNext hlive (congrArg (devNext s) (if_neg (Nat.not_lt.mpr h)))

/-! ### Temperature polls (R152) -/

/-- What a poll that read hot or not leaves of the tile: two cool polls in a row end the hot rate. -/
def Tile.polled (x : Tile) (hot : Bool) : Tile :=
  if hot then { x with hot := true, coolPolls := 0 }
  else { x with hot := x.hot && x.coolPolls + 1 < 2, coolPolls := min 2 (x.coolPolls + 1) }

theorem Tile.polled_hot (x : Tile) (hot : Bool) : (x.polled hot).hot = (hot || (x.hot && decide (x.coolPolls = 0))) := by
  cases hot with
  | true => rfl
  | false =>
    have hcool : decide (x.coolPolls + 1 < 2) = decide (x.coolPolls = 0) := decide_eq_decide.mpr (by omega)
    exact congrArg (x.hot && ·) hcool

theorem tempPoll_polls (s : State) (t : Fin 16) (hot : Bool) (hlive : s.dev.live = true) (hck : s.dev.ckDriven t = true)
    (hsr : (s.dev.tiles[t]).inSr = false) (hcfg : s.dev.refrCfg (tilePort t) 0x1C 2 ≠ 0) :
    ∃ d : Dev, exec (.tempPoll t hot) s = .next { s with dev := d } ∧ d = { s.dev with tiles := d.tiles, phys := d.phys } ∧
      (∀ u : Fin 16, u ≠ t → d.tiles[u] = s.dev.tiles[u]) ∧
      (d.tiles[t]).hot = (hot || ((s.dev.tiles[t]).hot && decide ((s.dev.tiles[t]).coolPolls = 0))) ∧
      (s.dev.caOpen (tileSub t) = true →
        (d.phys[tileSub t]).lastCmd = some (layerCmd .mrrK t 4 (s.dev.stack t - 1))) := by
  have hexec : exec (.tempPoll t hot) s =
      .next { s with dev := (s.dev.layerSend t .mrrK 4 0).modTile t (fun x => x.polled hot) } := by
    refine exec_of_devNext hlive (congrArg (devNext s) ?_)
    rw [hck, hsr, if_neg (by simp [hcfg])]
    cases hot <;> rfl
  have hpres : s.dev.present t = true := by
    simp only [Dev.ckDriven, Bool.and_eq_true] at hck
    exact hck.1.1.1
  refine ⟨_, hexec, ?_, fun u hu => ?_, ?_, fun hopen => Dev.layerSend_lastCmd s.dev t .mrrK 4 0 hopen hpres⟩
  · rw [Dev.layerSend_eq]
    rfl
  · rw [Dev.modTile_tiles_ne _ _ _ hu, Dev.layerSend_tiles]
  · rw [Dev.modTile_tiles_same, Tile.polled_hot, Dev.layerSend_tiles]

/-! ### Real-time bursts and Geysers (R153, R155) -/

/-- The port once its real-time burst has ended. -/
def Port.burstOver (x : Port) : Port := { x with rtBurst := false, burstEnded := true }

/-- The end of a real-time burst touches its port and the tiles. -/
theorem Dev.rtEnd_eq (d : Dev) (p : Fin 4) : ∃ tiles, d.rtEnd p = { d.modPort p Port.burstOver with tiles := tiles } := by
  refine Dev.each_keeps (fun y => ∃ tiles, y = { d.modPort p Port.burstOver with tiles := tiles }) _ (fun t y hy => ?_) _ _
    ⟨d.tiles, rfl⟩
  obtain ⟨_, rfl⟩ := hy
  rw [Dev.latchForced_eq]
  exact ⟨_, rfl⟩

/-- A tile whose unit is due at the end of a burst has it due by force. -/
theorem Dev.rtEnd_forced {d : Dev} {p : Fin 4} {t : Fin 16} (ht : t ∈ portTiles p)
    (h : (d.modPort p Port.burstOver).levelReached t = true) : ((d.rtEnd p).tiles[t]).forced = true := by
  refine Dev.each_reaches (P := fun y => y.levelReached t = true) (Q := fun y => (y.tiles[t]).forced = true) ht
    (fun u y hy => ?_) (fun y hy => ?_) (fun u y hy => ?_) h
  · rw [Dev.latchForced_eq]
    exact (y.levelReached_modTile u (by exact fun _ => rfl) t).trans hy
  · rw [Dev.latchForced_eq, Dev.modTile_tiles_same, hy]
    exact Bool.or_true _
  · rw [Dev.latchForced_eq, Dev.modTile_tiles]
    split
    next h =>
      rw [← h, hy, Bool.true_or]
    next => exact hy

/-- The end of a real-time burst makes the units due by force that the issue level demands. -/
theorem rtBurstEnd_forces (s : State) (p : Fin 4) (hlive : s.dev.live = true) (hburst : (s.dev.ports[p]).rtBurst = true)
    (hqueued : s.dev.rtQueued p = false) :
    ∃ d : Dev, exec (.rtBurstEnd p) s = .next { s with dev := d } ∧ d = { s.dev with ports := d.ports, tiles := d.tiles } ∧
      d.ports[p] = { s.dev.ports[p] with rtBurst := false, burstEnded := true } ∧
      ∀ t ∈ portTiles p, s.dev.refMode p ≠ 0 → s.dev.issueLevel t ≤ (s.dev.tiles[t]).owed → (d.tiles[t]).forced = true := by
  have hexec : exec (.rtBurstEnd p) s = .next { s with dev := s.dev.rtEnd p } := by
    refine exec_of_devNext hlive (congrArg (devNext s) (if_neg ?_))
    rw [hburst, hqueued]
    decide
  obtain ⟨tiles, he⟩ := s.dev.rtEnd_eq p
  refine ⟨_, hexec, ?_, ?_, fun t ht hmode hlevel => Dev.rtEnd_forced ht ?_⟩
  · rw [he]
    rfl
  · rw [congrArg Dev.ports he]
    exact Dev.modPort_ports_same _ _ _
  · obtain rfl := tilePort_of_mem p t ht
    rw [Dev.levelReached, Dev.modPort_ports_same]
    exact Bool.and_eq_true_iff.mpr ⟨decide_eq_true hmode, decide_eq_true hlevel⟩

/-- Tile `t` owes an interval. -/
def Dev.owes (d : Dev) (t : Fin 16) : Bool := d.refreshed t && decide (1 ≤ (d.tiles[t]).owed)

theorem Dev.owes_iff {d : Dev} {t : Fin 16} : d.owes t = true ↔ d.refreshed t = true ∧ 1 ≤ (d.tiles[t]).owed := by
  rw [Dev.owes, Bool.and_eq_true, decide_eq_true_eq]

/-- The tiles of the port that owe an interval are in a Geyser. -/
def Dev.geysers (d : Dev) (p : Fin 4) : Dev :=
  Dev.each (fun t x => if d.owes t then x.modTile t (fun y => { y with geyser := true, geyserEnd := false }) else x) (portTiles p) d

theorem Dev.geyserAll_of_owes {d : Dev} {p : Fin 4} (h : (portTiles p).any d.owes = true) :
    d.geyserAll p = (d.geysers p).bump (A.refCount p.val) 0 12 := if_pos h

theorem Dev.geysers_reg (d : Dev) (p : Fin 4) (a : Nat) : (d.geysers p).reg a = d.reg a := by
  refine Dev.each_keeps (fun y => y.reg a = d.reg a) _ (fun t y hy => ?_) _ _ rfl
  split <;> exact hy

theorem Dev.geysers_geyser {d : Dev} {p : Fin 4} {t : Fin 16} (ht : t ∈ portTiles p) (h : d.owes t = true) :
    ((d.geysers p).tiles[t]).geyser = true := by
  refine Dev.each_reaches (P := fun _ => True) (Q := fun y => (y.tiles[t]).geyser = true) ht (fun _ _ _ => trivial)
    (fun y _ => ?_) (fun u y hy => ?_) trivial
  · rw [if_pos h, Dev.modTile_tiles_same]
  · split
    · rw [Dev.modTile_tiles]
      split
      · rfl
      · exact hy
    · exact hy

/-- A Geyser takes every tile of the port that owes, and is counted. -/
theorem geyserStart_takes (s : State) (p : Fin 4) (hlive : s.dev.live = true) (hended : (s.dev.ports[p]).burstEnded = true)
    (hpause : (s.dev.cals[p]).pause = false) (howes : ∃ t ∈ portTiles p, s.dev.refreshed t = true ∧ 1 ≤ (s.dev.tiles[t]).owed) :
    ∃ d : Dev, exec (.geyserStart p) s = .next { s with dev := d } ∧ (d.ports[p]).burstEnded = false ∧
      (∀ t ∈ portTiles p, s.dev.refreshed t = true → 1 ≤ (s.dev.tiles[t]).owed → (d.tiles[t]).geyser = true) ∧
      d.fldR (A.refCount p.val) 0 12 = min (s.dev.fldR (A.refCount p.val) 0 12 + 1) 4095 := by
  have hany : (portTiles p).any s.dev.owes = true := by
    obtain ⟨t, ht, howe⟩ := howes
    exact List.any_eq_true.mpr ⟨t, ht, Dev.owes_iff.mpr howe⟩
  have hexec : exec (.geyserStart p) s =
      .next { s with dev := (s.dev.geyserAll p).modPort p (fun x => { x with burstEnded := false }) } := by
    refine exec_of_devNext hlive (congrArg (devNext s) (if_pos ?_))
    rw [hended, hpause]
    exact hany
  refine ⟨_, hexec, by rw [Dev.modPort_ports_same], ?_⟩
  rw [Dev.geyserAll_of_owes hany]
  refine ⟨fun t ht href howed => Dev.geysers_geyser ht (Dev.owes_iff.mpr ⟨href, howed⟩), ?_⟩
  have hcount := (s.dev.geysers p).fldR_bump_same (A.refCount p.val) 0 12 (by decide) (by decide)
  rw [Dev.fldR, Dev.fldR, Dev.geysers_reg] at hcount
  exact hcount

/-- Settles O33, from what each command of refresh does. -/
theorem refreshIsOwedAndSettled : Obligations.RefreshIsOwedAndSettled :=
  ⟨fun _ _ hlive href => ⟨refreshInterval_owes hlive href, refreshInterval_drops hlive href⟩, refreshUnit_starts,
    refreshUnitDone_settles, trackerClear_clears, tempPoll_polls, rtBurstEnd_forces, geyserStart_takes, penaltyEnd_clears⟩

end Sys2Proof.Machine
end

section
/-! SUPPORT. Self-refresh (Table 6.3, R161 to R164): entry from idleness, its steps and the exit; the clear of LOST flags (R170). -/

namespace Sys2Proof.Machine

/-! ### Entry (R161, Table 6.3) -/

theorem srIdleEntry_drains (s : State) (p : Fin 4) (hlive : s.dev.live = true) (hcfg : s.dev.refrCfg p 0x18 4 ≠ 0)
    (hrun : (s.dev.ports[p]).sr = .run) (hbusy : s.dev.portBusy p = false) (hpause : (s.dev.cals[p]).pause = false)
    (hstate : s.dev.pwrState = 0) (hphase : s.dev.pwrPhase = 0) (hstep : s.dev.rst.step = 0)
    (hany : ∃ t ∈ portTiles p, s.dev.srTile t = true) : exec (.srIdleEntry p) s =
      .next { s with dev := s.dev.modPort p (fun x => { x with sr := .drain, srPower := false, srArrived := false }) } := by
  have htile : (portTiles p).any (fun t => s.dev.srTile t) = true := List.any_eq_true.mpr hany
  refine exec_of_devNext hlive (congrArg (devNext s) (if_neg ?_))
  simp only [hcfg, hrun, hbusy, hpause, hstate, hphase, hstep, htile]
  decide

/-- The tiles of the port with open rows are precharged. -/
def Dev.srPrecharged (d : Dev) (p : Fin 4) : Dev :=
  Dev.each (fun t x => if d.srTile t && d.rowsOpen t then x.prechargeTile t else x) (portTiles p) d

/-- SRE goes from `y` to every tile of the port that is not in self-refresh in `d`. -/
def Dev.sreAll (d : Dev) (p : Fin 4) (wait : Fin 16 → Nat) (y : Dev) : Dev :=
  Dev.each (fun t x => if d.srTile t && !(d.tiles[t]).inSr then x.sreTile t (wait t) else x) (portTiles p) y

section
variable (d : Dev) (p : Fin 4)

theorem Dev.srPrecharged_tiles : (d.srPrecharged p).tiles = d.tiles := by
  refine Dev.each_keeps (fun y => y.tiles = d.tiles) _ (fun t y hy => ?_) _ _ rfl
  split
  · rw [Dev.prechargeTile_tiles, hy]
  · exact hy

/-- After the precharge every tile that self-refresh concerns is closed. -/
theorem Dev.srPrecharged_closed {t : Fin 16} (ht : t ∈ portTiles p) (hsr : d.srTile t = true) :
    ((d.srPrecharged p).ports[p]).tileClosed t := by
  have hkeep : ∀ (u : Fin 16) (y : Dev), (y.ports[p]).tileClosed t →
      ((if d.srTile u && d.rowsOpen u then y.prechargeTile u else y).ports[p]).tileClosed t := by
    intro u y hy
    split
    · exact y.prechargeTile_keeps_closed u hy
    · exact hy
  obtain rfl := tilePort_of_mem p t ht
  by_cases hrows : d.rowsOpen t = true
  · refine Dev.each_reaches (P := fun _ => True) (Q := fun y => (y.ports[tilePort t]).tileClosed t) ht (fun _ _ _ => trivial)
      (fun y _ => ?_) hkeep trivial
    rw [hsr, hrows, Bool.and_self, if_pos rfl]
    exact y.prechargeTile_closes t
  · exact Dev.each_keeps (fun y => (y.ports[tilePort t]).tileClosed t) _ hkeep _ _
      (Dev.tileClosed_of_not_rowsOpen (Bool.eq_false_iff.mpr hrows))

end

/-- The tile once it has been sent into self-refresh. -/
def Tile.asleep (x : Tile) : Tile := { x with inSr := true, geyser := false, geyserEnd := false, forced := false }

section
variable (d y : Dev) (p : Fin 4) (wait : Fin 16 → Nat)

theorem Dev.sreTile_tiles (t : Fin 16) (n : Nat) : (d.sreTile t n).tiles = (d.modTile t Tile.asleep).tiles := by
  rw [Dev.sreTile, Dev.layerSend_eq]
  rfl

theorem Dev.sreTile_inSr_same (t : Fin 16) (n : Nat) : ((d.sreTile t n).tiles[t]).inSr = true := by
  rw [Dev.sreTile_tiles, Dev.modTile_tiles_same]
  rfl

theorem Dev.sreTile_keeps_inSr {t : Fin 16} (h : (d.tiles[t]).inSr = true) (u : Fin 16) (n : Nat) :
    ((d.sreTile u n).tiles[t]).inSr = true := by
  rw [Dev.sreTile_tiles, Dev.modTile_tiles]
  split
  · rfl
  · exact h

theorem Dev.sreTile_ports (t : Fin 16) (n : Nat) : (d.sreTile t n).ports = d.ports := d.layerSend_ports t .sre 0 n

theorem Dev.sreAll_ports : (d.sreAll p wait y).ports = y.ports := by
  refine Dev.each_keeps (fun x => x.ports = y.ports) _ (fun t x hx => ?_) _ _ rfl
  split
  · rw [Dev.sreTile_ports, hx]
  · exact hx

/-- Where the tiles of `y` are those of `d`, every tile that self-refresh concerns is in it afterwards. -/
theorem Dev.sreAll_inSr {t : Fin 16} (ht : t ∈ portTiles p) (hsr : d.srTile t = true) (hy : y.tiles = d.tiles) :
    ((d.sreAll p wait y).tiles[t]).inSr = true := by
  have hasleep : ∀ (u : Fin 16) (x : Dev), (x.tiles[t]).inSr = true →
      ((if d.srTile u && !(d.tiles[u]).inSr then x.sreTile u (wait u) else x).tiles[t]).inSr = true := by
    intro u x hx
    split
    · exact x.sreTile_keeps_inSr hx u (wait u)
    · exact hx
  cases hin : (d.tiles[t]).inSr with
  | true => exact Dev.each_keeps (fun x => (x.tiles[t]).inSr = true) _ hasleep _ _ (by rw [hy, hin])
  | false =>
    refine Dev.each_reaches (P := fun _ => True) (Q := fun x => (x.tiles[t]).inSr = true) ht (fun _ _ _ => trivial)
      (fun x _ => ?_) hasleep trivial
    rw [hsr, hin, Bool.not_false, Bool.and_self, if_pos rfl]
    exact x.sreTile_inSr_same t (wait t)

end

/-- A quiet port that owes nothing precharges its tiles and sends them into self-refresh. -/
theorem Dev.srEnter_of_settled {d : Dev} {p : Fin 4} (hdrain : (d.ports[p]).sr = .drain) (hquiet : d.portQuiet p = true)
    (hnone : ∀ t ∈ portTiles p, d.refreshed t = true → (d.tiles[t]).refUnit = false ∧ (d.tiles[t]).owed = 0) :
    ∃ wait, d.srEnter p = (d.sreAll p wait (d.srPrecharged p)).modPort p (fun x => { x with sr := .sre }) := by
  have hunit : (portTiles p).any (fun t => d.refreshed t && (d.tiles[t]).refUnit) = false := by
    refine List.any_eq_false.mpr fun t ht h => ?_
    obtain ⟨href, hunit⟩ := Bool.and_eq_true_iff.mp h
    rw [(hnone t ht href).1] at hunit
    cases hunit
  have howed : (portTiles p).any d.owes = false := by
    refine List.any_eq_false.mpr fun t ht h => ?_
    obtain ⟨href, howe⟩ := Dev.owes_iff.mp h
    rw [(hnone t ht href).2] at howe
    cases howe
  refine ⟨fun t => if (portTiles p).any (fun u => d.srTile u && d.rowsOpen u) then d.timing t 1 else 0, ?_⟩
  unfold Dev.srEnter
  have hgo : ¬ (decide ((d.ports[p]).sr ≠ .drain) || !d.portQuiet p) = true := by
    rw [hdrain, hquiet]
    decide
  rw [if_neg hgo, if_neg (ne_true_of_eq_false hunit)]
  exact if_neg (ne_true_of_eq_false howed)

theorem srDrainDone_enters (s : State) (p : Fin 4) (hlive : s.dev.live = true) (hdrain : (s.dev.ports[p]).sr = .drain)
    (hquiet : s.dev.portQuiet p = true)
    (hnone : ∀ t ∈ portTiles p, s.dev.refreshed t = true → (s.dev.tiles[t]).refUnit = false ∧ (s.dev.tiles[t]).owed = 0) :
    ∃ d : Dev, exec (.srDrainDone p) s = .next { s with dev := d } ∧ (d.ports[p]).sr = .sre ∧
      ∀ t ∈ portTiles p, s.dev.srTile t = true → (d.tiles[t]).inSr = true ∧
        ∀ k, k / 256 = t.val % 4 → (sget Bank.closed (d.ports[p]).banks k).row = none := by
  obtain ⟨wait, henter⟩ := Dev.srEnter_of_settled hdrain hquiet hnone
  refine ⟨_, devNext_of_live _ hlive, ?_⟩
  rw [henter, Dev.modPort_ports_same, Dev.sreAll_ports]
  exact ⟨rfl, fun t ht hsr => ⟨Dev.sreAll_inSr _ _ _ _ ht hsr (s.dev.srPrecharged_tiles p),
    fun k hk => (s.dev.srPrecharged_closed p ht hsr).row hk⟩⟩

/-- The port once CK has stopped. -/
def Port.ckStopped (x : Port) : Port := { x with sr := .stopped }

/-- CK stops, and the entry is counted. -/
theorem srClockStop_stops (s : State) (p : Fin 4) (hlive : s.dev.live = true) (hsre : (s.dev.ports[p]).sr = .sre) :
    ∃ d : Dev, exec (.srClockStop p) s = .next { s with dev := d } ∧ (d.ports[p]).sr = .stopped ∧
      d.fldR (A.sr p.val) 0 16 = min (s.dev.fldR (A.sr p.val) 0 16 + 1) 65535 ∧ s.dev.regsBut d [A.sr p.val] := by
  have hexec : exec (.srClockStop p) s = .next { s with dev := (s.dev.modPort p Port.ckStopped).bump (A.sr p.val) 0 16 } :=
    exec_of_devNext hlive (congrArg (devNext s) (if_neg (not_not.mpr hsre)))
  refine ⟨_, hexec, ?_, Dev.fldR_bump_same _ (A.sr p.val) 0 16 (by decide) (by decide), Dev.bump_regsBut _ _ _ _⟩
  rw [Dev.bump_ports, Dev.modPort_ports_same]
  rfl

/-! ### Exit (R163, R164) -/

/-- CK runs again, the delays that wait have landed, and SRX goes to the layers of the tile. -/
def Dev.wakeTile (d : Dev) (t : Fin 16) : Dev := (d.delayLand t).layerSend t .srx 0 0

/-- `y` is `x` but for delays that landed and commands sent. -/
def Dev.wakes (x y : Dev) : Prop := y.ports = x.ports ∧ y.tiles = x.tiles ∧ y.cfg = x.cfg ∧ ∀ b, y.caOpen b = x.caOpen b

theorem Dev.wakes_refl (d : Dev) : d.wakes d := ⟨rfl, rfl, rfl, fun _ => rfl⟩

theorem Dev.wakes.trans {x y z : Dev} (h : x.wakes y) (k : y.wakes z) : x.wakes z := by
  obtain ⟨hports, htiles, hcfg, hopen⟩ := h
  obtain ⟨kports, ktiles, kcfg, kopen⟩ := k
  exact ⟨kports.trans hports, ktiles.trans htiles, kcfg.trans hcfg, fun b => (kopen b).trans (hopen b)⟩

section
variable (d : Dev) (t : Fin 16)

theorem Dev.delayLand_wakes : d.wakes (d.delayLand t) := by
  obtain ⟨⟨_, _, _, he⟩, -⟩ := d.delayLand_landsOnly t
  rw [he]
  exact ⟨rfl, rfl, rfl, fun _ => rfl⟩

theorem Dev.wakeTile_wakes : d.wakes (d.wakeTile t) := by
  obtain ⟨hports, htiles, hcfg, hopen⟩ := d.delayLand_wakes t
  refine ⟨?_, ?_, ?_, fun b => (((d.delayLand t).layerSend_sameCycle t .srx 0 0).caOpen b).trans (hopen b)⟩
  · rw [Dev.wakeTile, Dev.layerSend_ports, hports]
  · rw [Dev.wakeTile, Dev.layerSend_tiles, htiles]
  · rw [Dev.wakeTile, Dev.layerSend_eq, hcfg]

theorem Dev.wakeTile_keeps_lastKind {b : Fin 8} (h : d.lastKind b .srx) : (d.wakeTile t).lastKind b .srx := by
  refine Dev.layerSend_keeps_lastKind _ t .srx 0 0 ?_
  obtain ⟨⟨_, _, _, he⟩, -⟩ := d.delayLand_landsOnly t
  rw [he]
  exact h

/-- Where commands may leave, SRX is the last on the subchannel of a tile that is present. -/
theorem Dev.wakeTile_lastKind (hopen : d.caOpen (tileSub t) = true) (hpres : d.present t = true) :
    (d.wakeTile t).lastKind (tileSub t) .srx := by
  obtain ⟨-, -, hcfg, hopen'⟩ := d.delayLand_wakes t
  have hpres' : (d.delayLand t).present t = true := by rw [Dev.present, hcfg]; exact hpres
  exact ⟨_, (d.delayLand t).layerSend_lastCmd t .srx 0 0 ((hopen' _).trans hopen) hpres', rfl⟩

end

/-- The tiles of the port that are in self-refresh in `d` wake. -/
def Dev.wakeAll (d : Dev) (p : Fin 4) (y : Dev) : Dev :=
  Dev.each (fun t x => if d.srTile t && (d.tiles[t]).inSr then x.wakeTile t else x) (portTiles p) y

section
variable (d y : Dev) (p : Fin 4)

theorem Dev.wakeStep_wakes (t : Fin 16) : y.wakes (if d.srTile t && (d.tiles[t]).inSr then y.wakeTile t else y) := by
  split
  · exact y.wakeTile_wakes t
  · exact y.wakes_refl

theorem Dev.wakeAll_wakes : y.wakes (d.wakeAll p y) :=
  Dev.each_keeps y.wakes _ (fun t x hx => hx.trans (d.wakeStep_wakes x t)) _ _ y.wakes_refl

theorem Dev.wakeAll_lastKind {t : Fin 16} (ht : t ∈ portTiles p) (hsr : d.srTile t = true) (hin : (d.tiles[t]).inSr = true)
    (hopen : y.caOpen (tileSub t) = true) (hpres : y.present t = true) : (d.wakeAll p y).lastKind (tileSub t) .srx := by
  refine Dev.each_reaches (P := y.wakes) (Q := fun x => x.lastKind (tileSub t) .srx) ht
    (fun u x hx => hx.trans (d.wakeStep_wakes x u)) (fun x hx => ?_) (fun u x hx => ?_) y.wakes_refl
  · obtain ⟨-, -, hcfg, hopen'⟩ := hx
    rw [hsr, hin, Bool.and_self, if_pos rfl]
    exact x.wakeTile_lastKind t ((hopen' _).trans hopen) (by rw [Dev.present, hcfg]; exact hpres)
  · split
    · exact x.wakeTile_keeps_lastKind u hx
    · exact hx

end

/-- An update of a port that is no core cycle lets the same subchannels send commands. -/
theorem Dev.caOpen_modPort (d : Dev) (p : Fin 4) {f : Port → Port} (hf : ∀ x, (f x).cyc = x.cyc) (b : Fin 8) :
    (d.modPort p f).caOpen b = d.caOpen b := by
  have hnow : ∀ o : Fin 4, (d.modPort p f).now o = d.now o := by
    intro o
    rw [Dev.now, Dev.modPort_ports]
    split
    next ho => rw [hf, ho, Dev.now]
    next => rfl
  rw [Dev.caOpen, hnow]
  rfl

/-- The port on its way out of self-refresh. -/
def Port.leaving (x : Port) : Port := { x with sr := .exiting }

theorem srExit_leaves (s : State) (p : Fin 4) (hlive : s.dev.live = true) (hstop : (s.dev.ports[p]).sr = .stopped)
    (harrived : (s.dev.ports[p]).srArrived = true) :
    ∃ d : Dev, exec (.srExit p) s = .next { s with dev := d } ∧ d.ports[p] = { s.dev.ports[p] with sr := .exiting } ∧
      d.tiles = s.dev.tiles ∧
      ∀ t ∈ portTiles p, s.dev.srTile t = true → (s.dev.tiles[t]).inSr = true → s.dev.caOpen (tileSub t) = true →
        ∃ c : Cmd, (d.phys[tileSub t]).lastCmd = some c ∧ c.kind = .srx := by
  have hexec : exec (.srExit p) s = .next { s with dev := s.dev.wakeAll p (s.dev.modPort p Port.leaving) } := by
    refine exec_of_devNext hlive (congrArg (devNext s) (if_pos ?_))
    rw [hstop, harrived]
    rfl
  obtain ⟨hports, htiles, -, -⟩ := s.dev.wakeAll_wakes (s.dev.modPort p Port.leaving) p
  refine ⟨_, hexec, ?_, htiles, fun t ht hsr hin hopen => ?_⟩
  · rw [hports, Dev.modPort_ports_same]
    rfl
  · have hpres : s.dev.present t = true := by
      simp only [Dev.srTile, Bool.and_eq_true] at hsr
      exact hsr.1.1
    have hopen' : (s.dev.modPort p Port.leaving).caOpen (tileSub t) = true :=
      (s.dev.caOpen_modPort p (f := Port.leaving) (fun _ => rfl) _).trans hopen
    exact s.dev.wakeAll_lastKind _ p ht hsr hin hopen' hpres

/-- The tile once it is out of self-refresh: it owes nothing, and its trackers are empty. -/
def Tile.awake (x : Tile) : Tile :=
  { x with inSr := false, mrDue := false, owed := 0, geyser := false, geyserEnd := false, forced := false, refUnit := false,
           trackers := [] }

/-- The tiles of the port that were in self-refresh are out of it, with the mode registers that have changed written. -/
def Dev.srBack (d : Dev) (p : Fin 4) : Dev :=
  Dev.each (fun t x => if d.srTile t && (d.tiles[t]).inSr then
    (if (d.tiles[t]).mrDue then x.mrInitTile t true else x).modTile t Tile.awake else x) (portTiles p) d

/-- The port that runs after self-refresh. -/
def Port.resumed (x : Port) : Port := { x with sr := .run, srArrived := false, srPower := false }

theorem Dev.srDone_of_exiting {d : Dev} {p : Fin 4} (hexit : (d.ports[p]).sr = .exiting) (hphase : d.pwrPhase = 0) :
    d.srDone p = (((d.srBack p).modPort p Port.resumed).rollbackDone).enterQueues := by
  unfold Dev.srDone
  rw [if_neg (not_not.mpr hexit)]
  extract_lets back d1 again
  have hagain : again = false := by
    simp only [again, hphase]
    rfl
  rw [hagain]
  rfl

/-- The end of a rollback touches no more than the registers. -/
theorem Dev.rollbackDone_eq (d : Dev) : ∃ rf, d.rollbackDone = { d with rf := rf } := by
  unfold Dev.rollbackDone
  split
  · exact ⟨_, rfl⟩
  · exact ⟨_, rfl⟩

/-- Of a tile out of self-refresh: not in it, nothing owed, no trackers. -/
def Tile.isAwake (x : Tile) : Prop := x.inSr = false ∧ x.owed = 0 ∧ x.trackers = []

/-- The mode registers that are written, where any are due, leave all but the command bus and their shadow. -/
theorem Dev.mrDue_onlyCommands (d : Dev) (t : Fin 16) (due : Bool) :
    d.onlyCommands (if due then d.mrInitTile t true else d) := by
  split
  · exact d.mrInitTile_onlyCommands t true
  · exact d.onlyCommands_refl

theorem Dev.onlyCommands.tiles {x y : Dev} (h : x.onlyCommands y) : y.tiles = x.tiles := by
  obtain ⟨_, _, _, rfl⟩ := h
  rfl

theorem Dev.onlyCommands.calm {x y : Dev} (h : x.onlyCommands y) (hc : x.calm) : y.calm := by
  obtain ⟨_, _, _, rfl⟩ := h
  exact hc

theorem Dev.srBack_calm {d : Dev} (h : d.calm) (p : Fin 4) : (d.srBack p).calm := by
  refine Dev.each_keeps Dev.calm _ (fun t x hx => ?_) _ _ h
  split
  · exact (x.mrDue_onlyCommands t (d.tiles[t]).mrDue).calm hx
  · exact hx

theorem Dev.srBack_isAwake {d : Dev} {p : Fin 4} {t : Fin 16} (ht : t ∈ portTiles p) (hsr : d.srTile t = true)
    (hin : (d.tiles[t]).inSr = true) : ((d.srBack p).tiles[t]).isAwake := by
  refine Dev.each_reaches (P := fun _ => True) (Q := fun x => (x.tiles[t]).isAwake) ht (fun _ _ _ => trivial)
    (fun x _ => ?_) (fun u x hx => ?_) trivial
  · rw [hsr, hin, Bool.and_self, if_pos rfl, Dev.modTile_tiles_same]
    exact ⟨rfl, rfl, rfl⟩
  · split
    · rw [Dev.modTile_tiles, (x.mrDue_onlyCommands u (d.tiles[u]).mrDue).tiles]
      split
      · exact ⟨rfl, rfl, rfl⟩
      · exact hx
    · exact hx

/-- tXS after SRX the port runs, and the tiles that were in self-refresh start afresh. -/
theorem srxDone_resumes (s : State) (p : Fin 4) (hlive : s.dev.live = true) (hcalm : s.dev.calm)
    (hexit : (s.dev.ports[p]).sr = .exiting) (hphase : s.dev.pwrPhase = 0) :
    ∃ d : Dev, exec (.srxDone p) s = .next { s with dev := d } ∧ (d.ports[p]).sr = .run ∧
      ∀ t ∈ portTiles p, s.dev.srTile t = true → (s.dev.tiles[t]).inSr = true →
        (d.tiles[t]).inSr = false ∧ (d.tiles[t]).owed = 0 ∧ (d.tiles[t]).trackers = [] := by
  obtain ⟨rf, hroll⟩ := ((s.dev.srBack p).modPort p Port.resumed).rollbackDone_eq
  have hcalm' : ((s.dev.srBack p).modPort p Port.resumed).rollbackDone.calm := by
    rw [hroll]
    exact Dev.srBack_calm hcalm p
  refine ⟨_, devNext_of_live _ hlive, ?_⟩
  rw [Dev.srDone_of_exiting hexit hphase, Dev.enterQueues_of_calm hcalm', hroll]
  refine ⟨?_, fun t ht hsr hin => Dev.srBack_isAwake ht hsr hin⟩
  exact congrArg Port.sr (Dev.modPort_ports_same (s.dev.srBack p) p Port.resumed)

/-! ### LOST flags (R170) -/

/-- The low 32 bits of a word. -/
theorem and_ones_low32 (v : Word) : v &&& ones 31 0 = (v.extractLsb' 0 32).setWidth 48 := by
  refine BitVec.eq_of_getLsbD_eq fun i hi => ?_
  have hones : (ones 31 0).getLsbD i = decide (0 ≤ i ∧ i < 0 + 32) := ones_getLsbD 0 32 i (by decide) (by decide)
  rw [BitVec.getLsbD_and, hones, BitVec.getLsbD_setWidth, BitVec.getLsbD_extractLsb', decide_eq_true hi]
  by_cases h : i < 32 <;> simp [h]

/-- A write clears the LOST flags that it names. -/
theorem lostClear_clears (s : State) (m : Master) (p : Fin 4) (k : Fin 32) (v : Word) (hlive : s.dev.live = true) :
    ∃ d : Dev, exec (.lostClear m p k v) s = .next { s with dev := d } ∧ d = { s.dev with rf := d.rf } ∧
      d.reg (A.lost p.val k.val) = s.dev.reg (A.lost p.val k.val) &&& ~~~ (v.extractLsb' 0 32).setWidth 48 ∧
      s.dev.regsBut d [A.lost p.val k.val] := by
  refine ⟨_, devNext_of_live _ hlive, rfl, ?_, fun a ha => ?_⟩
  · rw [Dev.lostWrite, Dev.reg_setReg, if_pos rfl, and_ones_low32]
  · rw [Dev.lostWrite, Dev.reg_setReg, if_neg (List.mem_singleton.not.mp ha)]

/-- Settles O34, from what each step of self-refresh does, and the clear of LOST flags. -/
theorem selfRefreshRunsItsSteps : Obligations.SelfRefreshRunsItsSteps :=
  ⟨srIdleEntry_drains, srDrainDone_enters, srClockStop_stops, srExit_leaves, srxDone_resumes, lostClear_clears⟩

end Sys2Proof.Machine
end

section
/-! SUPPORT. The DRAM-side buffer: alerts of the write CRC and the retry buffer (R179 to R182, R188). -/

namespace Sys2Proof.Machine

theorem Dev.regsBut.mono {x y : Dev} {l l' : List Nat} (h : x.regsBut y l) (hl : l ⊆ l') : x.regsBut y l' :=
  fun a ha => h a fun hm => ha (hl hm)

/-- While ALERT_N is low no command leaves. -/
theorem Dev.caOpen_of_low {d : Dev} {b : Fin 8} (h : (d.phys[b]).alert = .low) : d.caOpen b = false := by
  rw [Dev.caOpen, h]
  rfl

/-! ### ALERT_N falls (R180, R188) -/

/-- A fall is counted, and ALERT_N is in state `a`. -/
def Dev.alertFell (d : Dev) (b : Fin 8) (a : AlertSt) : Dev :=
  (d.modPhy b (fun x => { x with alert := a, riseAt := none })).bump (A.crc b.val) 8 16

theorem Dev.alertLow_of_idle {d : Dev} {b : Fin 8} (h : (d.phys[b]).alert = .idle) : d.alertLow b =
    if (d.phys[b]).testSent then (d.alertFell b .lowTest).setFld (A.testStat b.val) 44 1 1 else d.alertFell b .low := by
  rw [Dev.alertLow, h]
  cases (d.phys[b]).testSent <;> rfl

section
variable (d : Dev) (b : Fin 8) (a : AlertSt)

theorem Dev.alertFell_alert : ((d.alertFell b a).phys[b]).alert = a := by
  rw [Dev.alertFell, Dev.bump_phys, Dev.modPhy_phys_same]

theorem Dev.alertFell_counts :
    (d.alertFell b a).fldR (A.crc b.val) 8 16 = min (d.fldR (A.crc b.val) 8 16 + 1) 65535 :=
  Dev.fldR_bump_same _ _ 8 16 (by decide) (by decide)

theorem Dev.alertFell_regsBut : d.regsBut (d.alertFell b a) [A.crc b.val] := Dev.bump_regsBut _ _ _ _

end

theorem crc_ne_testStat : ∀ b : Fin 8, A.crc b.val ≠ A.testStat b.val := by decide

/-- A fall stops issue; with a test operation under way it is marked instead. Either is counted. -/
theorem alertFall_counts (s : State) (b : Fin 8) (hlive : s.dev.live = true) (hidle : (s.dev.phys[b]).alert = .idle) :
    ∃ d : Dev, exec (.alertFall b) s = .next { s with dev := d } ∧
      d.fldR (A.crc b.val) 8 16 = min (s.dev.fldR (A.crc b.val) 8 16 + 1) 65535 ∧
      ((s.dev.phys[b]).testSent = false → (d.phys[b]).alert = .low ∧ d.caOpen b = false ∧ s.dev.regsBut d [A.crc b.val]) ∧
      ((s.dev.phys[b]).testSent = true → (d.phys[b]).alert = .lowTest ∧ d.fldR (A.testStat b.val) 44 1 = 1 ∧
        s.dev.regsBut d [A.crc b.val, A.testStat b.val]) := by
  refine ⟨_, devNext_of_live _ hlive, ?_⟩
  rw [Dev.alertLow_of_idle hidle]
  cases htest : (s.dev.phys[b]).testSent with
  | false =>
    have halert := s.dev.alertFell_alert b .low
    exact ⟨s.dev.alertFell_counts b .low, fun _ => ⟨halert, Dev.caOpen_of_low halert, s.dev.alertFell_regsBut b .low⟩, nofun⟩
  | true =>
    refine ⟨?_, nofun, fun _ => ⟨s.dev.alertFell_alert b .lowTest,
      Dev.fldR_setFld_same _ (A.testStat b.val) 44 1 1 (by decide) (by decide), ?_⟩⟩
    · exact (Dev.fldR_setFld_ne _ 44 1 1 8 16 (crc_ne_testStat b)).trans (s.dev.alertFell_counts b .lowTest)
    · exact ((s.dev.alertFell_regsBut b .lowTest).mono (by simp)).trans ((Dev.setFld_regsBut _ _ _ _ _).mono (by simp))

/-! ### The resend (R180, R182) -/

/-- `y` is `x` but for commands that have left on CA: ALERT_N, the retry buffers and the bursts written stand. -/
def Dev.caOnly (x y : Dev) : Prop :=
  y = { x with phys := y.phys } ∧ ∀ o : Fin 8, (y.phys[o]).alert = (x.phys[o]).alert ∧ (y.phys[o]).retry = (x.phys[o]).retry ∧
    (y.phys[o]).lastWr = (x.phys[o]).lastWr

theorem Dev.caOnly_refl (d : Dev) : d.caOnly d := ⟨rfl, fun _ => ⟨rfl, rfl, rfl⟩⟩

theorem Dev.caOnly.trans {x y z : Dev} (h : x.caOnly y) (k : y.caOnly z) : x.caOnly z := by
  obtain ⟨hy, hphy⟩ := h
  obtain ⟨hz, kphy⟩ := k
  refine ⟨by rw [hz, hy], fun o => ?_⟩
  obtain ⟨halert, hretry, hwr⟩ := hphy o
  obtain ⟨kalert, kretry, kwr⟩ := kphy o
  exact ⟨kalert.trans halert, kretry.trans hretry, kwr.trans hwr⟩

theorem Dev.caOnly_modPhy (d : Dev) (b : Fin 8) {f : Phy → Phy}
    (h : ∀ x, (f x).alert = x.alert ∧ (f x).retry = x.retry ∧ (f x).lastWr = x.lastWr) : d.caOnly (d.modPhy b f) := by
  refine ⟨rfl, fun o => ?_⟩
  by_cases ho : o = b
  · rw [ho, Dev.modPhy_phys_same]
    exact h _
  · rw [Dev.modPhy_phys_ne _ _ _ ho]
    exact ⟨rfl, rfl, rfl⟩

theorem Dev.issue_caOnly (d : Dev) (b : Fin 8) (wait : Nat) (c : Cmd) : d.caOnly (d.issue b wait c) := by
  rw [Dev.issue, Dev.issueAt]
  exact d.caOnly_modPhy b fun _ => ⟨rfl, rfl, rfl⟩

theorem Dev.caFlush_caOnly (d : Dev) (b : Fin 8) : d.caOnly (d.caFlush b) := by
  unfold Dev.caFlush
  split
  · exact d.caOnly_refl
  · exact Dev.each_keeps d.caOnly _ (fun c y hy => hy.trans (y.issue_caOnly b 0 c)) _ _
      (d.caOnly_modPhy b fun _ => ⟨rfl, rfl, rfl⟩)

/-- The one burst of the retry buffer that may be resent is written again, counted, and stays in the buffer. -/
theorem Dev.resend_single {d : Dev} {b : Fin 8} {u : Burst} (h : u.resent < d.cfgLe Sec.population 0 1) :
    (d.resend b [u] []).rf = (d.bump (A.crc b.val) 24 24).rf ∧
    ((d.resend b [u] []).phys[b]).alert = (d.phys[b]).alert ∧
    ((d.resend b [u] []).phys[b]).retry = [{ u with resent := u.resent + 1 }] ∧
    ((d.resend b [u] []).phys[b]).lastWr = some u.words := by
  rw [Dev.resend, if_neg (Nat.not_le.mpr h)]
  extract_lets d1
  have halert : (d1.phys[b]).alert = (d.phys[b]).alert := ((Dev.issue_caOnly _ b _ _).2 b).1
  simp only [Dev.resend, Dev.modPhy_phys_same, halert]
  exact ⟨rfl, trivial, rfl, trivial⟩

/-- ALERT_N is high again. -/
def Dev.alertBack (d : Dev) (b : Fin 8) : Dev := d.modPhy b (fun x => { x with alert := .idle })

/-- With the pin high again the one burst held is written again, ahead of what waited for the bus. -/
theorem alertRise_resends (s : State) (b : Fin 8) (u : Burst) (hlive : s.dev.live = true) (hlow : (s.dev.phys[b]).alert = .low)
    (hretry : (s.dev.phys[b]).retry = [u]) (hleft : u.resent < s.dev.cfgLe Sec.population 0 1) :
    ∃ d : Dev, exec (.alertRise b) s = .next { s with dev := d } ∧ (d.phys[b]).alert = .idle ∧
      (d.phys[b]).retry = [{ u with resent := u.resent + 1 }] ∧ (d.phys[b]).lastWr = some u.words ∧
      d.fldR (A.crc b.val) 24 24 = min (s.dev.fldR (A.crc b.val) 24 24 + 1) (2 ^ 24 - 1) ∧ s.dev.regsBut d [A.crc b.val] := by
  have hhigh : s.dev.alertHigh b = ((s.dev.alertBack b).resend b [u] []).caFlush b := by
    rw [Dev.alertHigh, hlow, hretry, Dev.alertBack]
  obtain ⟨hrf, halert, hkept, hwr⟩ := Dev.resend_single (d := s.dev.alertBack b) (b := b) (u := u) hleft
  obtain ⟨hflush, hphy⟩ := ((s.dev.alertBack b).resend b [u] []).caFlush_caOnly b
  obtain ⟨falert, fkept, fwr⟩ := hphy b
  have hreg (a : Nat) : (((s.dev.alertBack b).resend b [u] []).caFlush b).reg a = (s.dev.bump (A.crc b.val) 24 24).reg a := by
    rw [hflush]
    exact Dev.reg_of_rf hrf a
  refine ⟨_, devNext_of_live _ hlive, ?_⟩
  rw [hhigh]
  refine ⟨falert.trans (halert.trans ?_), fkept.trans hkept, fwr.trans hwr, ?_, fun a ha => ?_⟩
  · rw [Dev.alertBack, Dev.modPhy_phys_same]
  · exact (congrArg (fld · 24 24) (hreg _)).trans (s.dev.fldR_bump_same (A.crc b.val) 24 24 (by decide) (by decide))
  · exact (hreg a).trans (s.dev.bump_regsBut _ _ _ a ha)

/-! ### The window and a stuck alert (R179, R181, R182) -/

theorem alertRise_of_stuck (s : State) (b : Fin 8) (hlive : s.dev.live = true) (hstuck : (s.dev.phys[b]).alert = .stuck) :
    exec (.alertRise b) s =
      .next { s with dev := s.dev.modPhy b (fun x => { x with riseAt := some (s.dev.now (subPort b)) }) } := by
  refine exec_of_devNext hlive (congrArg (devNext s) ?_)
  rw [Dev.alertHigh, hstuck]

theorem alertWinClose_drops (s : State) (b : Fin 8) (hlive : s.dev.live = true) (h : (s.dev.phys[b]).alert ≠ .low) :
    exec (.alertWinClose b) s = .next { s with dev := s.dev.modPhy b (fun x => { x with retry := x.retry.drop 1 }) } :=
  exec_of_devNext hlive (congrArg (devNext s) (if_neg h))

theorem alertStuck_reports (s : State) (b : Fin 8) (hlive : s.dev.live = true) (hlow : (s.dev.phys[b]).alert = .low) :
    let d := s.dev.modPhy b (fun x => { x with alert := .stuck, riseAt := none })
    exec (.alertStuck b) s = .next { s with dev := (d.fault (88 + b.val) (phyReport 1 (coordCtl 0x06 b.val))).caFlush b } :=
  exec_of_devNext hlive (congrArg (devNext s) (if_pos (by rw [hlow]; rfl)))

/-- Settles O35, from the fall of ALERT_N, its rise, the end of a window, and an alert that stays. -/
theorem alertsResendWrites : Obligations.AlertsResendWrites :=
  ⟨alertFall_counts, alertRise_resends, alertRise_of_stuck, alertWinClose_drops, alertStuck_reports⟩

end Sys2Proof.Machine
end

section
/-! SUPPORT. The DRAM-side buffer: test operations (R184, R187 to R189) and tiles in service (R178). -/

namespace Sys2Proof.Machine

/-! ### The command of a test operation (Table 7.6) -/

/-- A test command writes TEST_CMD with its operation in OP. -/
theorem exec_testOp {i : Instr} {m : Master} {b : Fin 8} {v : Word} {op : Nat} (h : testOpOf i = some (m, b, v, op)) (s : State) :
    exec i s = devNext s (s.testCmd m b v op) ∧ 1 ≤ op ∧ op ≤ 8 := by
  unfold testOpOf at h
  split at h
  case h_9 => cases h
  all_goals
    cases h
    exact ⟨rfl, by decide, by decide⟩

section
variable {op : Nat} (v : Word) (hop : op ≤ 8)

include hop in
theorem fld_putOp : fld (put v 0 4 op) 0 4 = op := by
  rw [fld_put_same _ _ _ _ (by decide) (by decide), Nat.mod_eq_of_lt (by omega)]

variable (op)

theorem fld_putOp_repeat : fld (put v 0 4 op) 40 8 = fld v 40 8 :=
  fld_put_other _ _ _ _ _ _ (by decide) (by decide) (by decide)

theorem testTile_putOp (b : Fin 8) : testTile b (put v 0 4 op) = testTile b v := by
  rw [testTile, fld_put_other _ _ _ _ _ _ (by decide) (by decide) (by decide), testTile]

end

/-! ### The write of TEST_CMD (R187, R188) -/

/-- The registers that the start of a test operation writes. -/
def testRegs (b : Fin 8) : List Nat := [A.testCmd b.val, A.testStat b.val, A.testErr b.val, A.testErrHi b.val]

theorem testErr_apart : ∀ b : Fin 8, A.testErr b.val ≠ A.testErrHi b.val ∧ A.testErr b.val ≠ A.testStat b.val := by decide

theorem dlyState_notMem_testRegs : ∀ (b : Fin 8) (t : Fin 16), A.dlyState t.val ∉ testRegs b := by decide

/-- TEST_CMD holds the command. -/
def Dev.testStored (d : Dev) (b : Fin 8) (w : Word) : Dev := d.setReg (A.testCmd b.val) (w &&& (ones 47 5 ||| ones 3 0))

/-- The operation is busy: its status and its errors start from zero. -/
def Dev.testBegun (d : Dev) (b : Fin 8) (w : Word) : Dev :=
  (((((d.testStored b w).setReg (A.testStat b.val) 0).setReg (A.testErr b.val) 0).setReg (A.testErrHi b.val) 0).setFld
    (A.testStat b.val) 47 1 1).modPhy b (fun x => { x with test := some w, testSent := false })

theorem within_of_le {lo hi x : Nat} (hlo : lo ≤ x) (hhi : x ≤ hi) : within lo hi x = true :=
  Bool.and_eq_true_iff.mpr ⟨decide_eq_true hlo, decide_eq_true hhi⟩

section
variable {d : Dev} {b : Fin 8} {w : Word} (hnone : (d.phys[b]).test = none) (hop : 1 ≤ fld w 0 4)
include hnone hop

/-- On a tile in service an operation that needs it out of service is rejected. -/
theorem Dev.testWrite_of_ready (hneeds : fld w 0 4 ≤ 6) (hready : d.ready (testTile b w) = true) :
    d.testWrite b w = (d.testStored b w).setFld (A.testStat b.val) 45 1 1 := by
  have hwithin : within 1 8 (fld w 0 4) = true := within_of_le hop (by omega)
  simp only [Dev.testWrite, hnone, hwithin, hneeds, hready]
  rfl

/-- Otherwise it is busy, and its command leaves where it may. -/
theorem Dev.testWrite_of_begins (hle : fld w 0 4 ≤ 8) (hmay : 6 < fld w 0 4 ∨ d.ready (testTile b w) = false)
    (hrep : fld w 40 8 ≠ 0) (hfence : d.subFenced b = false) : d.testWrite b w =
      if !d.ready (testTile b w) && ((d.testBegun b w).testMay (subPort b) b).isSome then (d.testBegun b w).testSend b w
      else d.testBegun b w := by
  have hwithin : within 1 8 (fld w 0 4) = true := within_of_le hop hle
  have hno : (decide (fld w 0 4 ≤ 6) && d.ready (testTile b w)) = false := by
    obtain h | h := hmay
    · rw [decide_eq_false (Nat.not_le.mpr h), Bool.false_and]
    · rw [h, Bool.and_false]
  have hfence' : ((((d.testStored b w).setReg (A.testStat b.val) 0).setReg (A.testErr b.val) 0).setReg
    (A.testErrHi b.val) 0).subFenced b = false := hfence
  unfold Dev.testWrite
  rw [hnone, if_neg (by decide)]
  extract_lets d1 op t d2 d3
  rw [hwithin, if_neg (by decide), hno, if_neg (by decide), if_neg hrep]
  exact if_neg (ne_true_of_eq_false hfence')

end

section
variable (d : Dev) (b : Fin 8) (w : Word)

@[simp] theorem Dev.testBegun_on : (d.testBegun b w).on = d.on := by simp [Dev.testBegun, Dev.testStored]

@[simp] theorem Dev.testBegun_flt : (d.testBegun b w).flt = d.flt := by simp [Dev.testBegun, Dev.testStored]

@[simp] theorem Dev.testBegun_ports : (d.testBegun b w).ports = d.ports := by simp [Dev.testBegun, Dev.testStored]

@[simp] theorem Dev.testBegun_cals : (d.testBegun b w).cals = d.cals := by simp [Dev.testBegun, Dev.testStored]

@[simp] theorem Dev.testBegun_tiles : (d.testBegun b w).tiles = d.tiles := by simp [Dev.testBegun, Dev.testStored]

theorem Dev.testBegun_phy : (d.testBegun b w).phys[b] = { d.phys[b] with test := some w, testSent := false } := by
  rw [Dev.testBegun, Dev.modPhy_phys_same]
  rfl

theorem Dev.testBegun_regsBut : d.regsBut (d.testBegun b w) (testRegs b) := by
  intro a ha
  simp only [testRegs, List.mem_cons, List.not_mem_nil, or_false, not_or] at ha
  obtain ⟨hcmd, hstat, herr, herrHi⟩ := ha
  simp [Dev.testBegun, Dev.testStored, hcmd, hstat, herr, herrHi]

theorem Dev.testBegun_busy : (d.testBegun b w).fldR (A.testStat b.val) 47 1 = 1 := by
  rw [Dev.fldR, Dev.testBegun, Dev.modPhy_reg]
  exact Dev.fldR_setFld_same _ _ 47 1 1 (by decide) (by decide)

theorem Dev.testBegun_testErr : (d.testBegun b w).reg (A.testErr b.val) = 0 := by
  obtain ⟨herrHi, hstat⟩ := testErr_apart b
  simp [Dev.testBegun, herrHi, hstat]

theorem Dev.testBegun_ready (t : Fin 16) : (d.testBegun b w).ready t = d.ready t :=
  congrArg (bit · 0) (d.testBegun_regsBut b w _ (dlyState_notMem_testRegs b t))

variable {d b}

theorem Dev.testBegun_caOpen (h : d.caOpen b = true) : (d.testBegun b w).caOpen b = true := by
  simp only [Dev.caOpen, Bool.and_eq_true] at h
  obtain ⟨⟨halert, -⟩, hturn⟩ := h
  simp only [Dev.caOpen, Dev.testBegun_phy, Dev.now, Dev.testBegun_ports]
  exact Bool.and_eq_true_iff.mpr ⟨Bool.and_eq_true_iff.mpr ⟨halert, rfl⟩, hturn⟩

/-- On a free subchannel whose tile is out of service a busy operation may start. -/
theorem Dev.testBegun_testMay (hlive : d.live = true) (hfence : d.subFenced b = false) (hready : d.ready (testTile b w) = false)
    (hopen : d.caOpen b = true) (hpause : (d.cals[subPort b]).pause = false) (hsr : (d.tiles[testTile b w]).inSr = false) :
    (d.testBegun b w).testMay (subPort b) b = some w := by
  rw [Dev.live, Bool.and_eq_true] at hlive
  obtain ⟨hon, -⟩ := hlive
  rw [Dev.subFenced] at hfence
  simp only [Dev.testMay, Dev.testBegun_phy, Dev.testBegun_caOpen w hopen, Dev.testBegun_cals, hpause, Dev.testBegun_tiles,
    hsr, Dev.testBegun_on, hon, Dev.subFenced, Dev.testBegun_flt, hfence, d.testBegun_ready, hready]
  rfl

theorem Dev.testSend_test (d : Dev) (b : Fin 8) : ((d.testSend b w).phys[b]).test = (d.phys[b]).test := by
  rw [Dev.testSend, Dev.modPhy_phys_same, Dev.issue, Dev.issueAt, Dev.modPhy_phys_same]

theorem Dev.testSend_reg (d : Dev) (b : Fin 8) (a : Nat) : (d.testSend b w).reg a = d.reg a := by
  rw [Dev.testSend, Dev.modPhy_reg, Dev.issue, Dev.issueAt, Dev.modPhy_reg]

theorem Dev.testSend_leaves (d : Dev) (b : Fin 8) : ((d.testSend b w).phys[b]).testSent = true ∧
    ((d.testSend b w).phys[b]).lastCmd = some (testCmdOf b w) := by
  rw [Dev.testSend, Dev.modPhy_phys_same]
  exact ⟨rfl, Dev.issue_lastCmd _ _ _ _⟩

end

/-- Nobody but those that R189 names starts a test operation. -/
theorem exec_testOp_of_not_writer {s : State} {i : Instr} {m : Master} {b : Fin 8} {v : Word} {op : Nat} (hlive : s.dev.live = true)
    (hi : testOpOf i = some (m, b, v, op)) (hm : s.testWriter m = false) : exec i s = .next s := by
  obtain ⟨hexec, -, -⟩ := exec_testOp hi s
  rw [hexec, State.testCmd, hm, if_neg (by decide)]
  exact devNext_of_live _ hlive

section
variable {s : State} {i : Instr} {m : Master} {b : Fin 8} {v : Word} {op : Nat} (hlive : s.dev.live = true)
  (hi : testOpOf i = some (m, b, v, op)) (hm : s.testWriter m = true)
include hlive hi hm

theorem exec_testOp_of_writer : exec i s = .next { s with dev := s.dev.testWrite b (put v 0 4 op) } := by
  obtain ⟨hexec, -, -⟩ := exec_testOp hi s
  exact exec_of_devNext hlive (hexec.trans (congrArg (devNext s) (if_pos hm)))

variable (hnone : (s.dev.phys[b]).test = none)
include hnone

/-- On a tile in service it sets REJECT and no more. -/
theorem exec_testOp_rejected (hneeds : op ≤ 6) (hready : s.dev.ready (testTile b v) = true) :
    ∃ d : Dev, exec i s = .next { s with dev := d } ∧
      d.phys = s.dev.phys ∧ d.fldR (A.testStat b.val) 45 1 = 1 ∧ s.dev.regsBut d [A.testCmd b.val, A.testStat b.val] := by
  obtain ⟨-, hpos, hle⟩ := exec_testOp hi s
  have hop := fld_putOp v hle
  have hwrite := Dev.testWrite_of_ready (w := put v 0 4 op) hnone (by rw [hop]; exact hpos) (by rw [hop]; exact hneeds)
    (by rw [testTile_putOp]; exact hready)
  refine ⟨_, exec_testOp_of_writer hlive hi hm, ?_⟩
  rw [hwrite]
  refine ⟨rfl, Dev.fldR_setFld_same _ _ 45 1 1 (by decide) (by decide), fun a ha => ?_⟩
  simp only [List.mem_cons, List.not_mem_nil, or_false, not_or] at ha
  obtain ⟨hcmd, hstat⟩ := ha
  rw [Dev.reg_setFld, if_neg hstat, Dev.testStored, Dev.reg_setReg, if_neg hcmd]

/-- Otherwise it is busy with its errors cleared; on a free subchannel whose tile is out of service its command leaves. -/
theorem exec_testOp_begins (hmay : 6 < op ∨ s.dev.ready (testTile b v) = false) (hrep : fld v 40 8 ≠ 0)
    (hfence : s.dev.subFenced b = false) :
    ∃ d : Dev, exec i s = .next { s with dev := d } ∧ (d.phys[b]).test = some (put v 0 4 op) ∧
      d.fldR (A.testStat b.val) 47 1 = 1 ∧ d.reg (A.testErr b.val) = 0 ∧
      s.dev.regsBut d [A.testCmd b.val, A.testStat b.val, A.testErr b.val, A.testErrHi b.val] ∧
      (s.dev.ready (testTile b v) = false → (s.dev.phys[b]).testSent = false → s.dev.caOpen b = true →
        (s.dev.cals[subPort b]).pause = false → (s.dev.tiles[testTile b v]).inSr = false →
        (d.phys[b]).testSent = true ∧ (d.phys[b]).lastCmd = some (testCmdOf b (put v 0 4 op))) := by
  obtain ⟨-, hpos, hle⟩ := exec_testOp hi s
  have hop := fld_putOp v hle
  have htile := testTile_putOp op v b
  have hwrite := Dev.testWrite_of_begins (w := put v 0 4 op) hnone (by rw [hop]; exact hpos) (by rw [hop]; exact hle)
    (by rw [hop, htile]; exact hmay) (by rw [fld_putOp_repeat]; exact hrep) hfence
  refine ⟨_, exec_testOp_of_writer hlive hi hm, ?_⟩
  rw [hwrite]
  generalize put v 0 4 op = w at *
  have hbusy := s.dev.testBegun_busy b w
  have herr := s.dev.testBegun_testErr b w
  have hregs := s.dev.testBegun_regsBut b w
  have htest : ((s.dev.testBegun b w).phys[b]).test = some w := by rw [Dev.testBegun_phy]
  split
  next =>
    obtain ⟨hsent, hcmd⟩ := Dev.testSend_leaves w (s.dev.testBegun b w) b
    have hreg := Dev.testSend_reg w (s.dev.testBegun b w) b
    exact ⟨(Dev.testSend_test w _ b).trans htest, (congrArg (fld · 47 1) (hreg _)).trans hbusy, (hreg _).trans herr,
      fun a ha => (hreg a).trans (hregs a ha), fun _ _ _ _ _ => ⟨hsent, hcmd⟩⟩
  next hwaits =>
    refine ⟨htest, hbusy, herr, hregs, fun hready _ hopen hpause hsr => absurd ?_ hwaits⟩
    have hsr' : (s.dev.tiles[testTile b w]).inSr = false := by simpa only [htile] using hsr
    rw [← htile] at hready
    rw [hready, Dev.testBegun_testMay w hlive hfence hready hopen hpause hsr']
    rfl

end

/-! ### The end of a sample (R187, R188) -/

/-- The operation is over, and DONE. -/
def Dev.testOver (d : Dev) (b : Fin 8) (v : Word) : Dev :=
  ((d.modPhy b (fun x => { x with
    test := none, testSent := false, turnUntil := d.now (subPort b) + d.turnaround (testTile b v) (fld v 0 4) })).setFld
      (A.testStat b.val) 47 1 0).setFld (A.testStat b.val) 46 1 1

theorem Dev.testDone_of_wlevel {d : Dev} {b : Fin 8} {v : Word} (htest : (d.phys[b]).test = some v)
    (hsent : (d.phys[b]).testSent = true) (hop : fld v 0 4 = 3) (smp : BitVec 13) :
    d.testDone b smp [] = (d.testOver b v).setFld (A.testStat b.val) 26 13 smp.toNat := by
  simp only [Dev.testDone, htest, hsent, hop, Dev.testOver]
  rfl

/-- A write levelling that ends is DONE, its sample kept. -/
theorem testOpDone_samples (s : State) (b : Fin 8) (v : Word) (smp : BitVec 13) (hlive : s.dev.live = true)
    (htest : (s.dev.phys[b]).test = some v) (hsent : (s.dev.phys[b]).testSent = true) (hop : fld v 0 4 = 3) :
    ∃ d : Dev, exec (.testOpDone b smp []) s = .next { s with dev := d } ∧ (d.phys[b]).test = none ∧
      d.fldR (A.testStat b.val) 47 1 = 0 ∧ d.fldR (A.testStat b.val) 46 1 = 1 ∧
      d.fldR (A.testStat b.val) 26 13 = smp.toNat ∧ s.dev.regsBut d [A.testStat b.val] := by
  refine ⟨_, devNext_of_live _ hlive, ?_⟩
  rw [Dev.testDone_of_wlevel htest hsent hop]
  have hother {lo : Nat} (h : 39 ≤ lo) : ((s.dev.testOver b v).setFld (A.testStat b.val) 26 13 smp.toNat).fldR (A.testStat b.val) lo 1
      = (s.dev.testOver b v).fldR (A.testStat b.val) lo 1 :=
    Dev.fldR_setFld_other _ _ 26 13 _ lo 1 (by decide) (by decide) (.inr h)
  refine ⟨?_, (hother (by decide)).trans ?_, (hother (by decide)).trans ?_, ?_, ?_⟩
  · rw [Dev.setFld_phys, Dev.testOver, Dev.setFld_phys, Dev.setFld_phys, Dev.modPhy_phys_same]
  · rw [Dev.testOver, Dev.fldR_setFld_other _ _ 46 1 _ 47 1 (by decide) (by decide) (by decide)]
    exact Dev.fldR_setFld_same _ _ 47 1 0 (by decide) (by decide)
  · rw [Dev.testOver]
    exact Dev.fldR_setFld_same _ _ 46 1 1 (by decide) (by decide)
  · exact Dev.fldR_setFld_fits _ _ (by decide) (by decide) smp.isLt
  · intro a ha
    have hne := List.mem_singleton.not.mp ha
    rw [Dev.reg_setFld, if_neg hne, Dev.testOver, Dev.reg_setFld, if_neg hne, Dev.reg_setFld, if_neg hne, Dev.modPhy_reg]

/-! ### Tiles in service (R178) -/

/-- READY of a present tile is what was written to it. -/
theorem tileReadyWrite_sets (s : State) (m : Master) (t : Fin 16) (v : Word) (hlive : s.dev.live = true)
    (hpres : s.dev.present t = true) :
    ∃ d : Dev, exec (.tileReadyWrite m t v) s = .next { s with dev := d } ∧ d.ready t = bit v 0 ∧
      d = { s.dev with rf := d.rf } ∧ s.dev.regsBut d [A.dlyState t.val] := by
  refine ⟨_, exec_of_devNext hlive (congrArg (devNext s) (if_pos hpres)), ?_, rfl, Dev.setFld_regsBut _ _ _ _ _⟩
  rw [Dev.ready, Dev.reg_setFld, if_pos rfl, bit, put_getLsbD _ _ _ _ _ (by decide) (by decide), if_pos (by decide), fld_testBit]
  rfl

/-- Settles O36, from the masters that start no operation, an operation rejected, one that begins, a sample's end, and READY. -/
theorem testOperations : Obligations.TestOperations :=
  ⟨fun _ _ _ _ _ _ hlive hi => ⟨exec_testOp_of_not_writer hlive hi, fun hm hnone =>
      ⟨exec_testOp_rejected hlive hi hm hnone, exec_testOp_begins hlive hi hm hnone⟩⟩,
    testOpDone_samples, tileReadyWrite_sets⟩

end Sys2Proof.Machine
end

section
/-! SUPPORT. The DRAM-side buffer: calibration (R190 to R194). -/

namespace Sys2Proof.Machine

/-! ### The pause (R190, Table 7.7) -/

/-- ZQCal commands leave all but the command bus. -/
theorem Dev.zqAll_onlyCommands (d : Dev) (p : Fin 4) (kind : CmdKind) : d.onlyCommands (d.zqAll p kind) := by
  refine Dev.each_onlyCommands (fun t x => ?_) _ d
  split
  · exact x.layerSend_onlyCommands t kind 0 0
  · exact x.onlyCommands_refl

theorem Dev.onlyCommands.ports {x y : Dev} (h : x.onlyCommands y) : y.ports = x.ports := by
  obtain ⟨_, _, _, rfl⟩ := h
  rfl

/-- The tiles of the port with open rows are precharged. -/
def Dev.calPrecharged (d : Dev) (p : Fin 4) : Dev :=
  Dev.each (fun t x => if x.rowsOpen t then x.prechargeTile t else x) (portTiles p) d

theorem Dev.calPrecharged_closed (d : Dev) {p : Fin 4} {t : Fin 16} (ht : t ∈ portTiles p) :
    ((d.calPrecharged p).ports[p]).tileClosed t := by
  obtain rfl := tilePort_of_mem p t ht
  refine Dev.each_reaches (P := fun _ => True) (Q := fun x => (x.ports[tilePort t]).tileClosed t) ht (fun _ _ _ => trivial)
    (fun x _ => ?_) (fun u x hx => ?_) trivial
  · split
    next => exact x.prechargeTile_closes t
    next hrows => exact Dev.tileClosed_of_not_rowsOpen (Bool.eq_false_iff.mpr hrows)
  · split
    · exact x.prechargeTile_keeps_closed u hx
    · exact hx

/-- Tile number `j` of a port is among its tiles. -/
theorem exists_portTile (p : Fin 4) {j : Nat} (hj : j < 4) : ∃ t ∈ portTiles p, j = t.val % 4 := by
  refine ⟨Fin.ofNat 16 (4 * p.val + j), List.mem_map_of_mem (List.mem_range.mpr hj), ?_⟩
  have hval : (Fin.ofNat 16 (4 * p.val + j)).val = (4 * p.val + j) % 16 := rfl
  omega

theorem Dev.calPause_closes (d : Dev) (p : Fin 4) : ((d.calPause p).cals[p]).pause = true ∧
    ∀ k, k / 256 < 4 → (sget Bank.closed ((d.calPause p).ports[p]).banks k).row = none := by
  have hpause : d.calPause p =
      ((d.calPrecharged p).zqAll p .zqStart).modCal p (fun x => { x with pause := true, queued := false }) := rfl
  rw [hpause, Dev.modCal_cals_same, Dev.modCal_ports, ((d.calPrecharged p).zqAll_onlyCommands p .zqStart).ports]
  refine ⟨rfl, fun k hk => ?_⟩
  obtain ⟨t, ht, htile⟩ := exists_portTile p hk
  exact (d.calPrecharged_closed ht).row htile

/-! ### The start (R190, R193) -/

/-- A start on a port that runs pauses it, or waits while another port is paused. -/
theorem Dev.calStart_of_running {d : Dev} {p : Fin 4} (hpause : (d.cals[p]).pause = false) (hqueued : (d.cals[p]).queued = false)
    (hrun : (d.ports[p]).sr = .run) (hstate : d.pwrState = 0) (hphase : d.pwrPhase = 0) : d.calStart p =
      if allPorts.any (fun q => (d.cals[q]).pause) then d.modCal p (fun x => { x with queued := true }) else d.calPause p := by
  rw [Dev.calStart, hpause, hqueued, if_neg (by decide)]
  exact if_neg (by rw [hrun, hstate, hphase]; decide)

/-- A start pauses the port with its rows closed, or waits for the port that is paused. -/
theorem calStart_pauses_or_waits (s : State) (m : Master) (p : Fin 4) (v : Word) (hlive : s.dev.live = true) (hv : bit v 0 = true)
    (hpause : (s.dev.cals[p]).pause = false) (hqueued : (s.dev.cals[p]).queued = false) (hrun : (s.dev.ports[p]).sr = .run)
    (hstate : s.dev.pwrState = 0) (hphase : s.dev.pwrPhase = 0) :
    ((∀ q : Fin 4, (s.dev.cals[q]).pause = false) → ∃ d : Dev, exec (.calStart m p v) s = .next { s with dev := d } ∧
      (d.cals[p]).pause = true ∧ ∀ k, k / 256 < 4 → (sget Bank.closed (d.ports[p]).banks k).row = none) ∧
    (∀ q : Fin 4, (s.dev.cals[q]).pause = true → exec (.calStart m p v) s =
      .next { s with dev := s.dev.modCal p (fun x => { x with queued := true }) }) := by
  have hstart := Dev.calStart_of_running hpause hqueued hrun hstate hphase
  refine ⟨fun hnone => ?_, fun q hq => ?_⟩
  · have hany : allPorts.any (fun q => (s.dev.cals[q]).pause) = false :=
      List.any_eq_false.mpr fun q _ => ne_true_of_eq_false (hnone q)
    rw [hany, if_neg (by decide)] at hstart
    exact ⟨_, exec_of_devNext hlive (congrArg (devNext s) ((if_pos hv).trans hstart)), s.dev.calPause_closes p⟩
  · have hany : allPorts.any (fun q => (s.dev.cals[q]).pause) = true :=
      List.any_eq_true.mpr ⟨q, List.mem_finRange q, hq⟩
    rw [hany, if_pos rfl] at hstart
    exact exec_of_devNext hlive (congrArg (devNext s) ((if_pos hv).trans hstart))

/-! ### The reference check (R191) -/

/-- Two halves packed read as each of them. -/
theorem fld_pack_halves (hi lo : BitVec 16) : fld (pack [(16, hi.toNat), (0, lo.toNat)]) 16 16 = hi.toNat ∧
    fld (pack [(16, hi.toNat), (0, lo.toNat)]) 0 16 = lo.toNat := by
  have hbit (i : Nat) : (pack [(16, hi.toNat), (0, lo.toNat)]).getLsbD i = if i < 16 then lo.getLsbD i else hi.getLsbD (i - 16) := by
    rw [pack, pack, pack, BitVec.getLsbD_or, BitVec.getLsbD_or, BitVec.getLsbD_ofNat, BitVec.getLsbD_ofNat, Nat.testBit_shiftLeft,
      Nat.testBit_shiftLeft, BitVec.testBit_toNat, BitVec.testBit_toNat]
    by_cases h : i < 16
    · simp [h, show ¬ 16 ≤ i by omega, show i < 48 by omega]
    · by_cases hi48 : i < 48
      · simp [h, hi48, show 16 ≤ i by omega]
      · simp [h, hi48, BitVec.getLsbD_of_ge hi (i - 16) (by omega)]
  refine ⟨Nat.eq_of_testBit_eq fun i => ?_, Nat.eq_of_testBit_eq fun i => ?_⟩
  · rw [fld_testBit, hbit, if_neg (by omega), Nat.add_sub_cancel_left, BitVec.testBit_toNat]
    by_cases h : i < 16
    · simp [h]
    · simp [h, BitVec.getLsbD_of_ge hi i (by omega)]
  · rw [fld_testBit, hbit, BitVec.testBit_toNat, Nat.zero_add]
    by_cases h : i < 16
    · simp [h]
    · simp [h, BitVec.getLsbD_of_ge lo i (by omega)]

/-- A reference within 3 % of nominal is recorded, and the run goes on. -/
theorem calRefCheck_passes (s : State) (p : Fin 4) (res vref : BitVec 16) (hlive : s.dev.live = true)
    (hpause : (s.dev.cals[p]).pause = true) (hresLo : 23280 ≤ res.toNat) (hresHi : res.toNat ≤ 24720)
    (hvrefLo : 5820 ≤ vref.toNat) (hvrefHi : vref.toNat ≤ 6180) :
    ∃ d : Dev, exec (.calRefCheck p res vref) s = .next { s with dev := d } ∧ d = { s.dev with rf := d.rf } ∧
      d.fldR (A.calRef p.val) 16 16 = res.toNat ∧ d.fldR (A.calRef p.val) 0 16 = vref.toNat ∧
      s.dev.regsBut d [A.calRef p.val] := by
  have hexec : exec (.calRefCheck p res vref) s =
      .next { s with dev := s.dev.setReg (A.calRef p.val) (pack [(16, res.toNat), (0, vref.toNat)]) } := by
    refine exec_of_devNext hlive (congrArg (devNext s) ?_)
    rw [hpause, if_neg (by decide)]
    exact if_pos (Bool.and_eq_true_iff.mpr ⟨within_of_le hresLo hresHi, within_of_le hvrefLo hvrefHi⟩)
  obtain ⟨hres, hvref⟩ := fld_pack_halves res vref
  refine ⟨_, hexec, rfl, ?_, ?_, fun a ha => ?_⟩
  · rw [Dev.fldR, Dev.reg_setReg, if_pos rfl, hres]
  · rw [Dev.fldR, Dev.reg_setReg, if_pos rfl, hvref]
  · rw [Dev.reg_setReg, if_neg (List.mem_singleton.not.mp ha)]

/-! ### The end of the pause (R190, R194) -/

/-- `y` is `x` but for the command bus, the tiles and the count of Geysers of port `p`. -/
def Dev.refreshesOnly (p : Fin 4) (x y : Dev) : Prop :=
  (∃ phys shadow ctr tiles rf, y = { x with phys := phys, mrShadow := shadow, freeCtr := ctr, tiles := tiles, rf := rf }) ∧
    x.regsBut y [A.refCount p.val]

theorem Dev.refreshesOnly.trans {p : Fin 4} {x y z : Dev} (h : Dev.refreshesOnly p x y) (k : Dev.refreshesOnly p y z) :
    Dev.refreshesOnly p x z := by
  obtain ⟨⟨_, _, _, _, _, rfl⟩, hregs⟩ := h
  obtain ⟨⟨phys, shadow, ctr, tiles, rf, rfl⟩, kregs⟩ := k
  exact ⟨⟨phys, shadow, ctr, tiles, rf, rfl⟩, hregs.trans kregs⟩

theorem Dev.refreshesOnly.calm {p : Fin 4} {x y : Dev} (h : Dev.refreshesOnly p x y) (hc : x.calm) : y.calm := by
  obtain ⟨⟨_, _, _, _, _, rfl⟩, -⟩ := h
  exact hc

theorem Dev.refreshesOnly.cals {p : Fin 4} {x y : Dev} (h : Dev.refreshesOnly p x y) : y.cals = x.cals := by
  obtain ⟨⟨_, _, _, _, _, rfl⟩, -⟩ := h
  rfl

section
variable (d : Dev) (p : Fin 4)

theorem Dev.refreshesOnly_refl : Dev.refreshesOnly p d d := ⟨⟨_, _, _, _, _, rfl⟩, fun _ _ => rfl⟩

theorem Dev.modTile_refreshesOnly (t : Fin 16) (f : Tile → Tile) : Dev.refreshesOnly p d (d.modTile t f) :=
  ⟨⟨_, _, _, _, _, rfl⟩, fun _ _ => rfl⟩

theorem Dev.geyserAll_refreshesOnly : Dev.refreshesOnly p d (d.geyserAll p) := by
  unfold Dev.geyserAll
  extract_lets owes
  split
  · refine Dev.refreshesOnly.trans (y := Dev.each _ (portTiles p) d) ?_ ⟨⟨_, _, _, _, _, rfl⟩, Dev.bump_regsBut _ _ _ _⟩
    refine Dev.each_keeps (Dev.refreshesOnly p d) _ (fun t y hy => ?_) _ _ (d.refreshesOnly_refl p)
    split
    · exact hy.trans (y.modTile_refreshesOnly p t _)
    · exact hy
  · exact d.refreshesOnly_refl p

theorem Dev.latchAll_refreshesOnly (l : List (Fin 16)) : Dev.refreshesOnly p d (Dev.each (fun t x => x.latchForced t) l d) := by
  refine Dev.each_keeps (Dev.refreshesOnly p d) _ (fun t y hy => ?_) _ _ (d.refreshesOnly_refl p)
  rw [Dev.latchForced_eq]
  exact hy.trans (y.modTile_refreshesOnly p t _)

end

/-- A calibration that has left its pause. -/
def Cal.resumed (x : Cal) : Cal := { x with pause := false }

/-- With no run queued the port resumes, and its tiles are refreshed. -/
theorem Dev.calResume_of_noneQueued {d : Dev} (p : Fin 4) (h : ∀ q : Fin 4, (d.cals[q]).queued = false) :
    Dev.refreshesOnly p (d.modCal p Cal.resumed) (d.calResume p) := by
  unfold Dev.calResume
  extract_lets d1 d2
  have h2 : Dev.refreshesOnly p (d.modCal p Cal.resumed) d2 := by
    refine Dev.refreshesOnly.trans (y := (d.zqAll p .zqLatch).modCal p Cal.resumed) ?_
      ((Dev.geyserAll_refreshesOnly _ p).trans (d1.latchAll_refreshesOnly p (portTiles p)))
    obtain ⟨_, _, _, hzq⟩ := d.zqAll_onlyCommands p .zqLatch
    rw [hzq]
    exact ⟨⟨_, _, _, _, _, rfl⟩, fun _ _ => rfl⟩
  have hnone : allPorts.find? (fun q => (d2.cals[q]).queued) = none := by
    refine List.find?_eq_none.mpr fun q _ => ne_true_of_eq_false ?_
    rw [h2.cals]
    by_cases hq : q = p
    · rw [hq, Dev.modCal_cals_same]
      exact h p
    · rw [Dev.modCal_cals_ne _ _ _ hq]
      exact h q
  rw [hnone]
  exact h2

/-- The run ends DONE and is counted, with the temperature at its end. -/
def Dev.calDone (d : Dev) (p : Fin 4) : Dev :=
  (((d.setFld (A.calStatus p.val) 0 4 1).bump (A.calStatus p.val) 32 16).setFld (A.calStatus p.val) 24 8 d.dieTemp).setFld
    (A.calStatus p.val) 16 1 0

theorem Dev.calDone_status (d : Dev) (p : Fin 4) : (d.calDone p).fldR (A.calStatus p.val) 0 4 = 1 ∧
    (d.calDone p).fldR (A.calStatus p.val) 16 1 = 0 ∧
    (d.calDone p).fldR (A.calStatus p.val) 32 16 = min (d.fldR (A.calStatus p.val) 32 16 + 1) 65535 := by
  unfold Dev.calDone
  refine ⟨?_, Dev.fldR_setFld_same _ _ 16 1 0 (by decide) (by decide), ?_⟩
  · rw [Dev.fldR_setFld_other _ _ 16 1 _ 0 4 (by decide) (by decide) (by decide),
      Dev.fldR_setFld_other _ _ 24 8 _ 0 4 (by decide) (by decide) (by decide),
      Dev.fldR_bump_other _ _ 32 16 0 4 (by decide) (by decide) (by decide)]
    exact Dev.fldR_setFld_same _ _ 0 4 1 (by decide) (by decide)
  · rw [Dev.fldR_setFld_other _ _ 16 1 _ 32 16 (by decide) (by decide) (by decide),
      Dev.fldR_setFld_other _ _ 24 8 _ 32 16 (by decide) (by decide) (by decide),
      Dev.fldR_bump_same _ _ 32 16 (by decide) (by decide),
      Dev.fldR_setFld_other _ _ 0 4 _ 32 16 (by decide) (by decide) (by decide)]
    rfl

/-- The codes that a run has found wait to land. -/
def Cal.withCodes (x : Cal) (c0 c1 : List (BitVec 6)) : Cal := { x with pend := #v[some c0, some c1], everDone := true }

/-- The device whose run on port `p` has ended, before it resumes. -/
def Dev.calEnded (d : Dev) (p : Fin 4) (c0 c1 : List (BitVec 6)) : Dev := (d.calDone p).modCal p (fun x => x.withCodes c0 c1)

section
variable (d : Dev) (p : Fin 4) (c0 c1 : List (BitVec 6))

theorem Dev.calEnded_cal : (d.calEnded p c0 c1).cals[p] = (d.cals[p]).withCodes c0 c1 := Dev.modCal_cals_same _ _ _

theorem Dev.calEnded_reg (a : Nat) : (d.calEnded p c0 c1).reg a = (d.calDone p).reg a := Dev.modCal_reg _ _ _ _

theorem Dev.calEnded_queued (q : Fin 4) : ((d.calEnded p c0 c1).cals[q]).queued = (d.cals[q]).queued := by
  by_cases hq : q = p
  · rw [hq, Dev.calEnded_cal]
    rfl
  · exact congrArg Cal.queued (Dev.modCal_cals_ne _ _ _ hq)

theorem Dev.calEnded_calm (h : d.calm) : (d.calEnded p c0 c1).calm := by
  simpa [Dev.calm, Dev.calEnded, Dev.calDone] using h

end

theorem calStatus_notMem_refCount : ∀ p : Fin 4, A.calStatus p.val ∉ [A.refCount p.val] := by decide

/-- The run ends: it is counted, its codes are kept, and the port resumes. -/
theorem calPauseEnd_counts (s : State) (p : Fin 4) (c0 c1 : List (BitVec 6)) (hlive : s.dev.live = true) (hcalm : s.dev.calm)
    (hpause : (s.dev.cals[p]).pause = true) (hnone : ∀ q : Fin 4, (s.dev.cals[q]).queued = false) :
    ∃ d : Dev, exec (.calPauseEnd p c0 c1) s = .next { s with dev := d } ∧ (d.cals[p]).pause = false ∧
      (d.cals[p]).pend = #v[some c0, some c1] ∧ (d.cals[p]).everDone = true ∧ d.fldR (A.calStatus p.val) 0 4 = 1 ∧
      d.fldR (A.calStatus p.val) 16 1 = 0 ∧
      d.fldR (A.calStatus p.val) 32 16 = min (s.dev.fldR (A.calStatus p.val) 32 16 + 1) 65535 := by
  have hexec : exec (.calPauseEnd p c0 c1) s = .next { s with dev := ((s.dev.calEnded p c0 c1).calResume p).enterQueues } := by
    refine exec_of_devNext hlive (congrArg (devNext s) ?_)
    rw [hpause, if_neg (by decide)]
    rfl
  have hresume := Dev.calResume_of_noneQueued (d := s.dev.calEnded p c0 c1) p
    fun q => (s.dev.calEnded_queued p c0 c1 q).trans (hnone q)
  have hcalm' : ((s.dev.calEnded p c0 c1).calResume p).calm := hresume.calm (s.dev.calEnded_calm p c0 c1 hcalm)
  have hcal : ((s.dev.calEnded p c0 c1).calResume p).cals[p] = ((s.dev.cals[p]).withCodes c0 c1).resumed := by
    rw [hresume.cals, Dev.modCal_cals_same, Dev.calEnded_cal]
  have hstatus (lo len : Nat) : ((s.dev.calEnded p c0 c1).calResume p).fldR (A.calStatus p.val) lo len =
      (s.dev.calDone p).fldR (A.calStatus p.val) lo len := by
    rw [Dev.fldR, hresume.2 _ (calStatus_notMem_refCount p), Dev.modCal_reg, Dev.calEnded_reg, Dev.fldR]
  refine ⟨_, hexec, ?_⟩
  rw [Dev.enterQueues_of_calm hcalm', hcal, hstatus, hstatus, hstatus]
  exact ⟨rfl, rfl, rfl, s.dev.calDone_status p⟩

/-! ### Codes land (R192) -/

theorem Dev.trimSet_cals (d : Dev) (p : Fin 4) (j : Fin 2) : (d.trimSet p j).cals = d.cals := by
  obtain ⟨⟨_, _, he⟩, -⟩ := d.trimSet_onlyPlainRegs p j
  rw [he]

/-- Codes that wait land at a quiet boundary. -/
theorem calTrimLand_lands (s : State) (b : Fin 8) (cs : List (BitVec 6)) (hlive : s.dev.live = true)
    (hpause : (s.dev.cals[subPort b]).pause = false) (hquiet : s.dev.trimQuiet b = true)
    (hpend : (s.dev.cals[subPort b]).pend[subHalf b] = some cs) :
    ∃ d : Dev, exec (.calTrimLand b) s = .next { s with dev := d } ∧ (d.cals[subPort b]).codes[subHalf b] = cs ∧
      (d.cals[subPort b]).pend[subHalf b] = none := by
  generalize hd0 : s.dev.modCal (subPort b) (fun x =>
    { x with codes := x.codes.set (subHalf b) cs, pend := x.pend.set (subHalf b) none }) = d0
  have hexec : exec (.calTrimLand b) s = .next { s with dev := d0.trimSet (subPort b) (subHalf b) } := by
    refine exec_of_devNext hlive (congrArg (devNext s) ?_)
    rw [hpend, ← hd0]
    exact if_neg (by rw [hpause, hquiet]; decide)
  refine ⟨_, hexec, ?_⟩
  rw [Dev.trimSet_cals, ← hd0, Dev.modCal_cals_same]
  exact ⟨Vector.getElem_set_self _, Vector.getElem_set_self _⟩

/-! ### A calibration due (R194) -/

theorem calStatus_apart : ∀ p : Fin 4, A.calStatus p.val ≠ A.attn ∧ A.calStatus p.val ∉ [A.attn, A.sillLost] := by decide

/-- A calibration falls due: STATUS and ATTN cause 1 say so. -/
theorem calDueTimer_raises (s : State) (p : Fin 4) (hlive : s.dev.live = true) (hdone : (s.dev.cals[p]).everDone = true)
    (hcfg : s.dev.cfgLe Sec.cal (32 * p.val) 4 ≠ 0) :
    ∃ d : Dev, exec (.calDueTimer p) s = .next { s with dev := d } ∧ d.fldR (A.calStatus p.val) 16 1 = 1 ∧
      d.fldR A.attn 1 1 = 1 ∧ s.dev.onlyRegs d [A.calStatus p.val, A.attn, A.sillLost] := by
  generalize hd0 : s.dev.setFld (A.calStatus p.val) 16 1 1 = d0
  have hexec : exec (.calDueTimer p) s = .next { s with dev := d0.raiseAttn 1 } := by
    rw [← hd0]
    exact exec_of_devNext hlive (congrArg (devNext s) (if_pos (Bool.and_eq_true_iff.mpr ⟨hdone, decide_eq_true hcfg⟩)))
  obtain ⟨honly, hregs⟩ := d0.setAttn_onlyRegs (d0.fldR A.attn 0 12 ||| 2 ^ 1)
  have hregs0 : s.dev.regsBut d0 [A.calStatus p.val] := hd0 ▸ Dev.setFld_regsBut _ _ _ _ _
  refine ⟨_, hexec, ?_, d0.raiseAttn_pending (by decide), ?_, ?_⟩
  · refine (congrArg (fld · 16 1) (hregs _ (calStatus_apart p).2)).trans ?_
    rw [← hd0]
    exact Dev.fldR_setFld_same _ _ 16 1 1 (by decide) (by decide)
  · rw [Dev.raiseAttn, honly, ← hd0]
    rfl
  · exact fun a ha => (hregs a fun h => ha (List.mem_cons_of_mem _ h)).trans
      (hregs0 a fun h => ha (by rw [List.mem_singleton.mp h]; exact List.mem_cons_self))

/-- Settles O37, from a start, the reference check, the end of a run, its codes that land, and the timer. -/
theorem calibrationRuns : Obligations.CalibrationRuns :=
  ⟨calStart_pauses_or_waits, calRefCheck_passes, calPauseEnd_counts, calTrimLand_lands, calDueTimer_raises⟩

end Sys2Proof.Machine
end

section
/-! SUPPORT. Steps (R210, R212, R215, R231): how a step takes its line's lock and reads it, what its end leaves, and how an engine
learns of it. -/

namespace Sys2Proof.Machine

/-! ### Steps that wait for their lines -/

/-- Nothing is held, no tier access is under way, and every step waits for one of its lines. -/
structure Dev.still (d : Dev) : Prop where
  held : d.txn.held = []
  ops : d.tier.ops = []
  lines : ∀ j ∈ d.jobs, j.left ≠ 0

theorem Dev.tierAdvance_of_none {d : Dev} (h : d.tier.ops = []) : d.tierAdvance = d := by
  rw [Dev.tierAdvance, h]
  rfl

/-- While the steps wait, none of them ends. -/
theorem Dev.still.ends {d : Dev} (h : d.still) : d.jobsEnd.tierAdvance = d := by
  have hend : d.jobsEnd = d := Dev.each_of_fixed fun j hj => if_neg (h.lines j hj)
  rw [hend, Dev.tierAdvance_of_none h.ops]

theorem Dev.settleN_of_still (n : Nat) {d : Dev} (h : d.still) : Dev.settleN n d = d := by
  induction n with
  | zero => rfl
  | succ n ih => rw [Dev.settleN, h.held, Dev.admitList, h.ends, ih]

/-! ### The read of a step's line (R130, R210) -/

/-- Nothing else is under way, and the port of `loc` takes a read of note `n` of it: the line is neither locked nor fenced, and
its subchannel is filled. -/
structure Dev.freeRead (d : Dev) (loc : Loc) (n : BitVec 4) : Prop where
  calm : d.calm
  ingress : d.ingress (locPort loc) = true
  rd : d.rdFree (locPort loc) n = true
  unlocked : (d.ports[locPort loc]).locked loc = false
  unfenced : d.subFenced (locSub loc) = false
  unfilled : d.fillHolds (locSub loc) = false

theorem Dev.freeAt.freeRead {d : Dev} {loc : Loc} {n : BitVec 4} (h : d.freeAt loc n) : d.freeRead loc n :=
  ⟨h.calm, h.ingress, h.rd, h.unlocked, h.unfenced, h.unfilled⟩

/-- With nothing held, the read entries free rest on the queue, the reads in flight and the budget of note 15. -/
theorem Dev.rdFree_congr {x y : Dev} {p : Fin 4} (n : BitVec 4) (hrdq : (y.ports[p]).rdq = (x.ports[p]).rdq)
    (hphys : y.phys = x.phys) (hx : x.txn.held = []) (hy : y.txn.held = [])
    (hreg : y.reg (A.noteR 15) = x.reg (A.noteR 15)) : y.rdFree p n = x.rdFree p n := by
  have htaken (d : Dev) (h : d.txn.held = []) : d.takenAt p = [] := by simp [Dev.takenAt, h]
  have hres : y.res p = x.res p := congrArg (fun v => min (fld v (4 + 8 * p.val) 8) 32) hreg
  simp only [Dev.rdFree, Dev.rdUse, Dev.flying, htaken x hx, htaken y hy, hrdq, hphys, hres]
  rfl

/-- Line `l` is locked. -/
def Port.lock (l : Loc) (p : Port) : Port := { p with locks := p.locks ++ [l] }

/-- The device once step `j` has begun: it holds the lock of line `l`, and the number of its read is taken. -/
def Dev.steps (d : Dev) (j : Job) (l : Loc) : Dev :=
  { (d.modPort (locPort l) (Port.lock l)).tickRid with jobs := [j], nextJob := j.id + 1 }

theorem Dev.steps_port (d : Dev) (j : Job) (l : Loc) : (d.steps j l).ports[locPort l] = (d.ports[locPort l]).lock l :=
  d.modPort_ports_same _ _

/-- The read of step `j`'s line `l`, as it is held. -/
structure Held.ofStep (h : Held) (j : Job) (l : Loc) : Prop where
  vc : h.vc = .q
  decided : h.decided = none
  accepted : h.accepted = true
  taken : h.taken = false
  msg : h.msg = false
  op : h.op = .rd
  who : h.who = .job j.id 0
  note : h.r.note = j.note
  line : ∃ k, h.fixed = some (l, k)

/-- A step of one line, as it begins on device `d`. -/
def Dev.lineJob (d : Dev) (kind : JobKind) (e : Option (Fin 72 × Nat)) (n : BitVec 4) (master : BitVec 11)
    (page : Option (BitVec 32)) (x : Loc × KeyUse) : Job :=
  { id := d.nextJob, kind := kind, e := e, note := n, master := master, page := page, lines := [x], left := 1, worst := outcClean }

section
variable {d : Dev} {l : Loc} {n : BitVec 4} (hfree : d.freeRead l n) (kind : JobKind) (e : Option (Fin 72 × Nat))
  (master : BitVec 11) (page : Option (BitVec 32)) (k : KeyUse)
include hfree

/-- A step of one line takes its lock and asks for its read. -/
theorem Dev.jobStart_line : ∃ h : Held, h.ofStep (d.lineJob kind e n master page (l, k)) l ∧
    d.jobStart kind e n master page [(l, k)] = (d.steps (d.lineJob kind e n master page (l, k)) l).hold h := by
  obtain ⟨-, -, hjobs⟩ := hfree.calm
  have hrun : ((d.steps (d.lineJob kind e n master page (l, k)) l).ports[locPort l]).sr = .run :=
    (congrArg Port.sr (d.steps_port _ l)).trans (Dev.sr_of_ingress hfree.ingress)
  refine ⟨mkAccess (.job d.nextJob 0) n master d.txn.nextRid
    (d.modPort (locPort l) (Port.lock l)).cc k.media .rd l { k with pinned := false },
    ⟨rfl, rfl, rfl, rfl, rfl, rfl, rfl, rfl, _, rfl⟩, ?_⟩
  unfold Dev.jobStart
  rw [hjobs]
  exact congrArg (Dev.hold · _) (Dev.arrive_of_run hrun)

end

section
variable {d : Dev} {h : Held} {j : Job} {l : Loc} (hfree : d.freeRead l j.note) (hstep : h.ofStep j l)
include hfree hstep

/-- The read that a step asks for is taken at once: the lock of its line is the step's own (R210). -/
theorem Dev.admitList_step {k : KeyUse} (hlines : j.lines = [(l, k)]) {d1 : Dev}
    (hadm : (d.steps j l).admitOne h (locPort l) l = some d1) :
    Dev.admitList ((d.steps j l).hold h).txn.held [] [] ((d.steps j l).hold h) = d1.rtBegin (locPort l) j.note := by
  obtain ⟨hheld, -, -⟩ := hfree.calm
  obtain ⟨_, hfixed⟩ := hstep.line
  have hlist : ((d.steps j l).hold h).txn.held = [h] := by
    show insertHeld h d.txn.held = [h]
    rw [hheld]
    rfl
  have hloc : ((d.steps j l).hold h).heldLoc h = some l := by
    simp [Dev.heldLoc, hstep.op, hfixed]
  have hown : ((d.steps j l).hold h).ownsLock h l = true := by
    have hjobs : ((d.steps j l).hold h).jobs = [j] := rfl
    simp [Dev.ownsLock, hstep.who, hjobs, hlines]
  have hfence : ((d.steps j l).hold h).subFenced (locSub l) = false := hfree.unfenced
  have hfill : ((d.steps j l).hold h).fillHolds (locSub l) = false := hfree.unfilled
  have hlets : ((d.steps j l).hold h).lets (locPort l) h = true := by
    have hin := hfree.ingress
    have hsr : (((d.steps j l).hold h).ports[locPort l]).sr = .run :=
      (congrArg Port.sr (d.steps_port j l)).trans (Dev.sr_of_ingress hin)
    have hcg : ((d.steps j l).hold h).cgHeld (locPort l) = false := by
      rw [Dev.ingress, Bool.and_eq_true, Bool.not_eq_true'] at hin
      exact hin.2
    have hinner : h.isInner = true := by rw [Held.isInner, hstep.who]
    rw [Dev.lets, if_pos hinner, hsr, hcg]
    rfl
  have hun : ((d.steps j l).hold h).unhold h = d.steps j l := Dev.unhold_hold hheld hstep.msg
  rw [hlist, Dev.admitList]
  simp only [hstep.vc, hstep.decided, hstep.accepted, hloc, hown, hfence, hfill, hlets, hun, hadm, hstep.note, List.any_nil,
    Bool.false_and, Bool.and_false, Bool.not_true, Bool.or_false, ne_eq, not_true_eq_false,
    decide_false, Option.isSome_none, Bool.false_eq_true, if_false, Dev.admitList]

/-- What the step starts enters the queues: its read, and what follows from that. -/
theorem Dev.enterQueues_step {k : KeyUse} (hlines : j.lines = [(l, k)]) {d1 : Dev}
    (hadm : (d.steps j l).admitOne h (locPort l) l = some d1) : ((d.steps j l).hold h).enterQueues =
    Dev.settleN 3 (d1.rtBegin (locPort l) j.note).jobsEnd.tierAdvance := by
  rw [Dev.enterQueues, Dev.settleN, Dev.admitList_step hfree hstep hlines hadm]

theorem Dev.steps_rdFree : (d.steps j l).rdFree (locPort l) h.r.note = true := by
  have hrdq : ((d.steps j l).ports[locPort l]).rdq = (d.ports[locPort l]).rdq := by
    rw [Dev.steps_port]
    rfl
  rw [Dev.rdFree_congr _ hrdq rfl hfree.calm.1 hfree.calm.1 rfl, hstep.note]
  exact hfree.rd

end

/-- A real-time burst touches ports and tiles alone. -/
theorem Dev.rtBegin_eq (d : Dev) (p : Fin 4) (n : BitVec 4) :
    ∃ ports tiles, d.rtBegin p n = { d with ports := ports, tiles := tiles } := by
  unfold Dev.rtBegin
  split
  · exact ⟨_, _, rfl⟩
  · exact ⟨_, _, rfl⟩

/-- From `x` to `y` a step of `kind` for engine `e` has begun on line `l`: it alone is under way, it holds the line's lock, and its
read is queued (R210); engines, remap and registers are as they were. -/
structure Dev.readsLine (kind : JobKind) (e : Option (Fin 72 × Nat)) (l : Loc) (x y : Dev) : Prop where
  step : ∃ (j : Job) (r : RdEnt), y.jobs = [j] ∧ j.kind = kind ∧ j.left = 1 ∧ j.e = e ∧
    (y.ports[locPort l]).rdq = (x.ports[locPort l]).rdq ++ [r] ∧ r.loc = l ∧ r.acc.who = .job j.id 0
  locked : (y.ports[locPort l]).locked l = true
  engs : y.engs = x.engs
  prots : y.prots = x.prots
  rf : y.rf = x.rf

/-- A step on a line without a write entry locks it and queues its read. -/
theorem Dev.jobStart_readsLine {d : Dev} {l : Loc} {n : BitVec 4} (hfree : d.freeRead l n) (hat : (d.ports[locPort l]).wrAt l = none)
    (kind : JobKind) (e : Option (Fin 72 × Nat)) (master : BitVec 11) (page : Option (BitVec 32)) (k : KeyUse) :
    Dev.readsLine kind e l d (d.jobStart kind e n master page [(l, k)]).enterQueues := by
  obtain ⟨h, hstep, hstart⟩ := Dev.jobStart_line hfree kind e master page k
  generalize hj : d.lineJob kind e n master page (l, k) = j at hstep hstart
  obtain ⟨hkind, hwho, hnote, hleft, hlines⟩ : j.kind = kind ∧ j.e = e ∧ j.note = n ∧ j.left = 1 ∧ j.lines = [(l, k)] := by
    rw [← hj]
    exact ⟨rfl, rfl, rfl, rfl, rfl⟩
  rw [← hnote] at hfree
  have hat' : ((d.steps j l).ports[locPort l]).wrAt l = none := by
    rw [Dev.steps_port]
    exact hat
  obtain ⟨ov, hadm⟩ := Dev.admitOne_rd hstep.op hat' (Dev.steps_rdFree hfree hstep)
  rw [hstart, Dev.enterQueues_step hfree hstep hlines hadm]
  obtain ⟨r, hr, hloc, -, -, hacc⟩ := ((d.ports[locPort l]).lock l).putRead_rdq l ((d.steps j l).heldKey h) .rd
    ((d.steps j l).accOf h) ov false
  generalize hd1 : (d.steps j l).modPort (locPort l)
    (fun x => x.putRead l ((d.steps j l).heldKey h) .rd ((d.steps j l).accOf h) ov false) = d1
  have hport : d1.ports[locPort l] = ((d.ports[locPort l]).lock l).putRead l ((d.steps j l).heldKey h) .rd
      ((d.steps j l).accOf h) ov false := by
    rw [← hd1, Dev.modPort_ports_same, Dev.steps_port]
  obtain ⟨ports, tiles, hrt⟩ := d1.rtBegin_eq (locPort l) j.note
  have htells := Dev.rtBegin_tells (e := 0) d1 (locPort l) j.note
  have hstill : (d1.rtBegin (locPort l) j.note).still := by
    rw [hrt, ← hd1]
    refine ⟨hfree.calm.1, hfree.calm.2.1, fun i hi => ?_⟩
    rw [List.mem_singleton.mp hi, hleft]
    decide
  rw [hstill.ends, Dev.settleN_of_still 3 hstill]
  refine ⟨⟨j, r, ?_, hkind, hleft, hwho, ?_, hloc, ?_⟩, ?_, ?_, ?_, ?_⟩
  · rw [hrt, ← hd1]
    rfl
  · rw [htells.rdq, hport, hr]
    rfl
  · rw [hacc]
    exact hstep.who
  · rw [htells.locked, hport]
    simp [Port.putRead, Port.lock, Port.locked]
  all_goals
    rw [hrt, ← hd1]
    rfl

end Sys2Proof.Machine
end

section
/-! SUPPORT. Registers of the line code's function, packed words, and the device that a row command has marked (R212). -/

namespace Sys2Proof.Machine

/-! ### Word addresses (R10) -/

theorem ra_eq {fn inst idx : Nat} (hinst : inst < 128) (hidx : idx < 1024) : ra fn inst idx = fn * 131072 + inst * 1024 + idx := by
  have hlow : inst * 1024 + idx < 2 ^ 17 := by omega
  rw [ra, Nat.or_assoc, Nat.shiftLeft_eq inst, Nat.mul_comm inst, ← Nat.two_pow_add_eq_or_of_lt (show idx < 2 ^ 10 from hidx),
    ← Nat.mul_comm inst, Nat.shiftLeft_eq, Nat.mul_comm fn, ← Nat.two_pow_add_eq_or_of_lt (show inst * 2 ^ 10 + idx < 2 ^ 17 from hlow)]
  omega

/-- The address of a register of the line code's function. -/
theorem ra_prot (b : Fin 8) {idx : Nat} (hidx : idx < 1024) : ra 9 b.val idx = 1179648 + b.val * 1024 + idx :=
  ra_eq (by omega) hidx

theorem remap_addr (b : Fin 8) {j : Nat} (hj : j < 128) : A.remap b.val j = 1179712 + b.val * 1024 + j := by
  rw [A.remap, ra_prot b (by omega)]
  omega

theorem rowOpEntry_addr (b : Fin 8) (v : Word) : rowOpEntry b v = 1179712 + b.val * 1024 + fld v 39 7 :=
  remap_addr b (fld_lt v 39 7)

/-- Registers apart from the remap entries of subchannel `b`. -/
theorem rowOpEntry_ne (b : Fin 8) (v : Word) {a : Nat} (h : a < 1179712 + b.val * 1024 ∨ 1179840 + b.val * 1024 ≤ a) :
    a ≠ rowOpEntry b v := by
  have := fld_lt v 39 7
  rw [rowOpEntry_addr]
  omega

theorem remapCmd_ne_rowOpEntry (b : Fin 8) (v : Word) : A.remapCmd b.val ≠ rowOpEntry b v := by
  refine rowOpEntry_ne b v (.inl ?_)
  rw [A.remapCmd, ra_prot b (by omega)]
  omega

/-- Registers that a row command reads or that its end may write, apart from its entry. -/
def rowOpOthers : List Nat := [A.pwrStatus, A.noteR 15, A.attn, A.sillLost, A.journal]

theorem ne_rowOpEntry_of_mem (b : Fin 8) (v : Word) {a : Nat} (ha : a ∈ rowOpOthers) : a ≠ rowOpEntry b v := by
  have hout : ∀ a ∈ rowOpOthers, a < 1179712 ∨ 1187008 ≤ a ∨ a = 1179840 := by decide
  have := hout a ha
  exact rowOpEntry_ne b v (by omega)

theorem remapCmd_notMem : ∀ b : Fin 8, A.remapCmd b.val ∉ rowOpOthers := by decide

/-! ### Packed words -/

theorem pack_getLsbD (lo v : Nat) (r : List (Nat × Nat)) (i : Nat) : (pack ((lo, v) :: r)).getLsbD i =
    (decide (i < 48) && (decide (lo ≤ i) && v.testBit (i - lo)) || (pack r).getLsbD i) := by
  rw [pack, BitVec.getLsbD_or, BitVec.getLsbD_ofNat, Nat.testBit_shiftLeft]

/-- A field below everything that is packed is zero. -/
theorem fld_pack_below {lo len : Nat} : ∀ {l : List (Nat × Nat)}, (∀ e ∈ l, lo + len ≤ e.1) → fld (pack l) lo len = 0
  | [], _ => by simp [pack, fld]
  | (k, v) :: r, h => by
    have hr := fld_pack_below (l := r) fun e he => h e (List.mem_cons_of_mem _ he)
    have hk : lo + len ≤ k := h (k, v) List.mem_cons_self
    refine Nat.eq_of_testBit_eq fun i => ?_
    have hi := congrArg (Nat.testBit · i) hr
    simp only [fld_testBit, Nat.zero_testBit] at hi
    rw [fld_testBit, pack_getLsbD, Nat.zero_testBit]
    by_cases hlen : i < len
    · rw [decide_eq_true hlen, Bool.true_and] at hi
      simp [hi, show ¬ k ≤ lo + i by omega]
    · simp [hlen]

/-! ### A row command that begins (R212) -/

/-- What a row command's command register keeps of a value with its OP put in. -/
theorem fld_putOp_row (v : Word) (op : Nat) {lo len : Nat} (h : lo + len ≤ 46) : fld (put v 46 2 op) lo len = fld v lo len :=
  fld_put_other v 46 2 op lo len (by omega) (by omega) (.inl h)

theorem rowOpEntry_putOp (b : Fin 8) (v : Word) (op : Nat) : rowOpEntry b (put v 46 2 op) = rowOpEntry b v := by
  rw [rowOpEntry, fld_putOp_row v op (by omega)]
  rfl

theorem rowOpLoc_putOp (b : Fin 8) (v : Word) (op c : Nat) : rowOpLoc b (put v 46 2 op) c = rowOpLoc b v c := by
  simp only [rowOpLoc, fld_putOp_row v op (show 39 + 7 ≤ 46 by omega), fld_putOp_row v op (show 36 + 3 ≤ 46 by omega),
    fld_putOp_row v op (show 13 + 18 ≤ 46 by omega), fld_putOp_row v op (show 33 + 3 ≤ 46 by omega),
    fld_putOp_row v op (show 31 + 2 ≤ 46 by omega)]

/-- Row command `o` is under way. -/
def Prot.withRow (o : RowOp) (p : Prot) : Prot := { p with rowOp := some o }

theorem Dev.withRow_prots_same (d : Dev) (b : Fin 8) (o : RowOp) :
    (d.modProt b (Prot.withRow o)).prots[b] = (d.prots[b]).withRow o := Dev.modProt_prots_same d b _

/-- From `x` to `y` row command `o` of subchannel `b` is taken: `e` stands in its entry, and its command register is busy. -/
structure Dev.marksRow (b : Fin 8) (o : RowOp) (e : Word) (x y : Dev) : Prop where
  only : y = { x with rf := y.rf, prots := y.prots }
  prots : y.prots = (x.modProt b (Prot.withRow o)).prots
  entry : y.reg (rowOpEntry b o.v) = e
  busy : y.fldR (A.remapCmd b.val) 6 1 = 1
  others : x.regsBut y [A.remapCmd b.val, rowOpEntry b o.v]

section
variable {b : Fin 8} {o : RowOp} {e : Word} {x y : Dev} (hm : Dev.marksRow b o e x y)
include hm

theorem Dev.marksRow.rowOp : (y.prots[b]).rowOp = some o := by
  rw [hm.prots, Dev.withRow_prots_same]
  rfl

theorem Dev.marksRow.reg {a : Nat} (ha : a ∈ rowOpOthers) : y.reg a = x.reg a := by
  refine hm.others a fun h => ?_
  obtain rfl | h := List.mem_cons.mp h
  · exact remapCmd_notMem b ha
  · exact ne_rowOpEntry_of_mem b o.v ha (List.mem_singleton.mp h)

theorem Dev.marksRow.fillHolds (c : Fin 8) : y.fillHolds c = x.fillHolds c := by
  rw [Dev.fillHolds, Dev.fillHolds, hm.prots]
  by_cases hc : c = b
  · rw [hc, Dev.withRow_prots_same]
    rfl
  · rw [Dev.modProt_prots_ne _ _ _ hc]

theorem Dev.marksRow.powerOpen : y.powerOpen = x.powerOpen := by
  have hpwr : y.pwr = x.pwr := by rw [hm.only]
  unfold Dev.powerOpen Dev.pwrState Dev.pwrPhase Dev.fldR
  rw [hm.reg (a := A.pwrStatus) (by decide), hpwr]

theorem Dev.marksRow.ports : y.ports = x.ports := by rw [hm.only]

theorem Dev.marksRow.calm (h : x.calm) : y.calm := by
  rw [hm.only]
  exact h

theorem Dev.marksRow.subFenced (c : Fin 8) : y.subFenced c = x.subFenced c := by
  rw [hm.only]
  rfl

theorem Dev.marksRow.rst : y.rst = x.rst := by rw [hm.only]

theorem Dev.marksRow.cgHeld (p : Fin 4) : y.cgHeld p = x.cgHeld p := by
  rw [hm.only]
  rfl

theorem Dev.marksRow.phys : y.phys = x.phys := by rw [hm.only]

/-- What a line's port takes does not rest on the mark. -/
theorem Dev.marksRow.freeRead {l : Loc} (hfree : x.freeRead l 15) : y.freeRead l 15 where
  calm := hm.calm hfree.calm
  ingress := by
    rw [← hfree.ingress, Dev.ingress, Dev.ingress, hm.powerOpen, hm.ports, hm.cgHeld]
  rd := by
    rw [← hfree.rd]
    exact Dev.rdFree_congr _ (by rw [hm.ports]) hm.phys hfree.calm.1 (hm.calm hfree.calm).1 (hm.reg (by decide))
  unlocked := by
    rw [hm.ports]
    exact hfree.unlocked
  unfenced := (hm.subFenced _).trans hfree.unfenced
  unfilled := (hm.fillHolds _).trans hfree.unfilled

/-- The copy of the column at MPTR begins under its line's lock (R212). -/
theorem Dev.marksRow.copies {l : Loc} (hkind : o.kind = 1 ∨ o.kind = 2) (hwait : o.waiting = false) (hstep : x.rst.step = 0)
    (hfence : x.subFenced b = false) (htakes : x.takes l 15) (hline : y.rowOpLine b o (y.fldR (rowOpEntry b o.v) 7 7) = l) :
    Dev.readsLine (.row b) none l y (y.rowGo b).enterQueues := by
  obtain ⟨hfree, hat⟩ := htakes.freeAt
  have hfree' := hm.freeRead hfree.freeRead
  have hpower : y.powerOpen = true := by
    have hin := hfree'.ingress
    rw [Dev.ingress, Bool.and_eq_true, Bool.and_eq_true] at hin
    exact hin.1.1
  have hjob : y.rowJob b = none := by rw [Dev.rowJob, hfree'.calm.2.2, List.find?_nil]
  have hlocked : y.lineLocked l = false := hfree'.unlocked
  have hcopy : (!(decide (o.kind = 1) || decide (o.kind = 2))) = false := by
    obtain h | h := hkind <;> rw [h] <;> rfl
  have hgo : y.rowGo b = y.jobStart (.row b) none 15 0 none [(l, KeyUse.byLoc)] := by
    simp only [Dev.rowGo, hm.rowOp, hwait, hcopy, hjob, hpower, hline, hlocked, hm.rst, hstep, hm.subFenced, hfence,
      Option.isSome_none, ne_eq, not_true_eq_false, decide_false, Bool.not_true, Bool.or_self, Bool.false_eq_true, if_false]
  rw [hgo]
  refine Dev.jobStart_readsLine hfree' ?_ _ _ _ _ _
  rw [hm.ports]
  exact hat

end

end Sys2Proof.Machine
end

section
/-! SUPPORT. Row commands (R212 to R214): a command that is taken runs at once where no rebuild holds it. -/

namespace Sys2Proof.Machine

/-- Row command of `kind` and value `v`, that runs. -/
def rowRun (kind : BitVec 3) (v : Word) : RowOp := { kind := kind, v := v, waiting := false, sent := false }

section
variable {d : Dev} {b : Fin 8} {o : RowOp}

/-- The mark of a command that runs already is no change. -/
theorem Dev.markRun_eq (h : (d.prots[b]).rowOp = some o) (hwait : o.waiting = false) :
    d.modProt b (fun x => { x with rowOp := some { o with waiting := false } }) = d := by
  have hsame : ({ d.prots[b] with rowOp := some { o with waiting := false } } : Prot) = d.prots[b] := by
    rw [← hwait]
    show ({ d.prots[b] with rowOp := some o } : Prot) = d.prots[b]
    rw [← h]
  rw [Dev.modProt, hsame]
  exact congrArg (fun v => { d with prots := v }) (Vector.set_getElem_self _)

/-- MOVE marks its entry (R212). -/
theorem Dev.rowOpStart_move (h : (d.prots[b]).rowOp = some o) (hwait : o.waiting = false) (hkind : o.kind = 1) :
    d.rowOpStart b = d.setReg (rowOpEntry b o.v) (moveEntry o.v) := by
  simp only [Dev.rowOpStart, h, Dev.markRun_eq h hwait]
  rw [hkind]
  rfl

/-- RETURN marks its entry (R212). -/
theorem Dev.rowOpStart_return (h : (d.prots[b]).rowOp = some o) (hwait : o.waiting = false) (hkind : o.kind = 2) :
    d.rowOpStart b = (d.setFld (rowOpEntry b o.v) 7 7 0).setFld (rowOpEntry b o.v) 46 1 1 := by
  simp only [Dev.rowOpStart, h, Dev.markRun_eq h hwait]
  rw [hkind]
  rfl

/-- A PPR changes no entry (R214). -/
theorem Dev.rowOpStart_ppr (h : (d.prots[b]).rowOp = some o) (hwait : o.waiting = false) (hkind : o.kind = 3 ∨ o.kind = 4) :
    d.rowOpStart b = d := by
  simp only [Dev.rowOpStart, h, Dev.markRun_eq h hwait]
  obtain hk | hk := hkind <;> rw [hk] <;> rfl

/-- A PPR copies no column. -/
theorem Dev.rowGo_ppr (h : (d.prots[b]).rowOp = some o) (hkind : o.kind = 3 ∨ o.kind = 4) : d.rowGo b = d := by
  have hcopy : (!(decide (o.kind = 1) || decide (o.kind = 2))) = true := by
    obtain hk | hk := hkind <;> rw [hk] <;> rfl
  rw [Dev.rowGo, h]
  simp only [hcopy, Bool.or_true, Bool.true_or, if_true]

/-- Without a rebuild the command runs at once. -/
theorem Dev.rowTake_of_built (hrebuild : (d.prots[b]).rebuild = false) (kind : BitVec 3) (v : Word) :
    d.rowTake b kind v = ((d.modProt b (Prot.withRow (rowRun kind v))).rowBegin b).enterQueues := by
  simp only [Dev.rowTake, hrebuild, Bool.false_and, Bool.false_eq_true, if_false]
  rfl

/-- A PPR that is taken waits for its bank's turn: nothing else moves. -/
theorem Dev.rowTake_ppr (hrebuild : (d.prots[b]).rebuild = false) (hcalm : d.calm) {kind : BitVec 3} (hkind : kind = 3 ∨ kind = 4)
    (v : Word) : d.rowTake b kind v = d.modProt b (Prot.withRow (rowRun kind v)) := by
  have hrow : ((d.modProt b (Prot.withRow (rowRun kind v))).prots[b]).rowOp = some (rowRun kind v) := by
    rw [Dev.withRow_prots_same]
    rfl
  rw [Dev.rowTake_of_built hrebuild, Dev.rowBegin, Dev.rowOpStart_ppr hrow rfl hkind, Dev.rowGo_ppr hrow hkind]
  exact Dev.enterQueues_of_calm hcalm

end

/-- The device with the row command register of `b` as a write of `w` leaves it. -/
def Dev.rowWritten (x : Dev) (b : Fin 8) (w : Word) : Dev :=
  x.setReg (A.remapCmd b.val) (put (x.reg (A.remapCmd b.val)) 7 39 (fld w 7 39))

/-- The device with row command `o` under way, its command register as a write of `w` leaves it. -/
def Dev.rowTaken (x : Dev) (b : Fin 8) (w : Word) (o : RowOp) : Dev :=
  ((x.rowWritten b w).setFld (A.remapCmd b.val) 6 1 1).modProt b (Prot.withRow o)

theorem Dev.rowTaken_rowOp (x : Dev) (b : Fin 8) (w : Word) (o : RowOp) : ((x.rowTaken b w o).prots[b]).rowOp = some o := by
  rw [Dev.rowTaken, Dev.withRow_prots_same]
  rfl

theorem Dev.rowTaken_reg (x : Dev) (b : Fin 8) (w : Word) (o : RowOp) {a : Nat} (ha : a ≠ A.remapCmd b.val) :
    (x.rowTaken b w o).reg a = x.reg a := by
  rw [Dev.rowTaken, Dev.modProt_reg, Dev.reg_setFld, if_neg ha, Dev.rowWritten, Dev.reg_setReg, if_neg ha]

/-- The entry's write completes the mark. -/
theorem Dev.rowTaken_marks {x y : Dev} {b : Fin 8} {w : Word} {o : RowOp} (honly : y = { x.rowTaken b w o with rf := y.rf })
    (hregs : (x.rowTaken b w o).regsBut y [rowOpEntry b o.v]) : Dev.marksRow b o (y.reg (rowOpEntry b o.v)) x y where
  only := by
    rw [honly]
    rfl
  prots := by
    rw [honly]
    rfl
  entry := rfl
  busy := by
    have hne : A.remapCmd b.val ∉ [rowOpEntry b o.v] := fun h => remapCmd_ne_rowOpEntry b o.v (List.mem_singleton.mp h)
    rw [Dev.fldR, hregs _ hne, Dev.rowTaken, Dev.modProt_reg, ← Dev.fldR]
    exact Dev.fldR_setFld_fits (v := 1) _ _ (by decide) (by decide) (by decide)
  others a ha := by
    obtain ⟨hcmd, hentry⟩ := not_or.mp fun h => ha (List.mem_cons.mpr (h.imp_right id))
    rw [hregs _ hentry, Dev.rowTaken_reg _ _ _ _ hcmd]

section
variable {d : Dev} {b : Fin 8} {w : Word}

/-- A command that is taken begins on the device with its mark (R212). -/
theorem Dev.remapWrite_taken {op : Nat} (hop : fld w 46 2 = op) (hcode : op = 1 ∨ op = 2) (hrow : (d.prots[b]).rowOp = none)
    (hfence : d.subFenced b = false) (hrebuild : (d.prots[b]).rebuild = false)
    (hmove : op = 1 → d.moveRejected b w = false) (hreturn : op = 2 → entValid (d.reg (rowOpEntry b w)) = true) :
    d.remapWrite b w = (((d.rowTaken b w (rowRun (BitVec.ofNat 3 op) w)).rowOpStart b).rowGo b).enterQueues := by
  have hidle : (d.prots[b]).rowOp.isSome = false := by rw [hrow]; rfl
  have htaken : d.remapWrite b w = ((d.rowWritten b w).setFld (A.remapCmd b.val) 6 1 1).rowTake b (BitVec.ofNat 3 op) w := by
    obtain rfl | rfl := hcode
    · simp [-Fin.getElem_fin, Dev.remapWrite, Dev.rowWritten, hop, codeOf, hidle, hfence, hmove]
    · have hvalid : entValid (d.reg (A.remap b.val (fld w 39 7))) = true := hreturn rfl
      simp [-Fin.getElem_fin, Dev.remapWrite, Dev.rowWritten, hop, codeOf, hidle, hfence, hvalid]
  have hrebuild' : (((d.rowWritten b w).setFld (A.remapCmd b.val) 6 1 1).prots[b]).rebuild = false := hrebuild
  rw [htaken, Dev.rowTake_of_built hrebuild']
  rfl

/-- A MOVE that R213 refuses says so in its command register. -/
theorem Dev.remapWrite_rejected (hop : fld w 46 2 = 1) (hrow : (d.prots[b]).rowOp = none)
    (hfence : d.subFenced b = false) (hmove : d.moveRejected b w = true) :
    d.remapWrite b w = (d.rowWritten b w).setFld (A.remapCmd b.val) 4 2 2 := by
  have hidle : (d.prots[b]).rowOp.isSome = false := by rw [hrow]; rfl
  simp [-Fin.getElem_fin, Dev.remapWrite, Dev.rowWritten, hop, codeOf, hidle, hfence, hmove]

end

theorem fld_put_op (v : Word) {op : Nat} (h : op < 4) : fld (put v 46 2 op) 46 2 = op := by
  rw [fld_put_same _ _ _ _ (by decide) (by decide)]
  exact Nat.mod_eq_of_lt h

theorem moveEntry_putOp (v : Word) (op : Nat) : moveEntry (put v 46 2 op) = moveEntry v := by
  simp only [moveEntry, fld_putOp_row v op (show 36 + 3 ≤ 46 by omega), fld_putOp_row v op (show 33 + 3 ≤ 46 by omega),
    fld_putOp_row v op (show 31 + 2 ≤ 46 by omega), fld_putOp_row v op (show 13 + 18 ≤ 46 by omega),
    fld_putOp_row v op (show 7 + 6 ≤ 46 by omega)]

end Sys2Proof.Machine
end

section
/-! PROOF. O39: MOVE and RETURN (R212, R213). -/

namespace Sys2Proof.Machine

/-- What a row command that is taken has done once its first column is locked and read. -/
theorem Dev.marksRow.begun {b : Fin 8} {o : RowOp} {e : Word} {x y z : Dev} {l : Loc} (hm : Dev.marksRow b o e x y)
    (hread : Dev.readsLine (.row b) none l y z) : ∃ (j : Job) (r : RdEnt), (z.prots[b]).rowOp = some o ∧
      z.fldR (A.remapCmd b.val) 6 1 = 1 ∧ z.reg (rowOpEntry b o.v) = e ∧ z.jobs = [j] ∧ j.kind = .row b ∧
      (z.ports[locPort l]).locked l = true ∧ (z.ports[locPort l]).rdq = (x.ports[locPort l]).rdq ++ [r] ∧ r.loc = l ∧
      x.regsBut z [A.remapCmd b.val, rowOpEntry b o.v] := by
  obtain ⟨j, r, hjobs, hkind, -, -, hrdq, hloc, -⟩ := hread.step
  have hreg (a : Nat) : z.reg a = y.reg a := Dev.reg_of_rf hread.rf a
  refine ⟨j, r, ?_, ?_, (hreg _).trans hm.entry, hjobs, hkind, hread.locked, ?_, hloc, fun a ha => (hreg a).trans (hm.others a ha)⟩
  · rw [hread.prots]
    exact hm.rowOp
  · rw [Dev.fldR, hreg]
    exact hm.busy
  · rw [hrdq, hm.ports]

section
variable {d : Dev} {b : Fin 8} {v : Word} (hrow : (d.prots[b]).rowOp = none) (hfence : d.subFenced b = false)
  (hrebuild : (d.prots[b]).rebuild = false) (hstep : d.rst.step = 0)
include hrow hfence hrebuild hstep

/-- A MOVE that is not rejected marks its entry and copies column 0 first. -/
theorem Dev.remapWrite_move (hmove : d.moveRejected b (put v 46 2 1) = false) (htakes : d.takes (rowOpLoc b v 0) 15) :
    ∃ m : Dev, Dev.marksRow b (rowRun 1 (put v 46 2 1)) (moveEntry v) d m ∧
      Dev.readsLine (.row b) none (rowOpLoc b v 0) m (d.remapWrite b (put v 46 2 1)) := by
  let o := rowRun 1 (put v 46 2 1)
  have hstart := Dev.rowOpStart_move (d.rowTaken_rowOp b (put v 46 2 1) o) rfl rfl
  rw [Dev.remapWrite_taken (fld_put_op v (by decide)) (.inl rfl) hrow hfence hrebuild (fun _ => hmove) (fun h => by cases h)]
  generalize hy : (d.rowTaken b (put v 46 2 1) (rowRun (BitVec.ofNat 3 1) (put v 46 2 1))).rowOpStart b = y
  replace hy : y = (d.rowTaken b (put v 46 2 1) o).setReg (rowOpEntry b o.v) (moveEntry o.v) := hy.symm.trans hstart
  have hentry : y.reg (rowOpEntry b o.v) = moveEntry v := by
    rw [hy, Dev.reg_setReg, if_pos rfl]
    exact moveEntry_putOp v 1
  have hm : Dev.marksRow b o (moveEntry v) d y := by
    rw [← hentry]
    refine Dev.rowTaken_marks (w := put v 46 2 1) ?_ fun a ha => ?_
    · rw [hy]
      rfl
    · rw [hy, Dev.reg_setReg, if_neg (List.mem_singleton.not.mp ha)]
  refine ⟨y, hm, hm.copies (.inl rfl) rfl hstep hfence htakes ?_⟩
  have hcol : fld (moveEntry v) 7 7 = 0 := fld_pack_below (by simp)
  have hkind : o.kind = 1 := rfl
  rw [Dev.fldR, hm.entry, hcol, Dev.rowOpLine, if_pos hkind]
  exact rowOpLoc_putOp b v 1 0

/-- The RETURN of a valid entry marks it and copies column 0 of the row that it names first. -/
theorem Dev.remapWrite_return {e : Word} {l : Loc} (he : d.reg (rowOpEntry b v) = e) (hvalid : entValid e = true)
    (hl : l = mkLoc (subPort b).val (b.val % 2) (fld v 39 7 / 64) (fld e 43 3) (fld e 20 18) (fld e 40 3) (fld e 38 2) 0)
    (htakes : d.takes l 15) :
    ∃ m : Dev, Dev.marksRow b (rowRun 2 (put v 46 2 2)) (put (put e 7 7 0) 46 1 1) d m ∧
      Dev.readsLine (.row b) none l m (d.remapWrite b (put v 46 2 2)) := by
  let o := rowRun 2 (put v 46 2 2)
  have ho : rowOpEntry b o.v = rowOpEntry b v := rowOpEntry_putOp b v 2
  have hstart := Dev.rowOpStart_return (d.rowTaken_rowOp b (put v 46 2 2) o) rfl rfl
  rw [Dev.remapWrite_taken (fld_put_op v (by decide)) (.inr rfl) hrow hfence hrebuild (fun h => by cases h)
    (fun _ => by rw [rowOpEntry_putOp, he]; exact hvalid)]
  generalize hy : (d.rowTaken b (put v 46 2 2) (rowRun (BitVec.ofNat 3 2) (put v 46 2 2))).rowOpStart b = y
  replace hy : y = ((d.rowTaken b (put v 46 2 2) o).setFld (rowOpEntry b o.v) 7 7 0).setFld (rowOpEntry b o.v) 46 1 1 :=
    hy.symm.trans hstart
  have hentry : y.reg (rowOpEntry b o.v) = put (put e 7 7 0) 46 1 1 := by
    rw [hy, Dev.reg_setFld, if_pos rfl, Dev.reg_setFld, if_pos rfl, Dev.rowTaken_reg _ _ _ _ (remapCmd_ne_rowOpEntry b o.v).symm,
      ho, he]
  have hm : Dev.marksRow b o (put (put e 7 7 0) 46 1 1) d y := by
    rw [← hentry]
    refine Dev.rowTaken_marks (w := put v 46 2 2) ?_ ?_
    · rw [hy]
      rfl
    · rw [hy]
      exact (Dev.setFld_regsBut _ _ _ _ _).trans (Dev.setFld_regsBut _ _ _ _ _)
  refine ⟨y, hm, hm.copies (.inr rfl) rfl hstep hfence htakes ?_⟩
  have hkept {lo len : Nat} (h : lo + len ≤ 46) (hlo : 14 ≤ lo) : fld (put (put e 7 7 0) 46 1 1) lo len = fld e lo len := by
    rw [fld_put_other _ _ _ _ _ _ (by decide) (by decide) (.inl h), fld_put_other _ _ _ _ _ _ (by decide) (by decide) (.inr hlo)]
  have hcol : fld (put (put e 7 7 0) 46 1 1) 7 7 = 0 := by
    rw [fld_put_other _ _ _ _ _ _ (by decide) (by decide) (.inl (by decide)), fld_put_same _ _ _ _ (by decide) (by decide),
      Nat.zero_mod]
  have hkind : o.kind ≠ 1 := (by decide : (2 : BitVec 3) ≠ 1)
  have hfix : fld o.v 39 7 = fld v 39 7 := fld_putOp_row v 2 (by decide)
  simp only [Dev.fldR, hm.entry, hcol, Dev.rowOpLine, if_neg hkind, hfix, hkept (show 43 + 3 ≤ 46 by omega) (by omega),
    hkept (show 20 + 18 ≤ 46 by omega) (by omega), hkept (show 40 + 3 ≤ 46 by omega) (by omega),
    hkept (show 38 + 2 ≤ 46 by omega) (by omega), ← hl]

end

/-- REMAP_MOVE: a MOVE marks its entry and begins its copy, or is rejected. -/
theorem remapMove_exec (s : State) (m : Master) (b : Fin 8) (v : Word) (hlive : s.dev.live = true)
    (hrow : (s.dev.prots[b]).rowOp = none) (hfence : s.dev.subFenced b = false) (hrebuild : (s.dev.prots[b]).rebuild = false) :
    let w := put v 46 2 1
    let l := rowOpLoc b v 0
    (s.dev.moveRejected b w = false → s.dev.rst.step = 0 → s.dev.takes l 15 →
      ∃ (d : Dev) (j : Job) (r : RdEnt), exec (.remapMove m b v) s = .next { s with dev := d } ∧
        (d.prots[b]).rowOp = some { kind := 1, v := w, waiting := false, sent := false } ∧ d.fldR (A.remapCmd b.val) 6 1 = 1 ∧
        d.reg (A.remap b.val (fld v 39 7)) = moveEntry v ∧ d.jobs = [j] ∧ j.kind = .row b ∧
        (d.ports[locPort l]).locked l = true ∧ (d.ports[locPort l]).rdq = (s.dev.ports[locPort l]).rdq ++ [r] ∧ r.loc = l ∧
        s.dev.regsBut d [A.remapCmd b.val, A.remap b.val (fld v 39 7)]) ∧
    (s.dev.moveRejected b w = true → ∃ d : Dev, exec (.remapMove m b v) s = .next { s with dev := d } ∧
      d = { s.dev with rf := d.rf } ∧ d.fldR (A.remapCmd b.val) 4 2 = 2 ∧ s.dev.regsBut d [A.remapCmd b.val]) := by
  intro w l
  have hexec : exec (.remapMove m b v) s = .next { s with dev := s.dev.remapWrite b w } := exec_of_devNext hlive rfl
  refine ⟨fun hmove hstep htakes => ?_, fun hmove => ⟨_, hexec, ?_⟩⟩
  · obtain ⟨y, hm, hread⟩ := Dev.remapWrite_move hrow hfence hrebuild hstep hmove htakes
    obtain ⟨j, r, hbegun⟩ := hm.begun hread
    rw [show rowOpEntry b (rowRun 1 w).v = A.remap b.val (fld v 39 7) from rowOpEntry_putOp b v 1] at hbegun
    exact ⟨_, j, r, hexec, hbegun⟩
  · rw [Dev.remapWrite_rejected (fld_put_op v (by decide)) hrow hfence hmove]
    refine ⟨rfl, Dev.fldR_setFld_fits (v := 2) _ _ (by decide) (by decide) (by decide), fun a ha => ?_⟩
    have hne : a ≠ A.remapCmd b.val := List.mem_singleton.not.mp ha
    rw [Dev.reg_setFld, if_neg hne, Dev.rowWritten, Dev.reg_setReg, if_neg hne]

/-- REMAP_RETURN: a RETURN of a valid entry marks it and begins its copy. -/
theorem remapReturn_exec (s : State) (m : Master) (b : Fin 8) (v : Word) (hlive : s.dev.live = true)
    (hrow : (s.dev.prots[b]).rowOp = none) (hfence : s.dev.subFenced b = false) (hrebuild : (s.dev.prots[b]).rebuild = false) :
    let e := s.dev.reg (A.remap b.val (fld v 39 7))
    let l := mkLoc (subPort b).val (b.val % 2) (fld v 39 7 / 64) (fld e 43 3) (fld e 20 18) (fld e 40 3) (fld e 38 2) 0
    entValid e = true → s.dev.rst.step = 0 → s.dev.takes l 15 →
    ∃ (d : Dev) (j : Job) (r : RdEnt), exec (.remapReturn m b v) s = .next { s with dev := d } ∧
      (d.prots[b]).rowOp = some { kind := 2, v := put v 46 2 2, waiting := false, sent := false } ∧
      d.fldR (A.remapCmd b.val) 6 1 = 1 ∧ d.reg (A.remap b.val (fld v 39 7)) = put (put e 7 7 0) 46 1 1 ∧ d.jobs = [j] ∧
      j.kind = .row b ∧ (d.ports[locPort l]).locked l = true ∧
      (d.ports[locPort l]).rdq = (s.dev.ports[locPort l]).rdq ++ [r] ∧ r.loc = l ∧
      s.dev.regsBut d [A.remapCmd b.val, A.remap b.val (fld v 39 7)] := by
  intro e l hvalid hstep htakes
  obtain ⟨y, hm, hread⟩ := Dev.remapWrite_return hrow hfence hrebuild hstep rfl hvalid rfl htakes
  obtain ⟨j, r, hbegun⟩ := hm.begun hread
  rw [show rowOpEntry b (rowRun 2 (put v 46 2 2)).v = A.remap b.val (fld v 39 7) from rowOpEntry_putOp b v 2] at hbegun
  exact ⟨_, j, r, exec_of_devNext hlive rfl, hbegun⟩

end Sys2Proof.Machine
end

section
/-! PROOF. O39: the end of a row command, and post-package repair (R212, R214). -/

namespace Sys2Proof.Machine

/-- The only step under way is over: it goes, and its locks with it. -/
theorem Dev.jobFree_only {d : Dev} {j : Job} (hjobs : d.jobs = [j]) :
    ∃ ports, d.jobFree j = { d with jobs := [], ports := ports } := by
  have hone : d.jobs.filter (fun k => k.id ≠ j.id) = [] := by simp [hjobs]
  have hlocks (lines : List (Loc × KeyUse)) (x : Dev) :
      ∃ ports, Dev.each (fun (y : Loc × KeyUse) z => z.modPort (locPort y.1) (fun p => p.unlock y.1)) lines x =
        { x with ports := ports } := by
    induction lines generalizing x with
    | nil => exact ⟨x.ports, rfl⟩
    | cons y ys ih =>
      obtain ⟨ports, h⟩ := ih (x.modPort (locPort y.1) (fun p => p.unlock y.1))
      exact ⟨ports, h⟩
  obtain ⟨ports, h⟩ := hlocks j.lines { d with jobs := [] }
  exact ⟨ports, by rw [Dev.jobFree, hone, h]⟩

/-- What the end of a MOVE or RETURN changes in its registers. -/
def Dev.rowEnded (d : Dev) (b : Fin 8) (o : RowOp) : Dev :=
  ((((d.setFld (rowOpEntry b o.v) 46 1 0).setFld (rowOpEntry b o.v) 7 7 0).setFld (rowOpEntry b o.v) 47 1
    (if o.kind = 1 then 1 else 0)).setFld (A.remapCmd b.val) 6 1 0).setFld (A.remapCmd b.val) 4 2 1

theorem Dev.journalStart_keeps (d : Dev) : d.regsBut d.journalStart [A.journal] ∧
    ∃ rf journal, d.journalStart = { d with rf := rf, journal := journal } := by
  unfold Dev.journalStart
  split
  · exact ⟨fun _ _ => rfl, _, _, rfl⟩
  · exact ⟨Dev.setFld_regsBut _ _ _ _ _, _, _, rfl⟩

/-- A Sillage record and the journal's next record leave all but what reports them. -/
theorem Dev.sparingNoted (d : Dev) (coord : BitVec 16) (ev : Nat) :
    d.regsBut (d.sillSparing coord ev).journalStart [A.sillLost, A.journal] ∧
    ∃ rf sill journal, (d.sillSparing coord ev).journalStart = { d with rf := rf, sill := sill, journal := journal } := by
  obtain ⟨sill, rf, hsill, -⟩ := Dev.sillPush_eq d 10 coord 0 (BitVec.ofNat 48 ev)
  obtain ⟨hregs, rf', journal, hjournal⟩ := Dev.journalStart_keeps (d.sillSparing coord ev)
  refine ⟨((Dev.sillPush_regsBut d 10 coord 0 _).mono (by simp)).trans (hregs.mono (by simp)), rf', sill, journal, ?_⟩
  rw [hjournal]
  exact congrArg (fun x : Dev => { x with rf := rf', journal := journal }) hsill

section
variable (d : Dev) (b : Fin 8) (o : RowOp)

theorem Dev.rowEnded_entry : (d.rowEnded b o).reg (rowOpEntry b o.v) =
    put (put (put (d.reg (rowOpEntry b o.v)) 46 1 0) 7 7 0) 47 1 (if o.kind = 1 then 1 else 0) := by
  have hne := (remapCmd_ne_rowOpEntry b o.v).symm
  simp only [Dev.rowEnded, Dev.reg_setFld, if_neg hne, if_pos]

theorem Dev.rowEnded_moving : entMoving ((d.rowEnded b o).reg (rowOpEntry b o.v)) = false := by
  rw [Dev.rowEnded_entry, entMoving, bit, put_getLsbD _ _ _ _ _ (by decide) (by decide), if_neg (by decide),
    put_getLsbD _ _ _ _ _ (by decide) (by decide), if_neg (by decide), put_getLsbD _ _ _ _ _ (by decide) (by decide),
    if_pos (by decide)]
  rfl

theorem Dev.rowEnded_valid : entValid ((d.rowEnded b o).reg (rowOpEntry b o.v)) = decide (o.kind = 1) := by
  rw [Dev.rowEnded_entry, entValid, bit, put_getLsbD _ _ _ _ _ (by decide) (by decide), if_pos (by decide)]
  by_cases hk : o.kind = 1
  · rw [if_pos hk, decide_eq_true hk]
    rfl
  · rw [if_neg hk, decide_eq_false hk]
    rfl

theorem Dev.rowEnded_busy : (d.rowEnded b o).fldR (A.remapCmd b.val) 6 1 = 0 := by
  rw [Dev.rowEnded, Dev.fldR_setFld_other _ _ _ _ _ _ _ (by decide) (by decide) (.inr (by decide))]
  exact Dev.fldR_setFld_fits (v := 0) _ _ (by decide) (by decide) (by decide)

theorem Dev.rowEnded_code : (d.rowEnded b o).fldR (A.remapCmd b.val) 4 2 = 1 :=
  Dev.fldR_setFld_fits (v := 1) _ _ (by decide) (by decide) (by decide)

end

theorem remapCmd_noted : ∀ b : Fin 8, A.remapCmd b.val ∉ [A.sillLost, A.journal] := by decide

theorem rowOpEntry_noted (b : Fin 8) (v : Word) : rowOpEntry b v ∉ [A.sillLost, A.journal] := fun h => by
  refine ne_rowOpEntry_of_mem b v (a := rowOpEntry b v) ?_ rfl
  simp only [rowOpOthers, List.mem_cons] at h ⊢
  tauto

/-- The device with no row command of `b`. -/
def Dev.rowFree (d : Dev) (b : Fin 8) : Dev := d.modProt b (fun p => { p with rowOp := none })

theorem Dev.remapEnd_parts (d : Dev) (b : Fin 8) (o : RowOp) (j : Job) : d.remapEnd b o j =
    ((((d.jobFree j).rowFree b).rowEnded b o).sillSparing (protUnit b) (if o.kind = 1 then 5 else 6)).journalStart.enterQueues :=
  rfl

/-- Recording a row command's end leaves the steps and the remap as they are. -/
theorem Dev.rowEnded_noted {x : Dev} (hcalm : x.calm) (b : Fin 8) (o : RowOp) (coord : BitVec 16) (ev : Nat) :
    let y := ((x.rowEnded b o).sillSparing coord ev).journalStart.enterQueues
    (x.rowEnded b o).regsBut y [A.sillLost, A.journal] ∧ y.prots = x.prots ∧ y.jobs = x.jobs := by
  obtain ⟨hregs, rf, sill, journal, hnote⟩ := (x.rowEnded b o).sparingNoted coord ev
  have hend : ((x.rowEnded b o).sillSparing coord ev).journalStart.calm := by
    rw [hnote]
    exact hcalm
  intro y
  have hy : y = ((x.rowEnded b o).sillSparing coord ev).journalStart := Dev.enterQueues_of_calm hend
  rw [hy]
  refine ⟨hregs, ?_, ?_⟩
  · rw [hnote]
    rfl
  · rw [hnote]
    rfl

/-- A row command's end frees its subchannel, and no step is left (R212). -/
theorem Dev.remapEnd_eq {d : Dev} {j : Job} (hheld : d.txn.held = []) (hops : d.tier.ops = []) (hjobs : d.jobs = [j])
    (b : Fin 8) (o : RowOp) : ∃ x : Dev, ((x.prots[b]).rowOp = none ∧ x.jobs = []) ∧
      (x.rowEnded b o).regsBut (d.remapEnd b o j) [A.sillLost, A.journal] ∧
      (d.remapEnd b o j).prots = x.prots ∧ (d.remapEnd b o j).jobs = x.jobs := by
  obtain ⟨ports, hfree⟩ := Dev.jobFree_only hjobs
  have hcalm : ((d.jobFree j).rowFree b).calm := by
    rw [hfree]
    exact ⟨hheld, hops, rfl⟩
  refine ⟨(d.jobFree j).rowFree b, ⟨?_, hcalm.2.2⟩, ?_⟩
  · rw [Dev.rowFree, Dev.modProt_prots_same]
  · rw [Dev.remapEnd_parts]
    exact Dev.rowEnded_noted hcalm b o _ _

/-- REMAP_DONE: after column 127 the entry is in force, or free again. -/
theorem remapDone_exec (s : State) (b : Fin 8) (o : RowOp) (j : Job) (hlive : s.dev.live = true)
    (hrow : (s.dev.prots[b]).rowOp = some o) (hwait : o.waiting = false) (hkind : o.kind = 1 ∨ o.kind = 2)
    (hheld : s.dev.txn.held = []) (hops : s.dev.tier.ops = []) (hjobs : s.dev.jobs = [j]) (hjob : j.kind = .row b)
    (hleft : j.left = 0) (hcol : s.dev.fldR (A.remap b.val (fld o.v 39 7)) 7 7 = 127) :
    ∃ d : Dev, exec (.remapDone b) s = .next { s with dev := d } ∧ (d.prots[b]).rowOp = none ∧ d.jobs = [] ∧
      entMoving (d.reg (A.remap b.val (fld o.v 39 7))) = false ∧
      entValid (d.reg (A.remap b.val (fld o.v 39 7))) = decide (o.kind = 1) ∧ d.fldR (A.remapCmd b.val) 6 1 = 0 ∧
      d.fldR (A.remapCmd b.val) 4 2 = 1 := by
  have hcopy : (!(decide (o.kind = 1) || decide (o.kind = 2))) = false := by
    obtain h | h := hkind <;> rw [h] <;> rfl
  have hfind : s.dev.rowJob b = some j := by simp [Dev.rowJob, hjobs, hjob]
  have hcopied : s.dev.rowCopied b o = true := by
    have hcol' : s.dev.fldR (rowOpEntry b o.v) 7 7 = 127 := hcol
    simp [Dev.rowCopied, hcol', hfind, hleft]
  have hexec : exec (.remapDone b) s = .next { s with dev := s.dev.remapEnd b o j } := by
    refine exec_of_devNext hlive ?_
    show devNext s _ = _
    simp only [hrow, hfind, hwait, hcopy, hcopied, Bool.not_true, Bool.or_self, Bool.false_eq_true, if_false]
  obtain ⟨x, ⟨hfree, hnone⟩, hregs, hprots, hjobs'⟩ := Dev.remapEnd_eq hheld hops hjobs b o
  have hentry := hregs _ (rowOpEntry_noted b o.v)
  have hcmd := hregs _ (remapCmd_noted b)
  refine ⟨_, hexec, ?_, hjobs'.trans hnone, ?_, ?_, ?_, ?_⟩
  · rw [hprots, hfree]
  · exact (congrArg entMoving hentry).trans (x.rowEnded_moving b o)
  · exact (congrArg entValid hentry).trans (x.rowEnded_valid b o)
  · exact (congrArg (fld · 6 1) hcmd).trans (x.rowEnded_busy b o)
  · exact (congrArg (fld · 4 2) hcmd).trans (x.rowEnded_code b o)

end Sys2Proof.Machine
end

section
/-! PROOF. O39: post-package repair (R214), and the obligation. -/

namespace Sys2Proof.Machine

/-! ### A PPR that is taken -/

/-- The device with the repair register of `b` as a write of `w` leaves it. -/
def Dev.pprWritten (x : Dev) (b : Fin 8) (w : Word) : Dev :=
  x.setReg (A.ppr b.val) (put (x.reg (A.ppr b.val)) 19 27 (fld w 19 27))

theorem Dev.pprWritten_setFld_regsBut (x : Dev) (b : Fin 8) (w : Word) (lo len v : Nat) :
    x.regsBut ((x.pprWritten b w).setFld (A.ppr b.val) lo len v) [A.ppr b.val] := by
  refine Dev.regsBut.trans (fun a ha => ?_) (Dev.setFld_regsBut _ _ _ _ _)
  rw [Dev.pprWritten, Dev.reg_setReg, if_neg (List.mem_singleton.not.mp ha)]

/-- The model's own search for the entry that a repair names. -/
theorem Dev.pprNames.any {d : Dev} {b : Fin 8} {v : Word} (h : d.pprNames b v) :
    (d.tileEntries b (64 * fld v 45 1)).any (fun x => entValid x.2 && !entMoving x.2 &&
      fld x.2 43 3 = fld v 42 3 && fld x.2 40 3 = fld v 39 3 && fld x.2 38 2 = fld v 37 2 && fld x.2 20 18 = fld v 19 18) = true := by
  obtain ⟨x, hx, hvalid, hmoving, hcid, hbg, hbank, hrow⟩ := h
  refine List.any_eq_true.mpr ⟨x, hx, ?_⟩
  rw [hvalid, hmoving, hcid, hbg, hbank, hrow]
  simp

theorem Dev.pprNames_putOp {d : Dev} {b : Fin 8} {v : Word} (op : Nat) (h : d.pprNames b v) : d.pprNames b (put v 46 2 op) := by
  obtain ⟨x, hx, hvalid, hmoving, hcid, hbg, hbank, hrow⟩ := h
  refine ⟨x, ?_, hvalid, hmoving, ?_, ?_, ?_, ?_⟩
  · rw [fld_putOp_row v op (by decide)]
    exact hx
  · rw [fld_putOp_row v op (by decide), hcid]
  · rw [fld_putOp_row v op (by decide), hbg]
  · rw [fld_putOp_row v op (by decide), hbank]
  · rw [fld_putOp_row v op (by decide), hrow]

section
variable {d : Dev} {b : Fin 8} {w : Word} {t : Fin 16} (hrow : (d.prots[b]).rowOp = none) (hfence : d.subFenced b = false)
  (hnames : d.pprNames b w) (ht : Fin.ofNat 16 (2 * b.val + fld w 45 1) = t)
include hrow hfence hnames ht

/-- A repair that its tile has the feature for, and of a row that an entry names, is taken. -/
theorem Dev.pprWrite_taken {op : Nat} (hop : fld w 46 2 = op) (hcode : op = 1 ∨ op = 2)
    (hfeature : d.feature t (op + 4) = true) (hready : op = 2 → d.ready t = false) :
    d.pprWrite b w = ((d.pprWritten b w).setFld (A.ppr b.val) 18 1 1).rowTake b (BitVec.ofNat 3 (op + 2)) w := by
  have hidle : (d.prots[b]).rowOp.isSome = false := by rw [hrow]; rfl
  have hnamed := hnames.any
  obtain rfl | rfl := hcode
  · have hcode : codeOf [0, 1, 2] (fld w 46 2) = 1 := by rw [hop]; rfl
    have hfeature' : d.feature t 5 = true := hfeature
    simp [-Fin.getElem_fin, -Fin.ofNat_eq_cast, Dev.pprWrite, Dev.pprWritten, hcode, hidle, hfence, ht, hfeature', hnamed]
  · have hcode : codeOf [0, 1, 2] (fld w 46 2) = 2 := by rw [hop]; rfl
    have hfeature' : d.feature t 6 = true := hfeature
    simp [-Fin.getElem_fin, -Fin.ofNat_eq_cast, Dev.pprWrite, Dev.pprWritten, hcode, hidle, hfence, ht, hfeature', hnamed, hready]

omit hnames in
/-- A hard repair of a tile in service is refused. -/
theorem Dev.pprWrite_inService (hop : fld w 46 2 = 2) (hready : d.ready t = true) :
    d.pprWrite b w = (d.pprWritten b w).setFld (A.ppr b.val) 16 2 2 := by
  have hidle : (d.prots[b]).rowOp.isSome = false := by rw [hrow]; rfl
  have hcode : codeOf [0, 1, 2] (fld w 46 2) = 2 := by rw [hop]; rfl
  simp [-Fin.getElem_fin, -Fin.ofNat_eq_cast, Dev.pprWrite, Dev.pprWritten, hcode, hidle, hfence, ht, hready]

end

/-- What a repair that is taken leaves. -/
theorem Dev.pprWrite_begun {d : Dev} {b : Fin 8} {w : Word} {kind : BitVec 3} (hkind : kind = 3 ∨ kind = 4)
    (hrebuild : (d.prots[b]).rebuild = false) (hcalm : d.calm)
    (htaken : d.pprWrite b w = ((d.pprWritten b w).setFld (A.ppr b.val) 18 1 1).rowTake b kind w) :
    ((d.pprWrite b w).prots[b]).rowOp = some (rowRun kind w) ∧ (d.pprWrite b w).fldR (A.ppr b.val) 18 1 = 1 ∧
      d.regsBut (d.pprWrite b w) [A.ppr b.val] := by
  have hregs := d.pprWritten_setFld_regsBut b w 18 1 1
  have hbusy : ((d.pprWritten b w).setFld (A.ppr b.val) 18 1 1).fldR (A.ppr b.val) 18 1 = 1 :=
    Dev.fldR_setFld_fits (v := 1) _ _ (by decide) (by decide) (by decide)
  have hrebuild' : (((d.pprWritten b w).setFld (A.ppr b.val) 18 1 1).prots[b]).rebuild = false := hrebuild
  have hcalm' : ((d.pprWritten b w).setFld (A.ppr b.val) 18 1 1).calm := hcalm
  generalize (d.pprWritten b w).setFld (A.ppr b.val) 18 1 1 = y at *
  rw [htaken, Dev.rowTake_ppr hrebuild' hcalm' hkind, Dev.withRow_prots_same]
  exact ⟨rfl, hbusy, hregs⟩

/-- SOFT_PPR and HARD_PPR: a repair of a row that an entry names is taken, the hard one only out of service. -/
theorem ppr_exec (s : State) (m : Master) (b : Fin 8) (v : Word) (hlive : s.dev.live = true)
    (hrow : (s.dev.prots[b]).rowOp = none) (hfence : s.dev.subFenced b = false) (hrebuild : (s.dev.prots[b]).rebuild = false)
    (hnames : s.dev.pprNames b v) :
    let t : Fin 16 := Fin.ofNat 16 (2 * b.val + fld v 45 1)
    (s.dev.feature t 5 = true → s.dev.calm → ∃ d : Dev, exec (.softPpr m b v) s = .next { s with dev := d } ∧
      (d.prots[b]).rowOp = some { kind := 3, v := put v 46 2 1, waiting := false, sent := false } ∧
      d.fldR (A.ppr b.val) 18 1 = 1 ∧ s.dev.regsBut d [A.ppr b.val]) ∧
    (s.dev.feature t 6 = true → s.dev.ready t = false → s.dev.calm →
      ∃ d : Dev, exec (.hardPpr m b v) s = .next { s with dev := d } ∧
      (d.prots[b]).rowOp = some { kind := 4, v := put v 46 2 2, waiting := false, sent := false } ∧
      d.fldR (A.ppr b.val) 18 1 = 1 ∧ s.dev.regsBut d [A.ppr b.val]) ∧
    (s.dev.ready t = true → ∃ d : Dev, exec (.hardPpr m b v) s = .next { s with dev := d } ∧
      d = { s.dev with rf := d.rf } ∧ d.fldR (A.ppr b.val) 16 2 = 2 ∧ s.dev.regsBut d [A.ppr b.val]) := by
  intro t
  have ht (op : Nat) : Fin.ofNat 16 (2 * b.val + fld (put v 46 2 op) 45 1) = t := by rw [fld_putOp_row v op (by decide)]
  refine ⟨fun hfeature hcalm => ?_, fun hfeature hready hcalm => ?_, fun hready => ⟨_, exec_of_devNext hlive rfl, ?_⟩⟩
  · have htaken := Dev.pprWrite_taken hrow hfence (Dev.pprNames_putOp 1 hnames) (ht 1) (fld_put_op v (by decide)) (.inl rfl)
      hfeature (fun h => by cases h)
    exact ⟨_, exec_of_devNext hlive rfl, Dev.pprWrite_begun (.inl rfl) hrebuild hcalm htaken⟩
  · have htaken := Dev.pprWrite_taken hrow hfence (Dev.pprNames_putOp 2 hnames) (ht 2) (fld_put_op v (by decide)) (.inr rfl)
      hfeature (fun _ => hready)
    exact ⟨_, exec_of_devNext hlive rfl, Dev.pprWrite_begun (.inr rfl) hrebuild hcalm htaken⟩
  · rw [Dev.pprWrite_inService hrow hfence (ht 2) (fld_put_op v (by decide)) hready]
    exact ⟨rfl, Dev.fldR_setFld_fits (v := 2) _ _ (by decide) (by decide) (by decide), Dev.pprWritten_setFld_regsBut _ _ _ _ _ _⟩

/-! ### The end of a PPR -/

theorem Dev.modProt_caOpen (d : Dev) (o b : Fin 8) (f : Prot → Prot) : (d.modProt o f).caOpen b = d.caOpen b := rfl

theorem Dev.caSend_rf (d : Dev) (b : Fin 8) (wait : Nat) (cs : List Cmd) : (d.caSend b wait cs).rf = d.rf := by rw [Dev.caSend_eq]

/-- The repair sequence writes no register, and CA stays as open as it was. -/
theorem Dev.pprGo_keeps (d : Dev) (b : Fin 8) : (d.pprGo b).rf = d.rf ∧ (d.pprGo b).caOpen b = d.caOpen b := by
  unfold Dev.pprGo
  split
  next => exact ⟨rfl, rfl⟩
  next =>
    split
    · exact ⟨rfl, rfl⟩
    · refine ⟨d.caSend_rf b 0 _, ?_⟩
      rw [Dev.modProt_caOpen]
      exact ((d.caSend_sameCycle b 0 _).trans (Dev.modBank_sameCycle _ _ _ _)).caOpen b

/-- The repair of `b` as its end leaves it. -/
def Dev.pprEnded (d : Dev) (b : Fin 8) : Dev := ((d.rowFree b).setFld (A.ppr b.val) 18 1 0).setFld (A.ppr b.val) 16 2 1

theorem Dev.pprEnded_code (d : Dev) (b : Fin 8) : (d.pprEnded b).fldR (A.ppr b.val) 18 1 = 0 ∧
    (d.pprEnded b).fldR (A.ppr b.val) 16 2 = 1 := by
  refine ⟨?_, Dev.fldR_setFld_fits (v := 1) _ _ (by decide) (by decide) (by decide)⟩
  rw [Dev.pprEnded, Dev.fldR_setFld_other _ _ _ _ _ _ _ (by decide) (by decide) (.inr (by decide))]
  exact Dev.fldR_setFld_fits (v := 0) _ _ (by decide) (by decide) (by decide)

theorem Dev.pprEnded_regsBut (d : Dev) (b : Fin 8) : d.regsBut (d.pprEnded b) [A.ppr b.val] :=
  Dev.regsBut.trans (Dev.setFld_regsBut (d.rowFree b) _ _ _ _) (Dev.setFld_regsBut _ _ _ _ _)

theorem Dev.pprEnded_rowOp (d : Dev) (b : Fin 8) : ((d.pprEnded b).prots[b]).rowOp = none := by
  rw [Dev.pprEnded, Dev.setFld_prots, Dev.setFld_prots, Dev.rowFree, Dev.modProt_prots_same]

/-- PPR_DONE: the repair ends, and says so. -/
theorem pprDone_exec (s : State) (b : Fin 8) (o : RowOp) (hlive : s.dev.live = true) (hrow : (s.dev.prots[b]).rowOp = some o)
    (hwait : o.waiting = false) (hkind : o.kind = 3 ∨ o.kind = 4) :
    ∃ d : Dev, exec (.pprDone b) s = .next { s with dev := d } ∧ (d.prots[b]).rowOp = none ∧ d.fldR (A.ppr b.val) 18 1 = 0 ∧
      d.fldR (A.ppr b.val) 16 2 = 1 ∧ s.dev.regsBut d [A.ppr b.val] ∧
      (s.dev.caOpen b = true → (d.phys[b]).lastCmd = some (pprExit b o.v)) := by
  have hppr : (!(decide (o.kind = 3) || decide (o.kind = 4))) = false := by
    obtain h | h := hkind <;> rw [h] <;> rfl
  have hexec : exec (.pprDone b) s = .next { s with dev := ((s.dev.pprGo b).pprEnded b).caSend b 0 [pprExit b o.v] } := by
    refine exec_of_devNext hlive ?_
    show devNext s _ = _
    simp only [hrow, hwait, hppr, Bool.or_self, Bool.false_eq_true, if_false]
    rfl
  obtain ⟨hrf, hopen⟩ := s.dev.pprGo_keeps b
  generalize s.dev.pprGo b = y at *
  have hsent (a : Nat) : ((y.pprEnded b).caSend b 0 [pprExit b o.v]).reg a = (y.pprEnded b).reg a :=
    Dev.reg_of_rf (Dev.caSend_rf _ _ _ _) a
  obtain ⟨hbusy, hcode⟩ := y.pprEnded_code b
  refine ⟨_, hexec, ?_, (congrArg (fld · 18 1) (hsent _)).trans hbusy, (congrArg (fld · 16 2) (hsent _)).trans hcode,
    fun a ha => ?_, fun hca => ?_⟩
  · rw [Dev.caSend_eq]
    exact y.pprEnded_rowOp b
  · rw [hsent, y.pprEnded_regsBut b a ha]
    exact Dev.reg_of_rf hrf a
  · exact Dev.caSend_lastCmd (d := y.pprEnded b) (wait := 0) (hopen.trans hca) [] _

/-- Settles O39: a MOVE or RETURN marks its entry and begins its copy under the lock of column 0, its end puts the entry in
force or frees it, and a repair runs on a row that an entry names. -/
theorem rowCommands : Obligations.RowCommands := by
  unfold Obligations.RowCommands
  exact ⟨fun s m b v hlive hrow hfence hrebuild => remapMove_exec s m b v hlive hrow hfence hrebuild,
    fun s m b v hlive hrow hfence hrebuild => remapReturn_exec s m b v hlive hrow hfence hrebuild,
    fun s b o j hlive hrow hwait hkind hheld hops hjobs hjob hleft hcol =>
      remapDone_exec s b o j hlive hrow hwait hkind hheld hops hjobs hjob hleft hcol,
    fun s m b v hlive hrow hfence hrebuild hnames => ppr_exec s m b v hlive hrow hfence hrebuild hnames,
    fun s b o hlive hrow hwait hkind => pprDone_exec s b o hlive hrow hwait hkind⟩

end Sys2Proof.Machine
end

section
/-! SUPPORT. What the beginning of a row command leaves as it is (R212): its read may wake the port, and so refuse a power entry. -/

namespace Sys2Proof.Machine

/-- From `x` to `y` engines, faults, the line code and ATTN stand. -/
structure Dev.undisturbed (x y : Dev) : Prop where
  engs : y.engs = x.engs
  flt : y.flt = x.flt
  prots : y.prots = x.prots
  attn : y.reg A.attn = x.reg A.attn

theorem Dev.undisturbed_refl (d : Dev) : d.undisturbed d := ⟨rfl, rfl, rfl, rfl⟩

theorem Dev.undisturbed.trans {x y z : Dev} (h : x.undisturbed y) (k : y.undisturbed z) : x.undisturbed z :=
  ⟨k.engs.trans h.engs, k.flt.trans h.flt, k.prots.trans h.prots, k.attn.trans h.attn⟩

/-- Ports and tiles say nothing of them. -/
theorem Dev.undisturbed.same {x y z : Dev} (h : x.undisturbed y) (hengs : z.engs = y.engs) (hflt : z.flt = y.flt)
    (hprots : z.prots = y.prots) (hrf : z.rf = y.rf) : x.undisturbed z :=
  ⟨hengs.trans h.engs, hflt.trans h.flt, hprots.trans h.prots, (Dev.reg_of_rf hrf _).trans h.attn⟩

/-- In power state 0 the engines have power. -/
def Dev.powered (d : Dev) : Prop := d.pwrState = 0 ∧ d.engPower = true

theorem Dev.engPower_congr {x y : Dev} (hreg : y.reg A.pwrStatus = x.reg A.pwrStatus) (hpwr : y.pwr = x.pwr) :
    y.engPower = x.engPower := by
  simp only [Dev.engPower, Dev.fldR, hreg, hpwr]
  rfl

theorem Dev.powered.same {x y : Dev} (h : x.powered) (hreg : y.reg A.pwrStatus = x.reg A.pwrStatus) (hpwr : y.pwr = x.pwr) :
    y.powered := by
  obtain ⟨hstate, hpower⟩ := h
  refine ⟨?_, (Dev.engPower_congr hreg hpwr).trans hpower⟩
  rw [Dev.pwrState, Dev.fldR, hreg]
  exact hstate

/-- In state 0 the engines have power where the phase is steady or a rollback. -/
theorem Dev.powered_of_phase {d : Dev} (hstate : d.pwrState = 0) (hphase : d.fldR A.pwrStatus 4 4 = 0 ∨ d.fldR A.pwrStatus 4 4 = 2) :
    d.powered := by
  refine ⟨hstate, ?_⟩
  obtain h | h := hphase
  · simp only [Dev.engPower, h]
    exact decide_eq_true hstate
  · simp only [Dev.engPower, h]

/-! ### A power entry that is refused (R163, R320) -/

/-- PWR_STATUS as a refusal by `n` leaves it, with the counts and the ports. -/
def Dev.refusedBy (d : Dev) (n : Nat) : Dev :=
  ((d.resumePorts.bump A.refusals (8 * (n - 1)) 8).setFld A.pwrStatus 16 3 n).setFld A.pwrStatus 12 4 2

theorem Dev.refusedBy_state (d : Dev) (n : Nat) : (d.refusedBy n).pwrState = d.pwrState := by
  rw [Dev.pwrState, Dev.refusedBy, Dev.fldR_setFld_other _ _ _ _ _ _ _ (by decide) (by decide) (.inl (by decide)),
    Dev.fldR_setFld_other _ _ _ _ _ _ _ (by decide) (by decide) (.inl (by decide)), Dev.bump, Dev.bumpBy,
    Dev.fldR_setFld_ne _ _ _ _ _ _ (by decide)]
  rfl

theorem Dev.refusedBy_undisturbed (d : Dev) (n : Nat) : d.undisturbed (d.refusedBy n) where
  engs := rfl
  flt := rfl
  prots := rfl
  attn := by
    rw [Dev.refusedBy, Dev.reg_setFld, if_neg (by decide), Dev.reg_setFld, if_neg (by decide), Dev.bump, Dev.bumpBy, Dev.reg_setFld,
      if_neg (by decide)]
    rfl

/-- The polls of an entry are forgotten. -/
def Dev.pollsGone (d : Dev) : Dev := { d with pwr := { d.pwr with poll := 0, latched := 0, markDone := [] } }

theorem Dev.pollsGone_reg (d : Dev) (a : Nat) : d.pollsGone.reg a = d.reg a := rfl

theorem Dev.pollsGone_fldR (d : Dev) (a lo len : Nat) : d.pollsGone.fldR a lo len = d.fldR a lo len := rfl

/-- The phase of a rollback, and the polls of the entry gone. -/
def Dev.rolledBack (d : Dev) (phase : Nat) : Dev := (d.setFld A.pwrStatus 4 4 phase).pollsGone

theorem Dev.rolledBack_undisturbed (d : Dev) (phase : Nat) : d.undisturbed (d.rolledBack phase) where
  engs := rfl
  flt := rfl
  prots := rfl
  attn := by rw [Dev.rolledBack, Dev.pollsGone_reg, Dev.reg_setFld, if_neg (by decide)]

theorem Dev.rolledBack_powered {d : Dev} (hstate : d.pwrState = 0) {phase : Nat} (hphase : phase = 0 ∨ phase = 2) :
    (d.rolledBack phase).powered := by
  have hput : (d.rolledBack phase).fldR A.pwrStatus 4 4 = phase % 2 ^ 4 := by
    rw [Dev.rolledBack, Dev.pollsGone_fldR, Dev.fldR_setFld_same _ _ _ _ _ (by decide) (by decide)]
  have hstate' : (d.rolledBack phase).pwrState = 0 := by
    rw [Dev.pwrState, Dev.rolledBack, Dev.pollsGone_fldR,
      Dev.fldR_setFld_other _ _ _ _ _ _ _ (by decide) (by decide) (.inl (by decide))]
    exact hstate
  refine Dev.powered_of_phase hstate' ?_
  rw [hput]
  obtain rfl | rfl := hphase
  · exact .inl rfl
  · exact .inr rfl

theorem Dev.sillPush_undisturbed (d : Dev) (ty : Nat) (coord : BitVec 16) (i : Nat) (data : Word) :
    d.undisturbed (d.sillPush ty coord i data) := by
  obtain ⟨_, _, he, hr⟩ := d.sillPush_eq ty coord i data
  rw [he]
  exact ⟨rfl, rfl, rfl, hr _ (by decide)⟩

theorem Dev.sillPush_powered {d : Dev} (ty : Nat) (coord : BitVec 16) (i : Nat) (data : Word) (h : d.powered) :
    (d.sillPush ty coord i data).powered := by
  refine h.same (d.sillPush_regsBut ty coord i data _ (by decide)) ?_
  obtain ⟨_, _, he, -⟩ := d.sillPush_eq ty coord i data
  rw [he]

/-- A refusal that comes outside an entry does nothing; in one, the phase is steady again or a rollback. -/
theorem Dev.refuseEntry_cases (d : Dev) (n : Nat) : d.refuseEntry n = d ∨ ∃ phase data, (phase = 0 ∨ phase = 2) ∧
    d.refuseEntry n = ((d.refusedBy n).rolledBack phase).sillPush 6 0 0 data := by
  unfold Dev.refuseEntry
  split
  · exact .inl rfl
  · refine .inr ⟨if (d.refusedBy n).portsRun then 0 else 2, _, ?_, rfl⟩
    split
    · exact .inl rfl
    · exact .inr rfl

theorem Dev.refuseEntry_undisturbed (d : Dev) (n : Nat) : d.undisturbed (d.refuseEntry n) := by
  obtain h | ⟨phase, data, -, h⟩ := d.refuseEntry_cases n
  · rw [h]
    exact d.undisturbed_refl
  · rw [h]
    exact ((d.refusedBy_undisturbed n).trans (Dev.rolledBack_undisturbed _ _)).trans (Dev.sillPush_undisturbed _ _ _ _ _)

theorem Dev.refuseEntry_powered {d : Dev} (n : Nat) (hp : d.powered) : (d.refuseEntry n).powered := by
  obtain h | ⟨phase, data, hphase, h⟩ := d.refuseEntry_cases n
  · rw [h]
    exact hp
  · rw [h]
    exact Dev.sillPush_powered _ _ _ _ (Dev.rolledBack_powered ((d.refusedBy_state n).trans hp.1) hphase)

/-! ### The arrival of a step's read (R163) -/

theorem srReg_ne : ∀ p : Fin 4, A.attn ≠ A.sr p.val ∧ A.pwrStatus ≠ A.sr p.val := by decide

/-- The abort of a port's self-refresh entry, counted. -/
def Dev.srAborted (d : Dev) (p : Fin 4) : Dev := (d.modPort p (fun x => { x with sr := .run })).bump (A.sr p.val) 16 16

theorem Dev.srAborted_undisturbed (d : Dev) (p : Fin 4) : d.undisturbed (d.srAborted p) where
  engs := rfl
  flt := rfl
  prots := rfl
  attn := by rw [Dev.srAborted, Dev.bump, Dev.bumpBy, Dev.reg_setFld, if_neg (srReg_ne p).1, Dev.modPort_reg]

theorem Dev.srAborted_powered {d : Dev} (p : Fin 4) (h : d.powered) : (d.srAborted p).powered := by
  refine h.same ?_ rfl
  rw [Dev.srAborted, Dev.bump, Dev.bumpBy, Dev.reg_setFld, if_neg (srReg_ne p).2, Dev.modPort_reg]

/-- An arrival wakes its port, and refuses the power entry that the port's self-refresh was part of. -/
theorem Dev.arrive_cases (d : Dev) (p : Fin 4) : ∃ y : Dev, d.undisturbed y ∧ (d.powered → y.powered) ∧
    (d.arrive p = y ∨ d.arrive p = y.refuseEntry 3) := by
  unfold Dev.arrive
  split
  next =>
    extract_lets power d1 d2
    have hrf : d2.rf = (d.srAborted p).rf := rfl
    have hkept : d.undisturbed d2 := (d.srAborted_undisturbed p).same rfl rfl rfl hrf
    have hpower (hp : d.powered) : d2.powered := (Dev.srAborted_powered p hp).same (Dev.reg_of_rf hrf _) rfl
    split
    · exact ⟨d2, hkept, hpower, .inr rfl⟩
    · refine ⟨_, ?_, fun hp => ?_, .inl rfl⟩
      · exact hkept.same rfl rfl rfl rfl
      · exact (hpower hp).same (Dev.modPort_reg _ _ _ _) rfl
  next => exact ⟨d, d.undisturbed_refl, id, .inl rfl⟩
  next =>
    split
    · exact ⟨d, d.undisturbed_refl, id, .inl rfl⟩
    · refine ⟨_, ?_, fun hp => ?_, .inl rfl⟩
      · exact d.undisturbed_refl.same rfl rfl rfl rfl
      · exact hp.same (Dev.modPort_reg _ _ _ _) rfl

theorem Dev.arrive_undisturbed (d : Dev) (p : Fin 4) : d.undisturbed (d.arrive p) := by
  obtain ⟨y, hy, -, h | h⟩ := d.arrive_cases p
  · rw [h]
    exact hy
  · rw [h]
    exact hy.trans (y.refuseEntry_undisturbed 3)

theorem Dev.arrive_powered {d : Dev} (p : Fin 4) (hp : d.powered) : (d.arrive p).powered := by
  obtain ⟨y, -, hy, h | h⟩ := d.arrive_cases p
  · rw [h]
    exact hy hp
  · rw [h]
    exact Dev.refuseEntry_powered 3 (hy hp)

/-! ### A step that begins -/

theorem Dev.access_undisturbed (d : Dev) (who : Who) (note : BitVec 4) (master : BitVec 11) (line : LineAddr) (op : Op)
    (loc : Loc) (key : KeyUse) : d.undisturbed (d.access who note master line op loc key) := by
  obtain ⟨hengs, hflt, hprots, hattn⟩ := d.tickRid.arrive_undisturbed (locPort loc)
  exact ⟨hengs, hflt, hprots, hattn⟩

theorem Dev.access_powered {d : Dev} (who : Who) (note : BitVec 4) (master : BitVec 11) (line : LineAddr) (op : Op)
    (loc : Loc) (key : KeyUse) (h : d.powered) : (d.access who note master line op loc key).powered :=
  Dev.arrive_powered (d := d.tickRid) (locPort loc) h

/-- A step that begins leaves the engines, the line code and the power entry's outcome to what they were. -/
theorem Dev.jobStart_undisturbed (d : Dev) (kind : JobKind) (e : Option (Fin 72 × Nat)) (note : BitVec 4) (master : BitVec 11)
    (page : Option (BitVec 32)) (lines : List (Loc × KeyUse)) : d.undisturbed (d.jobStart kind e note master page lines) := by
  unfold Dev.jobStart
  refine Dev.each_keeps d.undisturbed _ (fun x y hy => hy.trans (Dev.access_undisturbed _ _ _ _ _ _ _ _)) _ _ ?_
  refine Dev.each_keeps d.undisturbed (fun (x : Loc × KeyUse) y => y.modPort (locPort x.1) (Port.lock x.1))
    (fun x y hy => hy.trans ⟨rfl, rfl, rfl, rfl⟩) _ _ ⟨rfl, rfl, rfl, rfl⟩

theorem Dev.jobStart_powered {d : Dev} (kind : JobKind) (e : Option (Fin 72 × Nat)) (note : BitVec 4) (master : BitVec 11)
    (page : Option (BitVec 32)) (lines : List (Loc × KeyUse)) (h : d.powered) :
    (d.jobStart kind e note master page lines).powered := by
  unfold Dev.jobStart
  refine Dev.each_keeps Dev.powered _ (fun x y hy => Dev.access_powered (d := y) _ _ _ _ _ _ _ hy) _ _ ?_
  exact Dev.each_keeps Dev.powered (fun (x : Loc × KeyUse) y => y.modPort (locPort x.1) (Port.lock x.1)) (fun x y hy => hy) _ _ h

theorem Dev.rowGo_cases (d : Dev) (b : Fin 8) : d.rowGo b = d ∨
    d.pwrState = 0 ∧ ∃ l, d.rowGo b = d.jobStart (.row b) none 15 0 none [(l, KeyUse.byLoc)] := by
  unfold Dev.rowGo
  split
  next => exact .inl rfl
  next =>
    split
    next => exact .inl rfl
    next hopen =>
      extract_lets l
      split
      · exact .inl rfl
      · refine .inr ⟨?_, l, rfl⟩
        have hpower : d.powerOpen = true := by
          by_contra hclosed
          exact hopen (by simp [hclosed])
        rw [Dev.powerOpen, Bool.and_eq_true, decide_eq_true_eq] at hpower
        exact hpower.1

theorem Dev.rowGo_undisturbed (d : Dev) (b : Fin 8) : d.undisturbed (d.rowGo b) := by
  obtain h | ⟨-, l, h⟩ := d.rowGo_cases b
  · rw [h]
    exact d.undisturbed_refl
  · rw [h]
    exact Dev.jobStart_undisturbed _ _ _ _ _ _ _

theorem Dev.rowGo_engPower {d : Dev} (b : Fin 8) (hp : d.engPower = true) : (d.rowGo b).engPower = true := by
  obtain h | ⟨hstate, l, h⟩ := d.rowGo_cases b
  · rw [h]
    exact hp
  · rw [h]
    exact (Dev.jobStart_powered _ _ _ _ _ _ ⟨hstate, hp⟩).2

end Sys2Proof.Machine
end

section
/-! SUPPORT. How an engine learns of its pointer step's end (R261), and what the end of a rebuild leaves (R210). -/

namespace Sys2Proof.Machine

/-! ### Engines -/

/-- An engine whose pointer step has ended at once. -/
def Engine.stepEnds (rd : Fin 16) (v : Nat) (x : Engine) : Engine := (x.setW rd (BitVec.ofNat 48 v)).next

theorem Engine.stepEnds_writes (x : Engine) (rd : Fin 16) (v : Nat) : x.writes (x.stepEnds rd v) rd (BitVec.ofNat 48 v) ∧
    (x.stepEnds rd v).pc = x.pc + 1 := by
  refine ⟨fun k => x.w_setW rd _ k, ?_⟩
  obtain ⟨regs, hset⟩ := x.setW_eq rd (BitVec.ofNat 48 v)
  rw [Engine.stepEnds, hset]
  rfl

/-- An engine that waits for its pointer step goes on with its outcome. -/
theorem Engine.stepDone_waiting {x : Engine} {rd : Fin 16} (hrun : x.run = .waiting) (hwait : x.wait = .step rd) (v : Nat) :
    x.writes (x.stepDone x.gen v) rd (BitVec.ofNat 48 v) ∧ (x.stepDone x.gen v).pc = x.pc + 1 := by
  have hdone : x.stepDone x.gen v = (x.setW rd (BitVec.ofNat 48 v)).resume := by simp [Engine.stepDone, hrun, hwait]
  rw [hdone]
  refine ⟨fun k => x.w_setW rd _ k, ?_⟩
  obtain ⟨regs, hset⟩ := x.setW_eq rd (BitVec.ofNat 48 v)
  rw [hset]
  rfl

theorem Dev.stepEnd_eq {d : Dev} {e : Fin 72} (h : d.engRuns e = true) (rd : Fin 16) (v : Nat) :
    d.stepEnd e rd v = d.modEng e (Engine.stepEnds rd v) := if_pos h

/-- A step that ends at once, on a device on which the engine is as it was. -/
theorem Dev.stepEnd_stepped {x y : Dev} {e : Fin 72} (hengs : y.engs = x.engs) (h : y.engRuns e = true) (rd : Fin 16) (v : Nat) :
    x.stepped (y.stepEnd e rd v) e rd v := by
  rw [Dev.stepped, Dev.stepEnd_eq h, Dev.modEng_engs_same, hengs]
  exact (x.engs[e]).stepEnds_writes rd v

/-- Engines run on where they, FATAL and the power entry are as they were. -/
theorem Dev.engRuns_of_kept {x y : Dev} {e : Fin 72} (hengs : y.engs = x.engs) (hflt : y.flt = x.flt)
    (hpower : x.engPower = true → y.engPower = true) (h : x.engRuns e = true) : y.engRuns e = true := by
  rw [Dev.engRuns, Bool.and_eq_true] at h ⊢
  rw [hengs, hflt]
  exact ⟨h.1, hpower h.2⟩

theorem Dev.engRuns_of_issues {d : Dev} {e : Fin 72} (h : d.engIssues e = true) : d.engRuns e = true := by
  rw [Dev.engIssues, Bool.and_eq_true] at h
  exact h.1

/-! ### The end of a rebuild (R210) -/

/-- From `x` to `y` a row command may have begun: engines, faults and ATTN stand, and of the line code all but its row command. -/
structure Dev.rowStarts (x y : Dev) : Prop where
  engs : y.engs = x.engs
  flt : y.flt = x.flt
  attn : y.reg A.attn = x.reg A.attn
  prots : ∀ c : Fin 8, ∃ o, y.prots[c] = { x.prots[c] with rowOp := o }
  power : x.engPower = true → y.engPower = true

theorem Dev.rowOpStart_cases (d : Dev) (b : Fin 8) : d.rowOpStart b = d ∨ ∃ (o : RowOp) (y : Dev), d.rowOpStart b = y ∧
    y = { d.modProt b (Prot.withRow o) with rf := y.rf } ∧ d.regsBut y [rowOpEntry b o.v] := by
  unfold Dev.rowOpStart
  split
  next => exact .inl rfl
  next o _ =>
    refine .inr ⟨{ o with waiting := false }, _, rfl, ?_⟩
    extract_lets d1 a
    have hregs : d.regsBut d1 [a] := fun _ _ => rfl
    split
    · exact ⟨rfl, fun b hb => (Dev.reg_setReg _ _ _ _).trans ((if_neg (List.mem_singleton.not.mp hb)).trans (hregs b hb))⟩
    · exact ⟨rfl, (hregs.trans (Dev.setFld_regsBut _ _ _ _ _)).trans (Dev.setFld_regsBut _ _ _ _ _)⟩
    · exact ⟨rfl, hregs⟩

theorem Dev.rowOpStart_rowStarts (d : Dev) (b : Fin 8) : d.rowStarts (d.rowOpStart b) := by
  obtain h | ⟨o, y, h, hy, hregs⟩ := d.rowOpStart_cases b
  · rw [h]
    exact ⟨rfl, rfl, rfl, fun c => ⟨_, rfl⟩, id⟩
  · have hattn : y.reg A.attn = d.reg A.attn :=
      hregs _ fun hin => ne_rowOpEntry_of_mem b o.v (a := A.attn) (by decide) (List.mem_singleton.mp hin)
    have hstatus : y.reg A.pwrStatus = d.reg A.pwrStatus :=
      hregs _ fun hin => ne_rowOpEntry_of_mem b o.v (a := A.pwrStatus) (by decide) (List.mem_singleton.mp hin)
    have hpwr : y.pwr = d.pwr := by rw [hy]; rfl
    rw [h]
    refine ⟨by rw [hy]; rfl, by rw [hy]; rfl, hattn, fun c => ?_, (Dev.engPower_congr hstatus hpwr).trans⟩
    have hprots : y.prots = (d.modProt b (Prot.withRow o)).prots := by rw [hy]
    rw [hprots]
    by_cases hc : c = b
    · rw [hc, Dev.withRow_prots_same]
      exact ⟨_, rfl⟩
    · rw [Dev.modProt_prots_ne _ _ _ hc]
      exact ⟨_, rfl⟩

/-- A row command that begins leaves what `Dev.rowStarts` says. -/
theorem Dev.rowBegin_rowStarts (d : Dev) (b : Fin 8) : d.rowStarts (d.rowBegin b) := by
  obtain ⟨hengs, hflt, hattn, hprots, hpower⟩ := d.rowOpStart_rowStarts b
  have hgo := (d.rowOpStart b).rowGo_undisturbed b
  refine ⟨hgo.engs.trans hengs, hgo.flt.trans hflt, hgo.attn.trans hattn, fun c => ?_, fun h => Dev.rowGo_engPower b (hpower h)⟩
  obtain ⟨o, hc⟩ := hprots c
  exact ⟨o, (congrArg (fun v : Vector Prot 8 => v[c]) hgo.prots).trans hc⟩

/-- The device with the rebuild of `b` done, recorded and raised. -/
def Dev.rebuilt (d : Dev) (b : Fin 8) : Dev :=
  ((d.modProt b (fun x => { x with rebuild := false })).sillSparing (protUnit b) 3).raiseAttn 5

theorem Dev.rebuilt_eq (d : Dev) (b : Fin 8) : ∃ rf sill, d.rebuilt b = { d.modProt b (fun x => { x with rebuild := false }) with
    rf := rf, sill := sill } := by
  obtain ⟨sill, rf, hsill, -⟩ := (d.modProt b (fun x => { x with rebuild := false })).sillPush_eq 10 (protUnit b) 0 (BitVec.ofNat 48 3)
  obtain ⟨sill', rf', hattn, -⟩ := ((d.modProt b (fun x => { x with rebuild := false })).sillSparing (protUnit b) 3).setAttn_eq
    (((d.modProt b (fun x => { x with rebuild := false })).sillSparing (protUnit b) 3).fldR A.attn 0 12 ||| 2 ^ 5)
  refine ⟨rf', sill', hattn.trans ?_⟩
  exact congrArg (fun x : Dev => { x with rf := rf', sill := sill' }) hsill

theorem Dev.rebuilt_status (d : Dev) (b : Fin 8) : (d.rebuilt b).reg A.pwrStatus = d.reg A.pwrStatus := by
  rw [Dev.rebuilt, (Dev.reports_raiseAttn _ 5).2 _ (by decide), Dev.sillSparing, Dev.sillPush_regsBut _ _ _ _ _ _ (by decide),
    Dev.modProt_reg]

/-- The rebuild's end: P stays at the sweep's end, ATTN 5 is pending, and the engines run on. -/
theorem Dev.rebuildEnd_keeps (d : Dev) (b : Fin 8) :
    ((d.rebuildEnd b).engs = d.engs ∧ (d.rebuildEnd b).flt = d.flt ∧ (d.engPower = true → (d.rebuildEnd b).engPower = true)) ∧
    ((d.rebuildEnd b).prots[b]).rebuild = false ∧ ((d.rebuildEnd b).prots[b]).p = (d.prots[b]).p ∧
    (d.rebuildEnd b).fldR A.attn 5 1 = 1 := by
  obtain ⟨rf, sill, hrebuilt⟩ := d.rebuilt_eq b
  obtain ⟨hregs, rf', journal, hjournal⟩ := (d.rebuilt b).journalStart_keeps
  obtain ⟨hengs, hflt, hattn, hprots, hpower⟩ := (d.rebuilt b).journalStart.rowBegin_rowStarts b
  have hend : d.rebuildEnd b = (d.rebuilt b).journalStart.rowBegin b := rfl
  rw [← hend] at hengs hflt hattn hprots hpower
  generalize d.rebuildEnd b = z at *
  have hb : ∃ o, z.prots[b] = { d.prots[b] with rebuild := false, rowOp := o } := by
    obtain ⟨o, ho⟩ := hprots b
    refine ⟨o, ho.trans ?_⟩
    have hjp : (d.rebuilt b).journalStart.prots = (d.modProt b (fun x => { x with rebuild := false })).prots := by
      rw [hjournal, hrebuilt]
    rw [hjp, Dev.modProt_prots_same]
  obtain ⟨o, hb⟩ := hb
  refine ⟨⟨?_, ?_, fun hp => hpower ?_⟩, by rw [hb], by rw [hb], ?_⟩
  · rw [hengs, hjournal, hrebuilt]
    rfl
  · rw [hflt, hjournal, hrebuilt]
    rfl
  · have hstatus : (d.rebuilt b).journalStart.reg A.pwrStatus = d.reg A.pwrStatus :=
      (hregs _ (by decide)).trans (d.rebuilt_status b)
    refine (Dev.engPower_congr hstatus ?_).trans hp
    rw [hjournal, hrebuilt]
    rfl
  · have hpending : (d.rebuilt b).fldR A.attn 5 1 = 1 := Dev.raiseAttn_pending _ (by decide)
    rw [Dev.fldR, hattn, hregs _ (by decide)]
    exact hpending

end Sys2Proof.Machine
end

section
/-! PROOF. O23: the steps of the rebuild and of the scrub that an engine commands (R210, R215, R261). -/

namespace Sys2Proof.Machine

/-! ### A step that moves a line -/

/-- What a port takes does not rest on the engines. -/
theorem Dev.freeRead.modEng {d : Dev} {l : Loc} {n : BitVec 4} (h : d.freeRead l n) (e : Fin 72) (f : Engine → Engine) :
    (d.modEng e f).freeRead l n := by
  obtain ⟨hcalm, hin, hrd, hun, hfence, hfill⟩ := h
  have hrd' := Dev.rdFree_congr (x := d) (y := d.modEng e f) (p := locPort l) n rfl rfl hcalm.1 hcalm.1 rfl
  exact ⟨hcalm, hin, hrd'.trans hrd, hun, hfence, hfill⟩

/-- A step on lines that are not locked begins, while no other is under way. -/
theorem Dev.stepGo_begins {d : Dev} {lines : List (Loc × KeyUse)} (hjobs : d.jobs = [])
    (hlocked : lines.any (fun x => d.lineLocked x.1) = false) (e : Fin 72) (rd : Fin 16) (kind : JobKind) (page : Option (BitVec 32)) :
    d.stepGo e rd kind page lines = ((d.modEng e (Engine.waitOn (.step rd))).jobStart kind (some (e, (d.engs[e]).gen)) (d.engNote e)
      (masterEng e) page lines).enterQueues := by
  unfold Dev.stepGo
  simp only [hjobs, hlocked, List.any_nil, Bool.or_self, Bool.false_eq_true, if_false]
  rfl

section
variable {d : Dev} {e : Fin 72} {l : Loc} (htakes : d.takes l (d.engNote e))
include htakes

/-- A step on a line that its port takes locks and reads it, and the engine waits. -/
theorem Dev.stepGo_readsLine (rd : Fin 16) (kind : JobKind) (k : KeyUse) : Dev.readsLine kind (some (e, (d.engs[e]).gen)) l
    (d.modEng e (Engine.waitOn (.step rd))) (d.stepGo e rd kind none [(l, k)]) := by
  obtain ⟨hfree, hat⟩ := htakes.freeAt
  have hlocked : [(l, k)].any (fun x => d.lineLocked x.1) = false := by
    rw [List.any_cons, List.any_nil, Bool.or_false]
    exact hfree.unlocked
  have hat' : ((d.modEng e (Engine.waitOn (.step rd))).ports[locPort l]).wrAt l = none := hat
  rw [Dev.stepGo_begins hfree.calm.2.2 hlocked]
  exact Dev.jobStart_readsLine (hfree.freeRead.modEng _ _) hat' _ _ _ _ _

/-- What an LSTEP that moves a line leaves. -/
theorem Dev.stepGo_waits {s : State} {i : Instr} {rd : Fin 16} {kind : JobKind} {k : KeyUse}
    (hexec : exec i s = .next { s with dev := d.stepGo e rd kind none [(l, k)] }) : d.stepWaits e rd i s kind l := by
  obtain ⟨⟨j, r, hjobs, hkind, hleft, hwho, hrdq, hloc, hacc⟩, hlocked, hengs, -, -⟩ := Dev.stepGo_readsLine htakes rd kind k
  refine ⟨_, j, r, hexec, ?_, hjobs, hkind, hleft, hwho, hlocked, hrdq, hloc, hacc⟩
  rw [hengs, Dev.modEng_engs_same]
  rfl

end

/-! ### LSTEP REBUILD (R210) -/

section
variable {d : Dev} {e : Fin 72} {rd ra : Fin 16} {b : Fin 8} (hissues : d.engIssues e = true) (hb : stepSub ((d.engs[e]).w ra) = b)
include hissues hb

theorem Dev.lstepRebuild_idle (hrebuild : (d.prots[b]).rebuild = false) : d.lstepRebuild e rd ra = d.stepEnd e rd 0 := by
  simp only [Dev.lstepRebuild, hb, hissues, hrebuild, Bool.not_true, Bool.not_false, Bool.true_or, Bool.false_eq_true, if_false,
    if_true]

section
variable (hrebuild : (d.prots[b]).rebuild = true) (hfrozen : (d.prots[b]).frozen = false) (hfence : d.subFenced b = false)
include hrebuild hfrozen hfence

theorem Dev.lstepRebuild_end (hsweep : d.sweepFrom b (d.prots[b]).p.toNat = none) :
    d.lstepRebuild e rd ra = (d.rebuildEnd b).stepEnd e rd outcEnd := by
  simp only [Dev.lstepRebuild, hb, hissues, hrebuild, hfrozen, hfence, hsweep, Bool.not_true, Bool.or_self, Bool.false_eq_true,
    if_false]

variable {q : Nat} (hsweep : d.sweepFrom b (d.prots[b]).p.toNat = some q) (hwindow : d.stepWindow e (sweepLoc b q) = true)
include hsweep hwindow

theorem Dev.lstepRebuild_skip (hskip : d.sweepSkips (sweepLoc b q) = true) :
    d.lstepRebuild e rd ra = Dev.stepPass (d.rebuildAdvance b q) e rd := by
  simp only [Dev.lstepRebuild, hb, hissues, hrebuild, hfrozen, hfence, hsweep, hwindow, hskip, Bool.not_true, Bool.or_self,
    Bool.false_eq_true, if_false, if_true]

theorem Dev.lstepRebuild_move (hskip : d.sweepSkips (sweepLoc b q) = false) :
    d.lstepRebuild e rd ra = d.stepGo e rd (.rebuild b) none [(d.lineAt (sweepLoc b q), KeyUse.byLoc)] := by
  simp only [Dev.lstepRebuild, hb, hissues, hrebuild, hfrozen, hfence, hsweep, hwindow, hskip, Bool.not_true, Bool.or_self,
    Bool.false_eq_true, if_false]

end

end

/-- The rebuild's pointer passes to `n`. -/
def Prot.passTo (n : Nat) (x : Prot) : Prot := { x with p := BitVec.ofNat 34 n }

theorem Dev.rebuildAdvance_next {d : Dev} {b : Fin 8} {q n : Nat} (h : d.sweepFrom b (q + 1) = some n) :
    d.rebuildAdvance b q = (d.modProt b (Prot.passTo n), false) := by
  rw [Dev.rebuildAdvance, h]
  rfl

/-- LSTEP REBUILD. -/
theorem lstepRebuild_exec (s : State) (e : Fin 72) (rd ra : Fin 16) (hx : s.executes e (.lstepRebuild e rd ra ()))
    (hissues : s.dev.engIssues e = true) :
    let b := stepSub ((s.dev.engs[e]).w ra)
    let p := (s.dev.prots[b]).p.toNat
    ((s.dev.prots[b]).rebuild = false → ∃ d : Dev, exec (.lstepRebuild e rd ra ()) s = .next { s with dev := d } ∧
      s.dev.stepped d e rd 0 ∧ d = { s.dev with engs := d.engs }) ∧
    ((s.dev.prots[b]).rebuild = true → (s.dev.prots[b]).frozen = false → s.dev.subFenced b = false →
      (s.dev.sweepFrom b p = none → ∃ d : Dev, exec (.lstepRebuild e rd ra ()) s = .next { s with dev := d } ∧
        s.dev.stepped d e rd 5 ∧ (d.prots[b]).rebuild = false ∧ (d.prots[b]).p = (s.dev.prots[b]).p ∧ d.fldR A.attn 5 1 = 1) ∧
      (∀ q n : Nat, s.dev.sweepFrom b p = some q → s.dev.sweepFrom b (q + 1) = some n →
        s.dev.stepWindow e (sweepLoc b q) = true → s.dev.sweepSkips (sweepLoc b q) = true →
        ∃ d : Dev, exec (.lstepRebuild e rd ra ()) s = .next { s with dev := d } ∧ s.dev.stepped d e rd 4 ∧
          (d.prots[b]).p = BitVec.ofNat 34 n ∧ (d.prots[b]).rebuild = true) ∧
      (∀ q : Nat, s.dev.sweepFrom b p = some q → s.dev.stepWindow e (sweepLoc b q) = true →
        s.dev.sweepSkips (sweepLoc b q) = false → s.dev.takes (s.dev.lineAt (sweepLoc b q)) (s.dev.engNote e) →
        s.dev.stepWaits e rd (.lstepRebuild e rd ra ()) s (.rebuild b) (s.dev.lineAt (sweepLoc b q)))) := by
  intro b p
  have hruns := Dev.engRuns_of_issues hissues
  have hexec : exec (.lstepRebuild e rd ra ()) s = .next { s with dev := s.dev.lstepRebuild e rd ra } :=
    State.exec_of_executes hx rfl
  refine ⟨fun hrebuild => ⟨_, hexec, ?_⟩, fun hrebuild hfrozen hfence => ⟨fun hsweep => ⟨_, hexec, ?_⟩,
    fun q n hsweep hnext hwindow hskip => ⟨_, hexec, ?_⟩, fun q hsweep hwindow hskip htakes => ?_⟩⟩
  · rw [Dev.lstepRebuild_idle hissues rfl hrebuild]
    refine ⟨Dev.stepEnd_stepped rfl hruns rd 0, ?_⟩
    rw [Dev.stepEnd_eq hruns]
    rfl
  · obtain ⟨⟨hengs, hflt, hpower⟩, hdone, hp, hattn⟩ := s.dev.rebuildEnd_keeps b
    have hruns' := Dev.engRuns_of_kept hengs hflt hpower hruns
    rw [Dev.lstepRebuild_end hissues rfl hrebuild hfrozen hfence hsweep]
    refine ⟨Dev.stepEnd_stepped hengs hruns' rd 5, ?_⟩
    rw [Dev.stepEnd_eq hruns', Dev.modEng_prots, Dev.fldR, Dev.modEng_reg]
    exact ⟨hdone, hp, hattn⟩
  · have hruns' : (s.dev.modProt b (Prot.passTo n)).engRuns e = true := hruns
    rw [Dev.lstepRebuild_skip hissues rfl hrebuild hfrozen hfence hsweep hwindow hskip, Dev.rebuildAdvance_next hnext]
    refine ⟨Dev.stepEnd_stepped (y := s.dev.modProt b (Prot.passTo n)) rfl hruns' rd 4, ?_⟩
    have hend : ∀ v, ((s.dev.modProt b (Prot.passTo n)).stepEnd e rd v).prots[b] = (s.dev.prots[b]).passTo n := fun v => by
      rw [Dev.stepEnd_eq hruns']
      rw [Dev.modEng_prots, Dev.modProt_prots_same]
    rw [Dev.stepPass, hend]
    exact ⟨rfl, hrebuild⟩
  · rw [Dev.lstepRebuild_move hissues rfl hrebuild hfrozen hfence hsweep hwindow hskip] at hexec
    exact Dev.stepGo_waits htakes hexec

end Sys2Proof.Machine
end

section
/-! SUPPORT. How a step ends (R210, R215, R231): its locks go, its pointer advances, and its engine learns the outcome. -/

namespace Sys2Proof.Machine

/-! ### The sweep -/

/-- Where a sweep goes on rests on the DRAM fitted alone. -/
theorem Dev.skipTo_of_cfg {x y : Dev} (h : y.cfg = x.cfg) (b : Fin 8) (n p : Nat) : y.skipTo b n p = x.skipTo b n p := by
  have hpresent (t : Fin 16) : y.present t = x.present t := by rw [Dev.present, Dev.present, h]
  have hpop (t : Fin 16) (o k : Nat) : y.popCfg t o k = x.popCfg t o k := by
    unfold Dev.popCfg Dev.cfgLe
    rw [h]
  have hstack (t : Fin 16) : y.stack t = x.stack t := by rw [Dev.stack, Dev.stack, hpresent, hpop]
  have hrows (t : Fin 16) : y.rowCount t = x.rowCount t := by rw [Dev.rowCount, Dev.rowCount, hpresent, hpop]
  induction n generalizing p with
  | zero => rfl
  | succ n ih => simp only [Dev.skipTo, ih, hpresent, hstack, hrows]

theorem Dev.sweepFrom_of_cfg {x y : Dev} (h : y.cfg = x.cfg) (b : Fin 8) (p : Nat) : y.sweepFrom b p = x.sweepFrom b p :=
  Dev.skipTo_of_cfg h b 40 p

/-! ### Steps that end -/

/-- The step under way with all of its lines done ends. -/
theorem Dev.jobsEnd_only {d : Dev} {j : Job} (hjobs : d.jobs = [j]) (hleft : j.left = 0) : d.jobsEnd = d.jobEnd j := by
  rw [Dev.jobsEnd, hjobs]
  exact if_pos hleft

/-- Step `j` alone is under way. -/
def Dev.withJob (d : Dev) (j : Job) : Dev := { d with jobs := [j] }

/-- A step whose lines are all done. -/
def Job.done (j : Job) : Job := { j with left := 0 }

/-- The last line of the only step under way is loaded: it ends. -/
theorem Dev.jobLoaded_only {d : Dev} {j : Job} (hjobs : d.jobs = [j]) (hleft : j.left = 1) :
    d.jobLoaded j.id = (d.withJob j.done).jobEnd j.done := by
  have hmap : d.jobs.map (fun (x : Job) => if x.id = j.id then { x with left := x.left - 1 } else x) = [j.done] := by
    simp [hjobs, hleft, Job.done]
  rw [Dev.jobLoaded, hmap]
  exact Dev.jobsEnd_only rfl rfl

/-- Once a step is over, its locks alone are gone from the ports. -/
theorem Dev.jobFree_wrq (d : Dev) (j : Job) (p : Fin 4) : ((d.jobFree j).ports[p]).wrq = (d.ports[p]).wrq := by
  refine Dev.each_keeps (fun y => (y.ports[p]).wrq = (d.ports[p]).wrq)
    (fun (x : Loc × KeyUse) y => y.modPort (locPort x.1) (fun q => q.unlock x.1)) (fun x y hy => ?_) j.lines _ rfl
  rw [Dev.modPort_ports]
  split
  next hp =>
    refine Eq.trans ?_ hy
    rw [hp]
    rfl
  next => exact hy

section
variable {x y : Dev} {j : Job} {e : Fin 72} {rd : Fin 16} (hwho : j.e = some (e, (x.engs[e]).gen))
include hwho

theorem Dev.jobTells_eq (v : Nat) : y.jobTells j v = y.modEng e (fun z => z.stepDone (x.engs[e]).gen v) := by
  rw [Dev.jobTells, hwho]

/-- The engine that waits for the step goes on with its outcome. -/
theorem Dev.jobTells_stepped (hengs : y.engs = x.engs) (hrun : (x.engs[e]).run = .waiting)
    (hwait : (x.engs[e]).wait = .step rd) (v : Nat) : x.stepped (y.jobTells j v) e rd v := by
  rw [Dev.stepped, Dev.jobTells_eq hwho, Dev.modEng_engs_same, hengs]
  exact Engine.stepDone_waiting hrun hwait v

end

/-- Of an engine's step, nothing but the engines changes. -/
theorem Dev.jobTells_only (d : Dev) (j : Job) (v : Nat) : ∃ engs, d.jobTells j v = { d with engs := engs } := by
  unfold Dev.jobTells
  split
  · exact ⟨_, rfl⟩
  · exact ⟨_, rfl⟩

end Sys2Proof.Machine
end

section
/-! PROOF. O23: the steps of the scrub (R215), and the last line of a rebuild's or scrub's step. -/

namespace Sys2Proof.Machine

/-- An engine that waited for its step in between has stepped. -/
theorem Dev.stepped_of_waitOn {d y : Dev} {e : Fin 72} {rd : Fin 16} {v : Nat}
    (h : (d.modEng e (Engine.waitOn (.step rd))).stepped y e rd v) : d.stepped y e rd v := by
  rw [Dev.stepped, Dev.modEng_engs_same] at h
  exact h

/-- The scrub pointer passes on. -/
theorem Dev.scrubAdvance_next {d : Dev} {b : Fin 8} {q n : Nat} (h : d.sweepFrom b (q + 1) = some n) :
    d.scrubAdvance b q = (d.setFld (A.scrub b.val) 0 34 n, false) := by
  rw [Dev.scrubAdvance, h]

/-! ### A line that stands in a full write entry (R215) -/

/-- A step one of whose lines needs no write, read with outcome `v`. -/
def Job.kept (j : Job) (v : Nat) (lines : List (Loc × KeyUse)) : Job :=
  { j with worst := max j.worst v, left := j.left - 1, lines := lines }

/-- A scrub writes no line that comes from a write entry. -/
theorem Dev.jobGot_scrub {x : Dev} {j : Job} {b : Fin 8} {r : ReadRes} {y : Loc × KeyUse} (hjobs : x.jobs = [j])
    (hlines : j.lines = [y]) (hkind : j.kind = .scrub b) (hfwd : r.fwd = true) (k : Option KeyUse) :
    ∃ lines, x.jobGot j.id 0 r k = x.withJob (j.kept r.outcome lines) := by
  obtain ⟨l, k0⟩ := y
  refine ⟨[(l, if k0.pinned then k0 else k.getD k0)], ?_⟩
  simp [Dev.jobGot, hjobs, hlines, hkind, hfwd, Job.kept, Dev.withJob]

section
variable {d : Dev} {h : Held} {j : Job} {b : Fin 8} {l : Loc} {k : KeyUse} {w : WrEnt} (hstep : h.ofStep j l)
  (hkind : j.kind = .scrub b) (hlines : j.lines = [(l, k)])
include hstep hkind hlines

/-- The read of a scrub finds its line in a full write entry, and is done. -/
theorem Dev.admitOne_scrubEntry (hrd : (d.steps j l).rdFree (locPort l) h.r.note = true)
    (hat : ((d.steps j l).ports[locPort l]).wrAt l = some w) (hmask : w.mask = fullMask) :
    ∃ lines, (d.steps j l).admitOne h (locPort l) l = some ((d.steps j l).withJob (j.kept outcClean lines)) := by
  have hfull : w.full = true := decide_eq_true hmask
  have hwho : ((d.steps j l).accOf h).who = .job j.id 0 := hstep.who
  have hgot (ov : Option (BitVec 64 × Line)) : ∃ lines, (d.steps j l).deliverRead ((d.steps j l).accOf h) ov w.forward (some w.key) =
      (d.steps j l).withJob (j.kept outcClean lines) := by
    rw [Dev.deliverRead, hwho]
    exact Dev.jobGot_scrub (r := { w.forward with data := w.forward.data.map (overLine ov) }) rfl hlines hkind rfl _
  unfold Dev.admitOne
  extract_lets key n acc at? ov wr
  obtain ⟨lines, hdone⟩ := hgot ov
  have hat' : at? = some w := hat
  have hneeds : Op.rd.needsWr (some w) = false := rfl
  refine ⟨lines, ?_⟩
  simp only [hstep.op, hat', n, hrd, hneeds, hfull, acc, hdone, Bool.not_true, Bool.and_false, Bool.false_and, Bool.or_false,
    Bool.false_eq_true, if_false, if_true]

end

theorem Job.kept_lineJob (d : Dev) (kind : JobKind) (e : Option (Fin 72 × Nat)) (n : BitVec 4) (master : BitVec 11)
    (page : Option (BitVec 32)) (x : Loc × KeyUse) (lines : List (Loc × KeyUse)) :
    ((d.lineJob kind e n master page x).kept outcClean lines).left = 0 ∧
      ((d.lineJob kind e n master page x).kept outcClean lines).worst = outcClean := ⟨rfl, rfl⟩

/-- A step that ends with a clean outcome while nothing else waits: what follows from it is nothing more. -/
theorem Dev.settleN_of_over {d : Dev} {j : Job} (hheld : d.txn.held = []) (hops : d.tier.ops = []) (hjobs : d.jobs = [])
    (v : Nat) (n : Nat) : Dev.settleN n (d.jobTells j v).tierAdvance = d.jobTells j v := by
  obtain ⟨engs, h⟩ := d.jobTells_only j v
  have hcalm : (d.jobTells j v).calm := by
    rw [h]
    exact ⟨hheld, hops, hjobs⟩
  rw [Dev.tierAdvance_of_none hcalm.2.1, Dev.settleN_of_calm n hcalm]

/-- The end of a scrub step whose pointer goes on to `n`. -/
theorem Dev.jobEnd_scrub {d : Dev} {j : Job} {b : Fin 8} {q n : Nat} (hjobs : d.jobs = [j]) (hkind : j.kind = .scrub b)
    (hsweep : d.sweepFrom b (d.fldR (A.scrub b.val) 0 34) = some q) (hnext : d.sweepFrom b (q + 1) = some n) :
    d.jobEnd j = ((d.jobFree j).setFld (A.scrub b.val) 0 34 n).jobTells j j.worst := by
  have hcfg : (d.jobFree j).cfg = d.cfg := by
    obtain ⟨ports, h⟩ := Dev.jobFree_only hjobs
    rw [h]
  have hnext' : (d.jobFree j).sweepFrom b (q + 1) = some n := (Dev.sweepFrom_of_cfg hcfg b _).trans hnext
  rw [Dev.jobEnd, hkind]
  show Dev.jobOver ((d.jobFree j).scrubAdvance b ((d.sweepFrom b (d.fldR (A.scrub b.val) 0 34)).getD 0)) j = _
  rw [hsweep, Option.getD_some, Dev.scrubAdvance_next hnext']
  rfl

section
variable {d : Dev} {e : Fin 72} {b : Fin 8} {l : Loc} {w : WrEnt} {q n : Nat} (htakes : d.takesAtEntry l (d.engNote e) w)
  (hmask : w.mask = fullMask) (hsweep : d.sweepFrom b (d.fldR (A.scrub b.val) 0 34) = some q)
  (hnext : d.sweepFrom b (q + 1) = some n)
include htakes hmask hsweep hnext

/-- A scrub step on a line that stands in a full write entry ends at once: its pointer passes, and its lock is gone. -/
theorem Dev.stepGo_scrubEntry (rd : Fin 16) (k : KeyUse) : ∃ (z : Dev) (j : Job), z.jobs = [j] ∧
    j.e = some (e, (d.engs[e]).gen) ∧ j.worst = outcClean ∧ z.engs = (d.modEng e (Engine.waitOn (.step rd))).engs ∧
    (z.txn.held = [] ∧ z.tier.ops = []) ∧ (z.ports[locPort l]).wrq = (d.ports[locPort l]).wrq ∧
    d.stepGo e rd (.scrub b) none [(l, k)] = ((z.jobFree j).setFld (A.scrub b.val) 0 34 n).jobTells j outcClean := by
  obtain ⟨hfree, hat⟩ := htakes.freeAt
  have hlocked : [(l, k)].any (fun x => d.lineLocked x.1) = false := by
    rw [List.any_cons, List.any_nil, Bool.or_false]
    exact hfree.unlocked
  rw [Dev.stepGo_begins hfree.calm.2.2 hlocked]
  generalize hx : d.modEng e (Engine.waitOn (.step rd)) = x
  have hfree' : x.freeRead l (d.engNote e) := by
    rw [← hx]
    exact hfree.freeRead.modEng _ _
  have hports : x.ports = d.ports := by rw [← hx]; rfl
  have hcfg : x.cfg = d.cfg := by rw [← hx]; rfl
  have hrf : x.rf = d.rf := by rw [← hx]; rfl
  obtain ⟨h, hstep, hstart⟩ := Dev.jobStart_line hfree' (.scrub b) (some (e, (d.engs[e]).gen)) (masterEng e) none k
  have hkept := Job.kept_lineJob x (.scrub b) (some (e, (d.engs[e]).gen)) (d.engNote e) (masterEng e) none (l, k)
  generalize hj : x.lineJob (.scrub b) (some (e, (d.engs[e]).gen)) (d.engNote e) (masterEng e) none (l, k) = j at hstep hstart hkept
  obtain ⟨hkind, hwho, hnote, hlines⟩ : j.kind = .scrub b ∧ j.e = some (e, (d.engs[e]).gen) ∧ j.note = d.engNote e ∧
      j.lines = [(l, k)] := by
    rw [← hj]
    exact ⟨rfl, rfl, rfl, rfl⟩
  rw [← hnote] at hfree'
  have hat' : ((x.steps j l).ports[locPort l]).wrAt l = some w := by
    rw [Dev.steps_port, hports]
    exact hat
  obtain ⟨lines, hadm⟩ := Dev.admitOne_scrubEntry hstep hkind hlines (Dev.steps_rdFree hfree' hstep) hat' hmask
  obtain ⟨hleft, hworst⟩ := hkept lines
  obtain ⟨ports, tiles, hrt⟩ := ((x.steps j l).withJob (j.kept outcClean lines)).rtBegin_eq (locPort l) j.note
  have htells := Dev.rtBegin_tells (e := 0) ((x.steps j l).withJob (j.kept outcClean lines)) (locPort l) j.note
  generalize hz : ((x.steps j l).withJob (j.kept outcClean lines)).rtBegin (locPort l) j.note = z at hrt htells
  have hjobs : z.jobs = [j.kept outcClean lines] := by rw [hrt]; rfl
  have hheld : z.txn.held = [] := by rw [hrt]; exact hfree'.calm.1
  have hops : z.tier.ops = [] := by rw [hrt]; exact hfree'.calm.2.1
  have hzcfg : z.cfg = d.cfg := by rw [hrt]; exact hcfg
  have hzrf : z.rf = d.rf := by rw [hrt]; exact hrf
  have hzsweep : z.sweepFrom b (z.fldR (A.scrub b.val) 0 34) = some q := by
    rw [Dev.sweepFrom_of_cfg hzcfg, Dev.fldR_of_rf hzrf]
    exact hsweep
  have hend := Dev.jobEnd_scrub hjobs hkind hzsweep ((Dev.sweepFrom_of_cfg hzcfg b _).trans hnext)
  refine ⟨z, j.kept outcClean lines, hjobs, hwho, hworst, ?_, ⟨hheld, hops⟩, ?_, ?_⟩
  · rw [hrt]
    rfl
  · have hwrq := htells.wrq (locPort l)
    rw [hwrq]
    show ((x.steps j l).ports[locPort l]).wrq = _
    rw [Dev.steps_port, hports]
    rfl
  · rw [hstart, Dev.enterQueues_step hfree' hstep hlines hadm, hz, Dev.jobsEnd_only hjobs hleft, hend, hworst]
    obtain ⟨ports', hover⟩ := Dev.jobFree_only hjobs
    exact Dev.settleN_of_over (by rw [hover]; exact hheld) (by rw [hover]; exact hops) (by rw [hover]; rfl) _ _

end

end Sys2Proof.Machine
end

section
/-! PROOF. O23: LSTEP SCRUB (R215, R261). -/

namespace Sys2Proof.Machine

section
variable {d : Dev} {e : Fin 72} {rd ra : Fin 16} {b : Fin 8} {q : Nat} (hissues : d.engIssues e = true)
  (hb : stepSub ((d.engs[e]).w ra) = b) (hcool : d.throttled = false) (hrate : d.protCfg b 2 2 ≠ 0)
  (hbuilt : (d.prots[b]).rebuild = false) (hfence : d.subFenced b = false)
  (hsweep : d.sweepFrom b (d.fldR (A.scrub b.val) 0 34) = some q) (hwindow : d.stepWindow e (sweepLoc b q) = true)
  (hmarker : d.isMarkerRow (sweepLoc b q) = false)
include hissues hb hcool hrate hbuilt hfence hsweep hwindow hmarker

/-- A scrub step that runs passes its location, or moves its line. -/
theorem Dev.lstepScrub_runs : d.lstepScrub e rd ra =
    if d.sweepSkips (sweepLoc b q) then Dev.stepPass (d.scrubAdvance b q) e rd
    else d.stepGo e rd (.scrub b) none [(d.lineAt (sweepLoc b q), KeyUse.byLoc)] := by
  simp only [Dev.lstepScrub, hb, hissues, hcool, hrate, hbuilt, hfence, hsweep, hwindow, hmarker, decide_false, Bool.not_true,
    Bool.or_self, Bool.false_and, Bool.false_or, Bool.false_eq_true, if_false]

theorem Dev.lstepScrub_skip (hskip : d.sweepSkips (sweepLoc b q) = true) :
    d.lstepScrub e rd ra = Dev.stepPass (d.scrubAdvance b q) e rd := by
  rw [Dev.lstepScrub_runs hissues hb hcool hrate hbuilt hfence hsweep hwindow hmarker, if_pos hskip]

theorem Dev.lstepScrub_move (hskip : d.sweepSkips (sweepLoc b q) = false) :
    d.lstepScrub e rd ra = d.stepGo e rd (.scrub b) none [(d.lineAt (sweepLoc b q), KeyUse.byLoc)] := by
  rw [Dev.lstepScrub_runs hissues hb hcool hrate hbuilt hfence hsweep hwindow hmarker, if_neg (by rw [hskip]; decide)]

end

theorem scrubReg_ne_pwrStatus : ∀ b : Fin 8, A.pwrStatus ≠ A.scrub b.val := by decide

/-- What the end of a scrub step leaves. -/
theorem Dev.scrubOver_keeps {x y z : Dev} {e : Fin 72} {j : Job} {b : Fin 8} {n v : Nat} {rd : Fin 16} (hjobs : z.jobs = [j])
    (hwho : j.e = some (e, (x.engs[e]).gen)) (hengs : z.engs = (x.modEng e (Engine.waitOn (.step rd))).engs)
    (hy : y = ((z.jobFree j).setFld (A.scrub b.val) 0 34 n).jobTells j v) :
    x.stepped y e rd v ∧ y.fldR (A.scrub b.val) 0 34 = n % 2 ^ 34 ∧ y.jobs = [] ∧
      ∀ p : Fin 4, (y.ports[p]).wrq = (z.ports[p]).wrq := by
  have hwrq := z.jobFree_wrq j
  obtain ⟨ports, hover⟩ := Dev.jobFree_only hjobs
  generalize hu : z.jobFree j = u at hy hwrq hover
  have huengs : (u.setFld (A.scrub b.val) 0 34 n).engs = (x.modEng e (Engine.waitOn (.step rd))).engs := by
    rw [hover]
    exact hengs
  have hujobs : u.jobs = [] := by rw [hover]
  have hwho' : j.e = some (e, ((x.modEng e (Engine.waitOn (.step rd))).engs[e]).gen) := by
    rw [Dev.modEng_engs_same]
    exact hwho
  have hwaits : ((x.modEng e (Engine.waitOn (.step rd))).engs[e]).run = .waiting ∧
      ((x.modEng e (Engine.waitOn (.step rd))).engs[e]).wait = .step rd := by
    rw [Dev.modEng_engs_same]
    exact ⟨rfl, rfl⟩
  obtain ⟨engs, htell⟩ := (u.setFld (A.scrub b.val) 0 34 n).jobTells_only j v
  refine ⟨?_, ?_, ?_, fun p => ?_⟩
  · rw [hy]
    exact Dev.stepped_of_waitOn (Dev.jobTells_stepped hwho' huengs hwaits.1 hwaits.2 v)
  · rw [hy, htell]
    exact Dev.fldR_setFld_same u (A.scrub b.val) 0 34 n (by decide) (by decide)
  · rw [hy, htell]
    exact hujobs
  · rw [hy, htell]
    exact hwrq p

/-- LSTEP SCRUB. -/
theorem lstepScrub_exec (s : State) (e : Fin 72) (rd ra : Fin 16) (hx : s.executes e (.lstepScrub e rd ra ()))
    (hissues : s.dev.engIssues e = true) (hcool : s.dev.throttled = false) :
    let b := stepSub ((s.dev.engs[e]).w ra)
    s.dev.protCfg b 2 2 ≠ 0 → (s.dev.prots[b]).rebuild = false → s.dev.subFenced b = false →
    ∀ q n : Nat, s.dev.sweepFrom b (s.dev.fldR (A.scrub b.val) 0 34) = some q → s.dev.sweepFrom b (q + 1) = some n →
      s.dev.stepWindow e (sweepLoc b q) = true → s.dev.isMarkerRow (sweepLoc b q) = false →
      let l := s.dev.lineAt (sweepLoc b q)
      (s.dev.sweepSkips (sweepLoc b q) = true → ∃ d : Dev, exec (.lstepScrub e rd ra ()) s = .next { s with dev := d } ∧
        s.dev.stepped d e rd 4 ∧ d.fldR (A.scrub b.val) 0 34 = n % 2 ^ 34 ∧ s.dev.regsBut d [A.scrub b.val]) ∧
      (∀ w : WrEnt, s.dev.sweepSkips (sweepLoc b q) = false → s.dev.takesAtEntry l (s.dev.engNote e) w → w.mask = fullMask →
        ∃ d : Dev, exec (.lstepScrub e rd ra ()) s = .next { s with dev := d } ∧ s.dev.stepped d e rd 1 ∧
          d.fldR (A.scrub b.val) 0 34 = n % 2 ^ 34 ∧ d.jobs = [] ∧ (d.ports[locPort l]).wrq = (s.dev.ports[locPort l]).wrq) ∧
      (s.dev.sweepSkips (sweepLoc b q) = false → s.dev.takes l (s.dev.engNote e) →
        s.dev.stepWaits e rd (.lstepScrub e rd ra ()) s (.scrub b) l) := by
  intro b hrate hbuilt hfence q n hsweep hnext hwindow hmarker l
  have hruns := Dev.engRuns_of_issues hissues
  have hexec : exec (.lstepScrub e rd ra ()) s = .next { s with dev := s.dev.lstepScrub e rd ra } := State.exec_of_executes hx rfl
  refine ⟨fun hskip => ⟨_, hexec, ?_⟩, fun w hskip htakes hmask => ?_, fun hskip htakes => ?_⟩
  · have hpower : (s.dev.setFld (A.scrub b.val) 0 34 n).engPower = s.dev.engPower :=
      Dev.engPower_congr (Dev.setFld_regsBut _ _ _ _ _ _ (List.mem_singleton.not.mpr (scrubReg_ne_pwrStatus b))) rfl
    have hruns' : (s.dev.setFld (A.scrub b.val) 0 34 n).engRuns e = true :=
      Dev.engRuns_of_kept (x := s.dev) rfl rfl hpower.trans hruns
    rw [Dev.lstepScrub_skip hissues rfl hcool hrate hbuilt hfence hsweep hwindow hmarker hskip, Dev.scrubAdvance_next hnext]
    refine ⟨Dev.stepEnd_stepped (y := s.dev.setFld (A.scrub b.val) 0 34 n) rfl hruns' rd 4, ?_⟩
    have hend (v : Nat) : ((s.dev.setFld (A.scrub b.val) 0 34 n).stepEnd e rd v).rf = (s.dev.setFld (A.scrub b.val) 0 34 n).rf := by
      rw [Dev.stepEnd_eq hruns', Dev.modEng_rf]
    refine ⟨?_, fun a ha => ?_⟩
    · rw [Dev.stepPass, Dev.fldR_of_rf (hend _), Dev.fldR_setFld_same _ _ _ _ _ (by decide) (by decide)]
    · rw [Dev.stepPass, Dev.reg_of_rf (hend _)]
      exact Dev.setFld_regsBut _ _ _ _ _ a ha
  · obtain ⟨z, j, hjobs, hwho, -, hengs, -, hwrq, hgo⟩ := Dev.stepGo_scrubEntry htakes hmask hsweep hnext rd KeyUse.byLoc
    rw [Dev.lstepScrub_move hissues rfl hcool hrate hbuilt hfence hsweep hwindow hmarker hskip] at hexec
    obtain ⟨hstepped, hptr, hnone, hports⟩ := Dev.scrubOver_keeps hjobs hwho hengs hgo
    exact ⟨_, hexec, hstepped, hptr, hnone, (hports _).trans hwrq⟩
  · rw [Dev.lstepScrub_move hissues rfl hcool hrate hbuilt hfence hsweep hwindow hmarker hskip] at hexec
    exact Dev.stepGo_waits htakes hexec

end Sys2Proof.Machine
end

section
/-! PROOF. O23: LSTEP ROTATE, the end of a rotation's step, and the obligation (R231, R261). -/

namespace Sys2Proof.Machine

/-! ### The rotation pointer (R231) -/

theorem rotRegs_apart : ∀ r : Fin 64,
    (A.epoch r.val ≠ A.nextEpoch r.val ∧ A.epoch r.val ≠ A.rot r.val ∧ A.nextEpoch r.val ≠ A.rot r.val) ∧
    A.epoch r.val ∉ reportRegs ∧ A.rot r.val ∉ reportRegs := by
  decide

/-- The registers of a rotation at its region's end. -/
def Dev.epochTaken (d : Dev) (r : Nat) : Dev :=
  ((d.setReg (A.epoch r) (d.reg (A.nextEpoch r))).setReg (A.nextEpoch r) 0).setReg (A.rot r) 0

section
variable (d : Dev) (r : Fin 64)

theorem Dev.epochTaken_epoch : (d.epochTaken r.val).reg (A.epoch r.val) = d.reg (A.nextEpoch r.val) := by
  obtain ⟨⟨hnext, hrot, -⟩, -, -⟩ := rotRegs_apart r
  rw [Dev.epochTaken, Dev.reg_setReg, if_neg hrot, Dev.reg_setReg, if_neg hnext, Dev.reg_setReg, if_pos rfl]

theorem Dev.epochTaken_rotating : (d.epochTaken r.val).rotating r.val = false := by
  rw [Dev.rotating, Dev.epochTaken, Dev.reg_setReg, if_pos rfl]
  rfl

/-- At the region's end NEW becomes its epoch, and the rotation is over. -/
theorem Dev.rotateEnd_keeps : (∃ rf flt sill, d.rotateEnd r.val = { d with rf := rf, flt := flt, sill := sill }) ∧
    (d.rotateEnd r.val).reg (A.epoch r.val) = d.reg (A.nextEpoch r.val) ∧ (d.rotateEnd r.val).rotating r.val = false ∧
    (d.rotateEnd r.val).fldR A.attn 1 1 = 1 := by
  obtain ⟨-, hepoch, hrot⟩ := rotRegs_apart r
  obtain ⟨⟨rf, flt, sill, honly⟩, hregs⟩ := (d.epochTaken r.val).reports_raiseAttn 1
  have hend : d.rotateEnd r.val = (d.epochTaken r.val).raiseAttn 1 := by rw [Dev.rotateEnd, Dev.epochTaken]
  have honly' : d.rotateEnd r.val = { d with rf := rf, flt := flt, sill := sill } := hend.trans honly
  have hattn : (d.rotateEnd r.val).fldR A.attn 1 1 = 1 :=
    (congrArg (fun y : Dev => y.fldR A.attn 1 1) hend).trans (Dev.raiseAttn_pending (d.epochTaken r.val) (by decide))
  have hepoch' : (d.rotateEnd r.val).reg (A.epoch r.val) = (d.epochTaken r.val).reg (A.epoch r.val) := by
    rw [hend]
    exact hregs _ hepoch
  have hrot' : (d.rotateEnd r.val).reg (A.rot r.val) = (d.epochTaken r.val).reg (A.rot r.val) := by
    rw [hend]
    exact hregs _ hrot
  have hover : (d.rotateEnd r.val).rotating r.val = false := (congrArg (bit · 47) hrot').trans (d.epochTaken_rotating r)
  have hepoch'' := hepoch'.trans (d.epochTaken_epoch r)
  exact ⟨⟨rf, flt, sill, honly'⟩, hepoch'', hover, hattn⟩

end

/-- The rotation pointer of `r` advances. -/
def Dev.rotPassed (d : Dev) (r : Nat) : Dev := d.setFld (A.rot r) 0 42 (d.rotPtr r + 1)

theorem Dev.rotPassed_ptr (d : Dev) (r : Nat) : (d.rotPassed r).rotPtr r = (d.rotPtr r + 1) % 2 ^ 42 :=
  Dev.fldR_setFld_same _ _ _ _ _ (by decide) (by decide)

theorem Dev.rotPassed_rotating (d : Dev) (r : Nat) : (d.rotPassed r).rotating r = d.rotating r := by
  rw [Dev.rotating, Dev.rotPassed, Dev.reg_setFld, if_pos rfl, bit, put_getLsbD _ _ _ _ _ (by decide) (by decide),
    if_neg (by decide)]
  rfl

section
variable {d : Dev} {j : Job} {r : Fin 64} (hjobs : d.jobs = [j]) (hkind : j.kind = .rotate (BitVec.ofNat 6 r.val))
include hjobs hkind

theorem Dev.jobEnd_rotate : d.jobEnd j = ((if d.rotateUnits r.val ≤ d.rotPtr r.val + 1
    then ((d.jobFree j).rotPassed r.val).rotateEnd r.val else (d.jobFree j).rotPassed r.val).jobTells j
      (if d.rotateUnits r.val ≤ d.rotPtr r.val + 1 then outcEnd else j.worst)) := by
  have hr : (BitVec.ofNat 6 r.val).toNat = r.val := by
    rw [BitVec.toNat_ofNat]
    exact Nat.mod_eq_of_lt r.isLt
  obtain ⟨ports, hover⟩ := Dev.jobFree_only hjobs
  have hptr : (d.jobFree j).rotPtr r.val = d.rotPtr r.val := by
    rw [hover]
    rfl
  have hunits : (d.jobFree j).rotateUnits r.val = d.rotateUnits r.val := by
    rw [hover]
    rfl
  rw [Dev.jobEnd, hkind]
  show Dev.jobOver ((d.jobFree j).rotateAdvance (BitVec.ofNat 6 r.val).toNat) j = _
  rw [hr, Dev.jobOver, Dev.rotateAdvance, hptr, hunits]
  by_cases hlast : d.rotateUnits r.val ≤ d.rotPtr r.val + 1
  · simp only [if_pos hlast, if_true]
    rw [Dev.rotPassed, hptr]
  · simp only [if_neg hlast, Bool.false_eq_true, if_false]
    rw [Dev.rotPassed, hptr]

section
variable {e : Fin 72} {rd : Fin 16} (hwho : j.e = some (e, (d.engs[e]).gen)) (hrun : (d.engs[e]).run = .waiting)
  (hwait : (d.engs[e]).wait = .step rd)
include hwho hrun hwait

/-- A rotation's step that is not the last leaves the next unit to the pointer. -/
theorem Dev.jobEnd_rotateNext (hmore : d.rotPtr r.val + 1 < d.rotateUnits r.val) : d.stepped (d.jobEnd j) e rd j.worst ∧
    (d.jobEnd j).rotPtr r.val = (d.rotPtr r.val + 1) % 2 ^ 42 ∧ (d.jobEnd j).rotating r.val = d.rotating r.val := by
  have hend := Dev.jobEnd_rotate hjobs hkind
  rw [if_neg (Nat.not_le_of_lt hmore), if_neg (Nat.not_le_of_lt hmore)] at hend
  obtain ⟨ports, hover⟩ := Dev.jobFree_only hjobs
  obtain ⟨engs, htell⟩ := ((d.jobFree j).rotPassed r.val).jobTells_only j j.worst
  have hengs : ((d.jobFree j).rotPassed r.val).engs = d.engs := by
    rw [hover]
    rfl
  have hrf : (d.jobFree j).rf = d.rf := by rw [hover]
  rw [hend]
  refine ⟨Dev.jobTells_stepped hwho hengs hrun hwait j.worst, ?_, ?_⟩
  · rw [htell]
    exact ((d.jobFree j).rotPassed_ptr r.val).trans (by rw [Dev.rotPtr, Dev.fldR_of_rf hrf]; rfl)
  · rw [htell]
    exact ((d.jobFree j).rotPassed_rotating r.val).trans (congrArg (bit · 47) (Dev.reg_of_rf hrf _))

/-- With the last unit of a rotation NEW becomes the region's epoch. -/
theorem Dev.jobEnd_rotateLast (hlast : d.rotateUnits r.val ≤ d.rotPtr r.val + 1) : d.stepped (d.jobEnd j) e rd outcEnd ∧
    (d.jobEnd j).jobs = [] ∧ (d.jobEnd j).rotating r.val = false ∧
    (d.jobEnd j).reg (A.epoch r.val) = d.reg (A.nextEpoch r.val) ∧ (d.jobEnd j).fldR A.attn 1 1 = 1 := by
  have hend := Dev.jobEnd_rotate hjobs hkind
  rw [if_pos hlast, if_pos hlast] at hend
  obtain ⟨ports, hover⟩ := Dev.jobFree_only hjobs
  obtain ⟨⟨-, -, hne⟩, -, -⟩ := rotRegs_apart r
  have hnext : ((d.jobFree j).rotPassed r.val).reg (A.nextEpoch r.val) = d.reg (A.nextEpoch r.val) := by
    rw [Dev.rotPassed, Dev.reg_setFld, if_neg hne, hover]
    rfl
  obtain ⟨⟨rf, flt, sill, honly⟩, hepoch, hrotating, hattn⟩ := ((d.jobFree j).rotPassed r.val).rotateEnd_keeps r
  have hengs : (((d.jobFree j).rotPassed r.val).rotateEnd r.val).engs = d.engs := by
    rw [honly, hover]
    rfl
  have hjobs' : (((d.jobFree j).rotPassed r.val).rotateEnd r.val).jobs = [] := by
    rw [honly, hover]
    rfl
  generalize ((d.jobFree j).rotPassed r.val).rotateEnd r.val = y at *
  obtain ⟨engs, htell⟩ := y.jobTells_only j outcEnd
  rw [hend]
  refine ⟨Dev.jobTells_stepped hwho hengs hrun hwait outcEnd, ?_, ?_, ?_, ?_⟩
  · rw [htell]
    exact hjobs'
  · rw [htell]
    exact hrotating
  · rw [htell]
    exact hepoch.trans hnext
  · rw [htell]
    exact hattn

end

end

end Sys2Proof.Machine
end

section
/-! PROOF. O23: LSTEP ROTATE, the last line of a step, and the obligation (R231, R261). -/

namespace Sys2Proof.Machine

/-! ### LSTEP ROTATE (R231) -/

/-- The address at the rotation pointer of region `r`, whose units have `n` bytes. -/
def Dev.rotAt (d : Dev) (r n : Nat) : LineAddr := BitVec.ofNat 42 ((regionBase d.cfg r + n * d.rotPtr r) / 64)

theorem fld_low_six (v : Word) : fld v 0 6 = v.toNat % 64 := by
  rw [fld, Nat.shiftRight_zero]
  rfl

section
variable {d : Dev} {e : Fin 72} {rd ra : Fin 16} {r : Nat} (hissues : d.engIssues e = true) (hr : ((d.engs[e]).w ra).toNat % 64 = r)
include hissues hr

theorem Dev.lstepRotate_idle (hrotating : d.rotating r = false) : d.lstepRotate e rd ra = d.stepEnd e rd 0 := by
  simp only [Dev.lstepRotate, fld_low_six, hr, hissues, hrotating, Bool.not_true, Bool.not_false, Bool.false_eq_true, if_false,
    if_true]

theorem Dev.lstepRotate_direct (hrotating : d.rotating r = true) (helastic : regionElastic d.cfg r = false)
    (hwin : d.winTarget e (BitVec.ofNat 48 (addrOf (d.rotAt r 64))) true false = some (.addr (d.rotAt r 64))) :
    d.lstepRotate e rd ra = d.stepGo e rd (.rotate (BitVec.ofNat 6 r)) none [d.rotateLine r (d.rotPtr r) (d.rotAt r 64)] := by
  simp only [Dev.rotAt] at hwin
  simp only [Dev.lstepRotate, fld_low_six, hr, hissues, hrotating, helastic, hwin, Dev.rotAt, Bool.not_true, Bool.not_false,
    Bool.false_eq_true, if_false, if_true]

theorem Dev.lstepRotate_empty {en : BitVec 128} (hrotating : d.rotating r = true) (helastic : regionElastic d.cfg r = true)
    (hcalm : d.calm)
    (hwin : d.winTarget e (BitVec.ofNat 48 (addrOf (d.rotAt r 4096))) true false = some (.addr (d.rotAt r 4096)))
    (hpage : d.pmcGet (pageIdx d.cfg r (d.rotAt r 4096)) = some en) (hempty : entState en = 0) :
    d.lstepRotate e rd ra =
      d.stepGo e rd (.rotate (BitVec.ofNat 6 r)) (some (pageIdx d.cfg r (d.rotAt r 4096))) [] := by
  obtain ⟨hheld, hops, hjobs⟩ := hcalm
  have hfree (idx : BitVec 32) : d.pageFree idx = true := by simp [Dev.pageFree, hheld, hops, hjobs]
  have hmedia : pageMedia en = [] := by simp [pageMedia, hempty]
  simp only [Dev.rotAt] at hwin hpage
  simp only [Dev.lstepRotate, fld_low_six, hr, hissues, hrotating, helastic, hwin, hpage, hfree, hmedia, Dev.rotAt, Bool.not_true,
    Bool.false_eq_true, if_false, if_true, List.map_nil]

end

/-- A step without lines. -/
def Dev.emptyJob (d : Dev) (kind : JobKind) (e : Option (Fin 72 × Nat)) (n : BitVec 4) (master : BitVec 11)
    (page : Option (BitVec 32)) : Job :=
  { id := d.nextJob, kind := kind, e := e, note := n, master := master, page := page, lines := [], left := 0, worst := outcClean }

theorem Dev.jobStart_empty {d : Dev} (hjobs : d.jobs = []) (kind : JobKind) (e : Option (Fin 72 × Nat)) (n : BitVec 4)
    (master : BitVec 11) (page : Option (BitVec 32)) : ∃ k,
      d.jobStart kind e n master page [] = { d.withJob (d.emptyJob kind e n master page) with nextJob := k } := by
  refine ⟨d.nextJob + 1, ?_⟩
  unfold Dev.jobStart
  rw [hjobs]
  rfl

/-- A step without lines ends at once, and what follows from its end follows then. -/
theorem Dev.stepGo_empty {d : Dev} {e : Fin 72} (hcalm : d.calm) (rd : Fin 16) (kind : JobKind) (page : Option (BitVec 32)) :
    ∃ (z : Dev) (j : Job), z.jobs = [j] ∧ j.kind = kind ∧ j.e = some (e, (d.engs[e]).gen) ∧ j.worst = outcClean ∧
      z.engs = (d.modEng e (Engine.waitOn (.step rd))).engs ∧ z.rf = d.rf ∧ z.cfg = d.cfg ∧ (z.txn.held = [] ∧ z.tier.ops = []) ∧
      d.stepGo e rd kind page [] = Dev.settleN 3 (z.jobEnd j).tierAdvance := by
  obtain ⟨hheld, hops, hjobs⟩ := hcalm
  have hgo := Dev.stepGo_begins (d := d) (lines := []) hjobs rfl e rd kind page
  generalize hx : d.modEng e (Engine.waitOn (.step rd)) = x at hgo ⊢
  have hxjobs : x.jobs = [] := by rw [← hx]; exact hjobs
  obtain ⟨k, hstart⟩ := Dev.jobStart_empty hxjobs kind (some (e, (d.engs[e]).gen)) (d.engNote e) (masterEng e) page
  generalize hj : x.emptyJob kind (some (e, (d.engs[e]).gen)) (d.engNote e) (masterEng e) page = j at hstart
  obtain ⟨hkind, hwho, hworst, hleft⟩ : j.kind = kind ∧ j.e = some (e, (d.engs[e]).gen) ∧ j.worst = outcClean ∧ j.left = 0 := by
    rw [← hj]
    exact ⟨rfl, rfl, rfl, rfl⟩
  generalize hz : x.jobStart kind (some (e, (d.engs[e]).gen)) (d.engNote e) (masterEng e) page [] = z at hgo hstart
  have hzheld : z.txn.held = [] := by rw [hstart, ← hx]; exact hheld
  have hzops : z.tier.ops = [] := by rw [hstart, ← hx]; exact hops
  have hzjobs : z.jobs = [j] := by rw [hstart]; rfl
  refine ⟨z, j, hzjobs, hkind, hwho, hworst, by rw [hstart]; rfl, by rw [hstart, ← hx]; rfl, by rw [hstart, ← hx]; rfl,
    ⟨hzheld, hzops⟩, ?_⟩
  rw [hgo, Dev.enterQueues, Dev.settleN, hzheld, Dev.admitList, Dev.jobsEnd_only hzjobs hleft]

/-- Nothing is under way once the only step, of a rotation, has ended. -/
theorem Dev.jobEnd_rotate_calm {d : Dev} {j : Job} {r : Fin 64} (hjobs : d.jobs = [j])
    (hkind : j.kind = .rotate (BitVec.ofNat 6 r.val)) (hheld : d.txn.held = []) (hops : d.tier.ops = []) : (d.jobEnd j).calm := by
  obtain ⟨ports, hover⟩ := Dev.jobFree_only hjobs
  obtain ⟨⟨rf, flt, sill, hlast⟩, -⟩ := ((d.jobFree j).rotPassed r.val).rotateEnd_keeps r
  have hpassed : ((d.jobFree j).rotPassed r.val).calm := by
    rw [hover]
    exact ⟨hheld, hops, rfl⟩
  have hended : (((d.jobFree j).rotPassed r.val).rotateEnd r.val).calm := by
    rw [hlast]
    exact hpassed
  have htold {y : Dev} (hy : y.calm) (v : Nat) : (y.jobTells j v).calm := by
    obtain ⟨engs, htell⟩ := y.jobTells_only j v
    rw [htell]
    exact hy
  rw [Dev.jobEnd_rotate hjobs hkind]
  split
  · exact htold hended _
  · exact htold hpassed _

/-- A step is judged by its engine alone. -/
theorem Dev.stepped_of_engs {x z y : Dev} {e : Fin 72} {rd : Fin 16} {v : Nat}
    (hengs : z.engs = (x.modEng e (Engine.waitOn (.step rd))).engs) (h : z.stepped y e rd v) : x.stepped y e rd v := by
  refine Dev.stepped_of_waitOn (rd := rd) ?_
  rw [Dev.stepped, ← hengs]
  exact h

/-- LSTEP ROTATE. -/
theorem lstepRotate_exec (s : State) (e : Fin 72) (rd ra : Fin 16) (hx : s.executes e (.lstepRotate e rd ra ()))
    (hissues : s.dev.engIssues e = true) :
    let r := ((s.dev.engs[e]).w ra).toNat % 64
    let p := s.dev.rotPtr r
    (s.dev.rotating r = false → ∃ d : Dev, exec (.lstepRotate e rd ra ()) s = .next { s with dev := d } ∧
      s.dev.stepped d e rd 0 ∧ d = { s.dev with engs := d.engs }) ∧
    (s.dev.rotating r = true → regionElastic s.dev.cfg r = false →
      let m : LineAddr := BitVec.ofNat 42 ((regionBase s.dev.cfg r + 64 * p) / 64)
      s.dev.winTarget e (BitVec.ofNat 48 (addrOf m)) true false = some (.addr m) →
      s.dev.takes (addrMap s.dev.cfg m) (s.dev.engNote e) →
      s.dev.stepWaits e rd (.lstepRotate e rd ra ()) s (.rotate (BitVec.ofNat 6 r)) (addrMap s.dev.cfg m)) ∧
    (∀ en : BitVec 128, s.dev.rotating r = true → regionElastic s.dev.cfg r = true → s.dev.calm →
      let m : LineAddr := BitVec.ofNat 42 ((regionBase s.dev.cfg r + 4096 * p) / 64)
      s.dev.winTarget e (BitVec.ofNat 48 (addrOf m)) true false = some (.addr m) →
      s.dev.pmcGet (pageIdx s.dev.cfg r m) = some en → entState en = 0 →
      ∃ d : Dev, exec (.lstepRotate e rd ra ()) s = .next { s with dev := d } ∧
        (p + 1 < regionSize s.dev.cfg r / 4096 → s.dev.stepped d e rd 1 ∧ d.rotPtr r = (p + 1) % 2 ^ 42 ∧ d.rotating r = true) ∧
        (regionSize s.dev.cfg r / 4096 ≤ p + 1 → s.dev.stepped d e rd 5 ∧ d.rotating r = false ∧
          d.reg (A.epoch r) = s.dev.reg (A.nextEpoch r) ∧ d.fldR A.attn 1 1 = 1)) := by
  intro r p
  have hruns := Dev.engRuns_of_issues hissues
  have hexec : exec (.lstepRotate e rd ra ()) s = .next { s with dev := s.dev.lstepRotate e rd ra } := State.exec_of_executes hx rfl
  refine ⟨fun hrotating => ⟨_, hexec, ?_⟩, ?_, ?_⟩
  · rw [Dev.lstepRotate_idle hissues rfl hrotating]
    refine ⟨Dev.stepEnd_stepped rfl hruns rd 0, ?_⟩
    rw [Dev.stepEnd_eq hruns]
    rfl
  · intro hrotating helastic m hwin htakes
    rw [Dev.lstepRotate_direct hissues rfl hrotating helastic hwin] at hexec
    exact Dev.stepGo_waits htakes hexec
  · intro en hrotating helastic hcalm m hwin hpage hempty
    refine ⟨_, hexec, ?_⟩
    rw [Dev.lstepRotate_empty hissues rfl hrotating helastic hcalm hwin hpage hempty]
    obtain ⟨z, j, hjobs, hkind, hwho, hworst, hengs, hrf, hcfg, ⟨hheld, hops⟩, hgo⟩ :=
      Dev.stepGo_empty (e := e) hcalm rd (.rotate (BitVec.ofNat 6 r)) (some (pageIdx s.dev.cfg r m))
    have hr : r < 64 := Nat.mod_lt _ (by decide)
    have hover := Dev.jobEnd_rotate_calm (r := ⟨r, hr⟩) hjobs hkind hheld hops
    have hzeng : z.engs[e] = (s.dev.engs[e]).waitOn (.step rd) := by
      rw [hengs, Dev.modEng_engs_same]
    have hzwho : j.e = some (e, (z.engs[e]).gen) := by
      rw [hzeng]
      exact hwho
    have hzrun : (z.engs[e]).run = .waiting := by
      rw [hzeng]
      rfl
    have hzwait : (z.engs[e]).wait = .step rd := by
      rw [hzeng]
      rfl
    have hptr : z.rotPtr r = p := Dev.fldR_of_rf hrf _ _ _
    have hunits : z.rotateUnits r = regionSize s.dev.cfg r / 4096 := by
      rw [Dev.rotateUnits, hcfg, if_pos helastic]
    have hgo' : s.dev.stepGo e rd (.rotate (BitVec.ofNat 6 r)) (some (pageIdx s.dev.cfg r (s.dev.rotAt r 4096))) [] = z.jobEnd j := by
      refine hgo.trans ?_
      rw [Dev.tierAdvance_of_none hover.2.1, Dev.settleN_of_calm 3 hover]
    rw [hgo']
    refine ⟨fun hmore => ?_, fun hlast => ?_⟩
    · obtain ⟨hstepped, hpass, hgoes⟩ := Dev.jobEnd_rotateNext (r := ⟨r, hr⟩) hjobs hkind hzwho hzrun hzwait
        (by rw [hptr, hunits]; exact hmore)
      rw [hworst] at hstepped
      refine ⟨Dev.stepped_of_engs hengs hstepped, hpass.trans (by rw [hptr]), hgoes.trans ?_⟩
      exact (congrArg (bit · 47) (Dev.reg_of_rf hrf _)).trans hrotating
    · obtain ⟨hstepped, -, hrotated, hepoch, hattn⟩ := Dev.jobEnd_rotateLast (r := ⟨r, hr⟩) hjobs hkind hzwho hzrun hzwait
        (by rw [hptr, hunits]; exact hlast)
      exact ⟨Dev.stepped_of_engs hengs hstepped, hrotated, hepoch.trans (Dev.reg_of_rf hrf _), hattn⟩

/-! ### The last line of a step -/

/-- The last line of a step is loaded: the pointer advances, and the engine goes on with the outcome. -/
theorem jobLoaded_over (d : Dev) (j : Job) (e : Fin 72) (rd : Fin 16) (hjobs : d.jobs = [j]) (hleft : j.left = 1)
    (hwho : j.e = some (e, (d.engs[e]).gen)) (hrun : (d.engs[e]).run = .waiting) (hwait : (d.engs[e]).wait = .step rd) :
    (∀ (b : Fin 8) (q n : Nat), j.kind = .rebuild b → (d.prots[b]).rebuild = true → (d.prots[b]).frozen = false →
      d.sweepFrom b (d.prots[b]).p.toNat = some q → d.sweepFrom b (q + 1) = some n →
      d.stepped (d.jobLoaded j.id) e rd j.worst ∧ (d.jobLoaded j.id).jobs = [] ∧
        ((d.jobLoaded j.id).prots[b]).p = BitVec.ofNat 34 n) ∧
    (∀ r : BitVec 6, j.kind = .rotate r → d.rotateUnits r.toNat ≤ d.rotPtr r.toNat + 1 →
      d.stepped (d.jobLoaded j.id) e rd 5 ∧ (d.jobLoaded j.id).jobs = [] ∧ (d.jobLoaded j.id).rotating r.toNat = false ∧
        (d.jobLoaded j.id).reg (A.epoch r.toNat) = d.reg (A.nextEpoch r.toNat)) := by
  have hloaded := Dev.jobLoaded_only hjobs hleft
  rw [hloaded]
  refine ⟨fun b q n hkind hrebuild hfrozen hsweep hnext => ?_, fun r hkind hlast => ?_⟩
  · have hsweep' : (d.withJob j.done).sweepFrom b ((d.withJob j.done).prots[b]).p.toNat = some q :=
      (Dev.sweepFrom_of_cfg (x := d) (y := d.withJob j.done) rfl b _).trans hsweep
    obtain ⟨ports, hover⟩ := Dev.jobFree_only (d := d.withJob j.done) (j := j.done) rfl
    have hcfg : ((d.withJob j.done).jobFree j.done).cfg = d.cfg := by
      rw [hover]
      rfl
    have hnext' : ((d.withJob j.done).jobFree j.done).sweepFrom b (q + 1) = some n := (Dev.sweepFrom_of_cfg hcfg b _).trans hnext
    have hend : (d.withJob j.done).jobEnd j.done =
        (((d.withJob j.done).jobFree j.done).modProt b (Prot.passTo n)).jobTells j.done j.worst := by
      have hkind' : j.done.kind = .rebuild b := hkind
      have hgoes : (((d.withJob j.done).prots[b]).frozen || !((d.withJob j.done).prots[b]).rebuild) = false := by
        show ((d.prots[b]).frozen || !(d.prots[b]).rebuild) = false
        rw [hrebuild, hfrozen]
        rfl
      rw [Dev.jobEnd, hkind']
      simp only [hgoes, Bool.false_eq_true, if_false, hsweep', Option.getD_some, Dev.rebuildAdvance_next hnext']
      rfl
    have hengs : (((d.withJob j.done).jobFree j.done).modProt b (Prot.passTo n)).engs = d.engs := by
      rw [hover]
      rfl
    have hwho' : j.done.e = some (e, (d.engs[e]).gen) := hwho
    obtain ⟨engs, htell⟩ := (((d.withJob j.done).jobFree j.done).modProt b (Prot.passTo n)).jobTells_only j.done j.worst
    rw [hend]
    refine ⟨Dev.jobTells_stepped hwho' hengs hrun hwait j.worst, ?_, ?_⟩
    · rw [htell, hover]
      rfl
    · rw [htell]
      show ((((d.withJob j.done).jobFree j.done).modProt b (Prot.passTo n)).prots[b]).p = _
      rw [Dev.modProt_prots_same]
      rfl
  · have hr : BitVec.ofNat 6 r.toNat = r := by simp
    obtain ⟨hstepped, hnone, hrotated, hepoch, -⟩ := Dev.jobEnd_rotateLast (d := d.withJob j.done) (j := j.done)
      (r := ⟨r.toNat, r.isLt⟩) (e := e) (rd := rd) rfl (by rw [hr]; exact hkind) hwho hrun hwait hlast
    exact ⟨hstepped, hnone, hrotated, hepoch⟩

/-- Settles O23: each step of the rebuild, the scrub and a rotation ends at once where it has no line to move, and waits for
its line otherwise; the last line of a step lets the pointer and the engine go on. -/
theorem pointerSteps : Obligations.PointerSteps := by
  unfold Obligations.PointerSteps
  exact ⟨fun s e rd ra hx hissues => lstepRebuild_exec s e rd ra hx hissues,
    fun s e rd ra hx hissues hcool => lstepScrub_exec s e rd ra hx hissues hcool,
    fun s e rd ra hx hissues => lstepRotate_exec s e rd ra hx hissues,
    fun d j e rd hjobs hleft hwho hrun hwait => jobLoaded_over d j e rd hjobs hleft hwho hrun hwait⟩

end Sys2Proof.Machine
end

section
/-! PROOF. O38: the window of the symbol counts, the self-test, the injection and the fill (R207, R216, R220, R221). -/

namespace Sys2Proof.Machine

/-! ### The window of the symbol counts (R207) -/

/-- A count's window restarts. -/
def Dev.windowZeroed (d : Dev) (a : Nat) : Dev := d.setFld a 0 16 0

theorem Dev.windowZeroed_kept {d : Dev} (a c : Nat) (h : d.fldR c 0 16 = 0) : (d.windowZeroed a).fldR c 0 16 = 0 := by
  by_cases hc : c = a
  · rw [hc]
    exact Dev.fldR_setFld_fits (v := 0) _ _ (by decide) (by decide) (by decide)
  · rw [Dev.windowZeroed, Dev.fldR_setFld_ne _ _ _ _ _ _ hc]
    exact h

theorem Dev.windowZeroed_total (d : Dev) (a c : Nat) : (d.windowZeroed a).fldR c 24 24 = d.fldR c 24 24 := by
  by_cases hc : c = a
  · rw [hc, Dev.windowZeroed, Dev.fldR_setFld_other _ _ _ _ _ _ _ (by decide) (by decide) (.inr (by decide))]
  · rw [Dev.windowZeroed, Dev.fldR_setFld_ne _ _ _ _ _ _ hc]

/-- DEAD_WINDOW_END: every count of the subchannel restarts. -/
theorem deadWindowEnd_exec (s : State) (b : Fin 8) (hlive : s.dev.live = true) (hwindow : s.dev.protCfg b 4 4 ≠ 0) :
    ∃ d : Dev, exec (.deadWindowEnd b) s = .next { s with dev := d } ∧ d = { s.dev with rf := d.rf } ∧
      (∀ k, k < 13 → d.fldR (A.symcnt b.val k) 0 16 = 0 ∧ d.fldR (A.symcnt b.val k) 24 24 = s.dev.fldR (A.symcnt b.val k) 24 24) ∧
      s.dev.regsBut d ((List.range 13).map (A.symcnt b.val)) := by
  let f : Nat → Dev → Dev := fun k x => x.windowZeroed (A.symcnt b.val k)
  have hexec : exec (.deadWindowEnd b) s = .next { s with dev := Dev.each f (List.range 13) s.dev } := by
    refine exec_of_devNext hlive ?_
    show devNext s (if s.dev.protCfg b 4 4 = 0 then s.dev else Dev.each f (List.range 13) s.dev) = _
    rw [if_neg hwindow]
  have honly : ∃ rf, Dev.each f (List.range 13) s.dev = { s.dev with rf := rf } :=
    Dev.each_keeps (fun y => ∃ rf, y = { s.dev with rf := rf }) f (fun k y ⟨_, hy⟩ => by rw [hy]; exact ⟨_, rfl⟩) _ _ ⟨_, rfl⟩
  refine ⟨_, hexec, ?_, fun k hk => ⟨?_, ?_⟩, ?_⟩
  · obtain ⟨rf, h⟩ := honly
    rw [h]
  · exact Dev.each_reaches (P := fun _ => True) (Q := fun y => y.fldR (A.symcnt b.val k) 0 16 = 0) (f := f)
      (List.mem_range.mpr hk) (fun _ _ _ => trivial)
      (fun y _ => Dev.fldR_setFld_fits (v := 0) _ _ (by decide) (by decide) (by decide))
      (fun k' y hy => Dev.windowZeroed_kept _ _ hy) trivial
  · exact Dev.each_keeps (fun y => y.fldR (A.symcnt b.val k) 24 24 = s.dev.fldR (A.symcnt b.val k) 24 24) f
      (fun k' y hy => (y.windowZeroed_total _ _).trans hy) _ _ rfl
  · refine Dev.each_keeps_of_mem (s.dev.regsBut · ((List.range 13).map (A.symcnt b.val))) f s.dev (fun k hk y hy => ?_) (fun _ _ => rfl)
    refine hy.trans ((Dev.setFld_regsBut _ _ _ _ _).mono ?_)
    simpa using ⟨k, List.mem_range.mp hk, rfl⟩

/-! ### Self-test and injection (R220, R221) -/

/-! The patterns of Table 8.7: none, one, two and three symbols in error, and the poison constant. Each is evaluated on its own,
as the search of R201 over the sets of error positions is long. -/

theorem selfPattern_clean : selfPattern 0 [] = true := by decide +kernel

theorem selfPattern_oneSymbol : selfPattern 1 [] = true := by decide +kernel

theorem selfPattern_twoSymbols : selfPattern 2 [] = true := by decide +kernel

theorem selfPattern_threeSymbols : selfPattern 3 [] = true := by decide +kernel

theorem selfPattern_poison : selfPattern 4 [] = true := by decide +kernel

/-- A sound decoder passes the five patterns of Table 8.7. -/
theorem selfPattern_sound : ∀ n, n < 5 → selfPattern n [] = true
  | 0, _ => selfPattern_clean
  | 1, _ => selfPattern_oneSymbol
  | 2, _ => selfPattern_twoSymbols
  | 3, _ => selfPattern_threeSymbols
  | 4, _ => selfPattern_poison

/-- SELFTEST of a sound decoder counts its run and nothing else. -/
theorem selftest_exec (s : State) (b : Fin 8) (hlive : s.dev.live = true) (hperiod : s.dev.protCfg b 0x0A 2 ≠ 0) :
    exec (.selftest b []) s = .next { s with dev := s.dev.bump (A.selftest b.val) 24 24 } := by
  have hpass : (List.range 5).map (fun n => !selfPattern n (([] : List (List (BitVec 16))).getD n [])) =
      [false, false, false, false, false] := by
    simp only [List.getD_nil]
    exact List.map_congr_left (g := fun _ => false) fun n hn => by rw [selfPattern_sound n (List.mem_range.mp hn)]; rfl
  have hbad : bitsOf ((List.range 5).map (fun n => !selfPattern n (([] : List (List (BitVec 16))).getD n []))) = 0 := by
    rw [hpass]
    rfl
  refine exec_of_devNext hlive ?_
  show devNext s (if s.dev.protCfg b 0x0A 2 = 0 then s.dev else if bitsOf ((List.range 5).map (fun n => !selfPattern n
    (([] : List (List (BitVec 16))).getD n []))) = 0 then s.dev.bump (A.selftest b.val) 24 24 else _) = _
  rw [if_neg hperiod, if_pos hbad]

/-- INJECT_ARM: the injection counts its accesses from the write on. -/
theorem injectArm_exec (s : State) (m : Master) (b : Fin 8) (v : Word) (hlive : s.dev.live = true) :
    ∃ d : Dev, exec (.injectArm m b v) s = .next { s with dev := d } ∧ d.fldR (A.inject b.val) 24 24 = fld v 24 24 ∧
      d.fldR (A.inject b.val) 0 24 = s.dev.fldR (A.inject b.val) 0 24 ∧ (d.prots[b]).injCount = 0 ∧
      s.dev.regsBut d [A.inject b.val] := by
  refine ⟨s.dev.injectWrite b v, exec_of_devNext hlive rfl, ?_, ?_, ?_, ?_⟩
  · rw [Dev.injectWrite, Dev.fldR, Dev.modProt_reg, ← Dev.fldR]
    exact Dev.fldR_setFld_fits _ _ (by decide) (by decide) (fld_lt v 24 24)
  · rw [Dev.injectWrite, Dev.fldR, Dev.modProt_reg, ← Dev.fldR,
      Dev.fldR_setFld_other _ _ _ _ _ _ _ (by decide) (by decide) (.inl (by decide))]
  · rw [Dev.injectWrite, Dev.modProt_prots_same]
  · exact Dev.setFld_regsBut _ _ _ _ _

/-! ### Fill (R216) -/

/-- FILL: the fill of a subchannel whose tiles are in service starts. -/
theorem fill_exec (s : State) (b : Fin 8) (hlive : s.dev.live = true) (hdue : (s.dev.prots[b]).fillDue = true)
    (hready : ∀ t ∈ subTiles b, s.dev.present t = true → s.dev.ready t = true) :
    exec (.fill b) s = .next { s with dev := s.dev.modProt b (fun x =>
      { x with fillDue := false, filling := true, fillP := 0, fillLeft := 0 }) } := by
  have hall : (subTiles b).all (fun t => !s.dev.present t || s.dev.ready t) = true := by
    refine List.all_eq_true.mpr fun t ht => ?_
    cases hp : s.dev.present t with
    | false => rfl
    | true => exact hready t ht hp
  refine exec_of_devNext hlive ?_
  show devNext s (if (s.dev.prots[b]).fillDue && (subTiles b).all (fun t => !s.dev.present t || s.dev.ready t) then _ else s.dev) = _
  rw [hdue, hall]
  rfl

/-- FILL_DONE: the fill of a subchannel ends once all of it is written. -/
theorem fillDone_exec (s : State) (b : Fin 8) (hlive : s.dev.live = true) (hcalm : s.dev.calm)
    (hwritten : (s.dev.prots[b]).fillWritten = true) :
    exec (.fillDone b) s = .next { s with dev := s.dev.modProt b (fun x => { x with filling := false }) } := by
  have hcalm' : (s.dev.modProt b (fun x => { x with filling := false })).calm := hcalm
  refine exec_of_devNext hlive ?_
  show devNext s (if (s.dev.prots[b]).fillWritten then (s.dev.modProt b (fun x => { x with filling := false })).enterQueues
    else s.dev) = _
  rw [if_pos hwritten, Dev.enterQueues_of_calm hcalm']

end Sys2Proof.Machine
end

section
/-! PROOF. O38: the spare journal's record (R217 to R219). -/

namespace Sys2Proof.Machine

/-! ### Flash ranges -/

theorem memReadList_congr {x y : Memory} {a n : Nat} (h : ∀ c, a ≤ c → c < a + n → memRead y c = memRead x c) :
    memReadList y a n = memReadList x a n := by
  induction n generalizing a with
  | zero => rfl
  | succ n ih =>
    rw [memReadList, memReadList, h a (by omega) (by omega), ih fun c hlo hhi => h c (by omega) (by omega)]

/-- Bytes written read back. -/
theorem memReadList_memWriteList (bs : List Byte) (m : Memory) (a : Nat) :
    memReadList (memWriteList m a bs) a bs.length = bs := by
  induction bs generalizing m a with
  | nil => rfl
  | cons b r ih =>
    rw [memWriteList, List.length_cons, memReadList, memRead_memWriteList_out _ _ _ _ (.inl (by omega)), memRead_memWrite,
      if_pos rfl, ih]

theorem leBytes_length (n v : Nat) : (leBytes n v).length = n := by
  induction n generalizing v with
  | zero => rfl
  | succ n ih => rw [leBytes, List.length_cons, ih]

theorem journalTrailer_length {body : List Byte} (h : body.length = 0x20C0) : (journalTrailer body).length = 16 := by
  simp [journalTrailer, journalDone, leBytes_length, h]

/-! ### A record that ends whole (R218) -/

theorem Dev.journalNext_lt (d : Dev) : d.journalNext < 2 := by
  unfold Dev.journalNext
  split <;> decide

/-- The journal's register once slot `k` holds the latest record, of image `body`, with `n` errors counted. -/
def journalWord (body : List Byte) (k n : Nat) : Word := pack [(16, leNat ((body.drop 8).take 4)), (15, k), (13, 1), (0, n)]

/-- After a record in one slot the next one goes into the other. -/
theorem journalWord_next (body : List Byte) {k n : Nat} (hk : k < 2) (hn : n < 256) :
    bit (journalWord body k n) 13 = true ∧ bit (journalWord body k n) 15 = decide (k = 1) := by
  have hhigh : n.testBit 15 = false := Nat.testBit_eq_false_of_lt (hn.trans_le (by decide))
  have hnone : (pack []).getLsbD 13 = false ∧ (pack []).getLsbD 15 = false := by decide
  have hbits (i : Nat) : bit (journalWord body k n) i = (decide (i < 48) && (decide (16 ≤ i) &&
      (leNat ((body.drop 8).take 4)).testBit (i - 16)) || (decide (i < 48) && (decide (15 ≤ i) && k.testBit (i - 15)) ||
      (decide (i < 48) && (decide (13 ≤ i) && (1 : Nat).testBit (i - 13)) ||
      (decide (i < 48) && (decide (0 ≤ i) && n.testBit (i - 0)) || (pack []).getLsbD i)))) := by
    rw [journalWord, bit, pack_getLsbD, pack_getLsbD, pack_getLsbD, pack_getLsbD]
  rw [hbits, hbits, hnone.1, hnone.2]
  refine ⟨by simp, ?_⟩
  obtain rfl | rfl : k = 0 ∨ k = 1 := by omega
  · have htwo : Nat.testBit 1 2 = false := rfl
    simp [hhigh, htwo]
  · simp

/-- The device once its record stands whole in flash. -/
def Dev.journalDoneAt (d : Dev) : Dev :=
  { d with journal := { d.journal with busy := false, image := [] } }.setReg A.journal
    (journalWord d.journal.image d.journalNext (d.fldR A.journal 0 8))

theorem Dev.journalDoneAt_next (d : Dev) : d.journalDoneAt.journalNext = 1 - d.journalNext := by
  have hk := d.journalNext_lt
  obtain ⟨hvalid, hslot⟩ := journalWord_next d.journal.image hk (n := d.fldR A.journal 0 8) (fld_lt _ 0 8)
  have hreg : d.journalDoneAt.reg A.journal = journalWord d.journal.image d.journalNext (d.fldR A.journal 0 8) := by
    rw [Dev.journalDoneAt, Dev.reg_setReg, if_pos rfl]
  have hnext : d.journalDoneAt.journalNext = if decide (d.journalNext = 1) then 0 else 1 := by
    rw [Dev.journalNext, hreg, hvalid, hslot]
    cases decide (d.journalNext = 1) <;> rfl
  rw [hnext]
  obtain h | h : d.journalNext = 0 ∨ d.journalNext = 1 := by omega
  · rw [h]
    rfl
  · rw [h]
    rfl

/-- The state once its record stands whole in flash. -/
def State.recorded (s : State) : State :=
  { s with flash := memWriteList s.flash (journalSlot s.dev.journalNext) (s.dev.journal.image ++ journalTrailer s.dev.journal.image),
           dev := s.dev.journalDoneAt }

theorem State.journalEnd_whole {s : State} (hbusy : s.dev.journal.busy = true) : s.journalEnd true = s.recorded.journalErase.journalGo := by
  rw [State.journalEnd, hbusy]
  rfl

/-- The erase of the journal's other slot is due, or is not. -/
def Dev.eraseDueSet (d : Dev) (b : Bool) : Dev := { d with journal := { d.journal with eraseDue := b } }

def State.withDue (s : State) (b : Bool) : State := { s with dev := s.dev.eraseDueSet b }

theorem State.withDue_flash (s : State) (b : Bool) : (s.withDue b).flash = s.flash := rfl

/-- Nothing changes and nothing waits: no record starts. -/
theorem State.journalGo_of_clean {s : State} (hdue : s.dev.journal.eraseDue = false) (hdirty : s.dev.journal.dirty = false) :
    s.journalGo = s := by
  unfold State.journalGo
  simp only [hdue, hdirty, Bool.false_and, Bool.false_eq_true, if_false]

/-- With PWRFAIL_N low an erase that is due stays so (R219). -/
theorem State.journalErase_low {s : State} (hlow : s.dev.pins.pwrfailN = false) : s.journalErase = s.withDue true := by
  rw [State.journalErase, if_neg (by rw [hlow]; decide)]
  rfl

/-- With PWRFAIL_N high the next record's slot is erased (R218). -/
theorem State.journalErase_high {s : State} (hhigh : s.dev.pins.pwrfailN = true) :
    s.journalErase = (s.eraseSlot s.dev.journalNext).withDue false := by
  rw [State.journalErase, if_pos hhigh]
  rfl

theorem State.journalGo_low {s : State} (hlow : s.dev.pins.pwrfailN = false) : (s.withDue true).journalGo = s.withDue true := by
  have hstays : (s.withDue true).dev.journal.eraseDue = true := rfl
  have hlow' : (s.withDue true).dev.pins.pwrfailN = false := hlow
  have hagain : (s.withDue true).withDue true = s.withDue true := rfl
  unfold State.journalGo
  rw [if_pos hstays, State.journalErase_low hlow', hagain]
  simp only [hstays, Bool.not_true, Bool.and_false, Bool.false_eq_true, if_false]

/-- With PWRFAIL_N high the slot that does not hold the record is erased, and no further record starts by itself. -/
theorem State.recorded_erases {s : State} (hdirty : s.dev.journal.dirty = false) (hhigh : s.dev.pins.pwrfailN = true) :
    s.recorded.journalErase.journalGo = (s.recorded.eraseSlot (1 - s.dev.journalNext)).withDue false := by
  have hhigh' : s.recorded.dev.pins.pwrfailN = true := hhigh
  have hnext : s.recorded.dev.journalNext = 1 - s.dev.journalNext := s.dev.journalDoneAt_next
  rw [State.journalErase_high hhigh', hnext]
  exact State.journalGo_of_clean rfl hdirty

/-- With PWRFAIL_N low the record stands, and the erase waits. -/
theorem State.recorded_waits {s : State} (hlow : s.dev.pins.pwrfailN = false) :
    s.recorded.journalErase.journalGo = s.recorded.withDue true := by
  have hlow' : s.recorded.dev.pins.pwrfailN = false := hlow
  rw [State.journalErase_low hlow', State.journalGo_low hlow']

theorem State.recorded_withDue (s : State) (b : Bool) : (s.recorded.withDue b).dev.journal.busy = false ∧
    (s.recorded.withDue b).dev.journal.eraseDue = b := ⟨rfl, rfl⟩

/-- The record stands in its slot with its trailer. -/
theorem State.recorded_slot {s : State} (himage : s.dev.journal.image.length = 0x20C0) :
    memReadList s.recorded.flash (journalSlot s.dev.journalNext) 0x20D0 =
      s.dev.journal.image ++ journalTrailer s.dev.journal.image := by
  have hlen : (s.dev.journal.image ++ journalTrailer s.dev.journal.image).length = 0x20D0 := by
    rw [List.length_append, himage, journalTrailer_length himage]
  rw [← hlen]
  exact memReadList_memWriteList _ _ _

/-- A record touches no byte below the journal. -/
theorem State.recorded_below (s : State) {a : Nat} (ha : a < 0x800000) : memRead s.recorded.flash a = memRead s.flash a :=
  memRead_memWriteList_out _ _ _ _ (.inl (by rw [journalSlot]; omega))

/-- The erase of one slot leaves the other. -/
theorem State.eraseSlot_other (s : State) {k : Nat} (hk : k < 2) : memReadList (s.eraseSlot (1 - k)).flash (journalSlot k) 0x20D0 =
    memReadList s.flash (journalSlot k) 0x20D0 := by
  refine memReadList_congr fun c hlo hhi => ?_
  have hout : ¬ (journalSlot (1 - k) ≤ c ∧ c < journalSlot (1 - k) + 0x4000) := by
    unfold journalSlot at *
    omega
  rw [State.eraseSlot, memRead_memErase, if_neg hout]

theorem State.eraseSlot_below (s : State) (k : Nat) {a : Nat} (ha : a < 0x800000) :
    memRead (s.eraseSlot k).flash a = memRead s.flash a := by
  have hout : ¬ (journalSlot k ≤ a ∧ a < journalSlot k + 0x4000) := by
    unfold journalSlot
    omega
  rw [State.eraseSlot, memRead_memErase, if_neg hout]

/-- JOURNAL_RECORD_DONE of a record that ends whole. -/
theorem journalRecordDone_whole (s : State) (hlive : s.dev.live = true) (hbusy : s.dev.journal.busy = true)
    (hdirty : s.dev.journal.dirty = false) (himage : s.dev.journal.image.length = 0x20C0) :
    ∃ t : State, exec (.journalRecordDone true) s = .next t ∧ t.dev.journal.busy = false ∧
      t.dev.journal.eraseDue = !s.dev.pins.pwrfailN ∧
      memReadList t.flash (journalSlot s.dev.journalNext) 0x20D0 =
        s.dev.journal.image ++ journalTrailer s.dev.journal.image ∧
      (s.dev.pins.pwrfailN = true → ∀ a, journalSlot (1 - s.dev.journalNext) ≤ a →
        a < journalSlot (1 - s.dev.journalNext) + 0x4000 → memRead t.flash a = flashErased) ∧
      (∀ a, a < 0x800000 → memRead t.flash a = memRead s.flash a) ∧ t.fuses = s.fuses ∧ t.cells = s.cells := by
  have hexec : exec (.journalRecordDone true) s = .next (s.journalEnd true) := stNext_of_live (s.journalEnd true) hlive
  rw [State.journalEnd_whole hbusy] at hexec
  cases hpin : s.dev.pins.pwrfailN with
  | true =>
    obtain ⟨hidle, hdue⟩ := s.recorded_withDue false
    rw [State.recorded_erases hdirty hpin] at hexec
    refine ⟨_, hexec, hidle, hdue, ?_, fun _ a hlo hhi => ?_, fun a ha => ?_, rfl, rfl⟩
    · rw [State.withDue_flash, State.eraseSlot_other _ s.dev.journalNext_lt, State.recorded_slot himage]
    · exact (memRead_memErase _ _ _ _).trans (if_pos ⟨hlo, hhi⟩)
    · exact (s.recorded.eraseSlot_below _ ha).trans (s.recorded_below ha)
  | false =>
    obtain ⟨hidle, hdue⟩ := s.recorded_withDue true
    rw [State.recorded_waits hpin] at hexec
    have hslot : memReadList (s.recorded.withDue true).flash (journalSlot s.dev.journalNext) 0x20D0 =
        s.dev.journal.image ++ journalTrailer s.dev.journal.image := by
      rw [State.withDue_flash, State.recorded_slot himage]
    exact ⟨_, hexec, hidle, hdue, hslot, fun h => absurd h (by decide), fun a ha => s.recorded_below ha, rfl, rfl⟩

/-! ### A record that fails (R218, R219) -/

/-- JOURNAL_RECORD_DONE of a record that fails. -/
theorem journalRecordDone_failed (s : State) (hlive : s.dev.live = true) (hbusy : s.dev.journal.busy = true) :
    let r : Report := { event := 1, addr := 0, akind := 0, coord := 0, master := none, access := 0 }
    let n := journalSlot s.dev.journalNext
    (s.dev.pins.pwrfailN = true → ∃ t : State, exec (.journalRecordDone false) s = .next t ∧
      t.dev = (s.dev.bump A.journal 0 8).fault 129 r ∧ t.fuses = s.fuses ∧ t.cells = s.cells ∧
      ∀ a, memRead t.flash a = if n ≤ a ∧ a < n + 0x4000 then flashErased else memRead s.flash a) ∧
    (s.dev.pins.pwrfailN = false → ∃ d : Dev, exec (.journalRecordDone false) s = .next { s with dev := d } ∧
      d.journal = { busy := false, dirty := true, eraseDue := true, image := [] } ∧ d.fldR A.journal 14 1 = 0) := by
  intro r n
  have hexec : exec (.journalRecordDone false) s = .next (s.journalEnd false) := stNext_of_live (s.journalEnd false) hlive
  refine ⟨fun hhigh => ?_, fun hlow => ?_⟩
  · have hend : s.journalEnd false = State.eraseSlot { s with dev := (s.dev.bump A.journal 0 8).fault 129 r } s.dev.journalNext := by
      rw [State.journalEnd, hbusy]
      exact if_pos hhigh
    rw [hend] at hexec
    exact ⟨_, hexec, rfl, rfl, rfl, fun a => memRead_memErase _ _ _ _⟩
  · let x : Dev := { (s.dev.bump A.journal 0 8).fault 129 r with
      journal := { busy := false, dirty := true, eraseDue := true, image := [] } }
    have hend : s.journalEnd false = { s with dev := x.setFld A.journal 14 1 0 } := by
      rw [State.journalEnd, hbusy]
      have hlow' : ¬ s.dev.pins.pwrfailN = true := by rw [hlow]; decide
      exact if_neg hlow'
    rw [hend] at hexec
    exact ⟨_, hexec, rfl, Dev.fldR_setFld_fits (v := 0) x _ (by decide) (by decide) (by decide)⟩

end Sys2Proof.Machine
end

section
/-! SUPPORT. What faults leave of the line code: answers, completions and FATAL touch none of it; the fence of a subchannel stops its
row command (R289 to R292). -/

namespace Sys2Proof.Machine

/-! ### Answers and completions -/

theorem Dev.each_prots {α : Type} {f : α → Dev → Dev} (h : ∀ x d, (f x d).prots = d.prots) (l : List α) (d : Dev) :
    (Dev.each f l d).prots = d.prots :=
  Dev.each_keeps (fun y => y.prots = d.prots) f (fun x y hy => (h x y).trans hy) l d rfl

section
variable (d : Dev)

@[simp] theorem Dev.raiseAttn_prots (c : Nat) : (d.raiseAttn c).prots = d.prots := by
  obtain ⟨_, _, he, -⟩ := d.setAttn_eq (d.fldR A.attn 0 12 ||| 2 ^ c)
  rw [Dev.raiseAttn, he]

@[simp] theorem Dev.sillPush_prots (ty : Nat) (coord : BitVec 16) (i : Nat) (data : Word) :
    (d.sillPush ty coord i data).prots = d.prots := by
  obtain ⟨_, _, he, -⟩ := d.sillPush_eq ty coord i data
  rw [he]

@[simp] theorem Dev.noteLatency_prots (n : BitVec 4) (lat : Nat) : (d.noteLatency n lat).prots = d.prots := by
  obtain ⟨⟨_, _, _, he⟩, -⟩ := d.noteLatency_measures n lat
  rw [he]

@[simp] theorem Dev.markExec_prots (vc : Vc) (tag : BitVec 12) : (d.markExec vc tag).prots = d.prots := by
  unfold Dev.markExec
  extract_lets d1
  show d1.prots = d.prots
  unfold d1
  split <;> rfl

@[simp] theorem Dev.jobTells_prots (j : Job) (v : Nat) : (d.jobTells j v).prots = d.prots := by
  obtain ⟨_, h⟩ := d.jobTells_only j v
  rw [h]

@[simp] theorem Dev.respondWith_prots (exec : Bool) (vc : Vc) (tag : BitVec 12) (late : Bool) (mk : Nat → List Slot) :
    (d.respondWith exec vc tag late mk).prots = d.prots := by
  unfold Dev.respondWith
  extract_lets sel any isIt
  split
  · extract_lets d1 d2
    have h1 : d1.prots = d.prots := by
      unfold d1
      split <;> simp
    split
    · exact h1
    · exact h1
  · split <;> rfl

@[simp] theorem Dev.respond_prots (vc : Vc) (tag : BitVec 12) (late : Bool) (mk : Nat → List Slot) :
    (d.respond vc tag late mk).prots = d.prots := d.respondWith_prots _ _ _ _ _

@[simp] theorem Dev.respondRefused_prots (vc : Vc) (tag : BitVec 12) (st : Status) (mk : Nat → List Slot) :
    (d.respondRefused vc tag st mk).prots = d.prots := d.respondWith_prots _ _ _ _ _

@[simp] theorem Dev.writeEnd_prots (rid : Nat) (bad : Bool) : (d.writeEnd rid bad).prots = d.prots := rfl

@[simp] theorem Dev.engDone_prots (e : Fin 72) (k : Fin 32) (gen : Nat) (st : Status) (data : Option Line) :
    (d.engDone e k gen st data).prots = d.prots := rfl

@[simp] theorem Dev.atomDone_prots (e : Fin 72) (gen : Nat) (st : Status) (old : BitVec 64) :
    (d.atomDone e gen st old).prots = d.prots := rfl

@[simp] theorem Dev.tierGot_prots (id i : Nat) (data : Option Line) (corr fwd : Bool) :
    (d.tierGot id i data corr fwd).prots = d.prots := rfl

@[simp] theorem Dev.rxDrop_prots (h : Held) : (d.rxDrop h).prots = d.prots := by
  unfold Dev.rxDrop
  split <;> rfl

@[simp] theorem Dev.drainFlushEnd_prots (p : Fin 4) : (d.drainFlushEnd p).prots = d.prots := by
  unfold Dev.drainFlushEnd
  split <;> rfl

@[simp] theorem Dev.jobDrop_prots (id : Nat) : (d.jobDrop id).prots = d.prots := by
  unfold Dev.jobDrop
  split
  · rfl
  · rw [Dev.jobTells_prots]
    exact Dev.each_prots (f := fun (x : Loc × KeyUse) y => y.modPort (locPort x.1) (fun p => p.unlock x.1)) (fun _ _ => rfl) _ _

@[simp] theorem Dev.answerHeld_prots (h : Held) (st : Status) : (d.answerHeld h st).prots = d.prots := by
  unfold Dev.answerHeld
  split
  · extract_lets d1 d2
    have h1 : d1.prots = d.prots := by
      unfold d1
      split <;> simp
    have h2 : d2.prots = d.prots := h1
    split <;> simp [h2]
  · simp
  · simp
  · rfl

@[simp] theorem Dev.abortRead_prots (op : RdOp) (a : Acc) (st : Status) : (d.abortRead op a st).prots = d.prots := by
  unfold Dev.abortRead
  split <;> simp

@[simp] theorem Dev.dropRdEnt_prots (p : Fin 4) (r : RdEnt) : (d.dropRdEnt p r).prots = d.prots := by
  simp [Dev.dropRdEnt]

@[simp] theorem Dev.dropFly_prots (s : Fin 8) (i : Inflight) : (d.dropFly s i).prots = d.prots := by
  unfold Dev.dropFly
  extract_lets d1
  have h1 : d1.prots = d.prots := by
    unfold d1
    split <;> rfl
  rw [Dev.abortRead_prots, h1]

end

/-! ### FATAL (R292) -/

section
variable (d : Dev)

@[simp] theorem Dev.fatalEngines_prots : d.fatalEngines.prots = d.prots := by
  unfold Dev.fatalEngines
  extract_lets d1 d2
  have h1 : d1.prots = d.prots := by
    refine Dev.each_prots (fun e x => ?_) allEngs d
    split
    · rw [Dev.respondRefused_prots]
      rfl
    · rfl
  clear_value d1
  have h2 : d2.prots = d1.prots := Dev.each_prots (fun i x => x.respondRefused_prots _ _ _ _) d1.kq { d1 with kq := [] }
  exact h2.trans h1

@[simp] theorem Dev.fatalQ_prots : d.fatalQ.prots = d.prots := by
  unfold Dev.fatalQ
  extract_lets isQ d1 ends d2 d3 unexec d4 d5
  have h1 : d1.prots = d.prots := Dev.each_prots (fun h x => by simp) _ (d.modTxn _)
  clear_value d1
  have h2 : d2.prots = d1.prots := Dev.each_prots (fun p x => Dev.each_prots (fun r y => y.dropRdEnt_prots p r) _ x) allPorts d1
  clear_value d2
  have h3 : d3.prots = d2.prots := Dev.each_prots (fun s x =>
    (Dev.modPhy_prots _ s _).trans (Dev.each_prots (fun i y => y.dropFly_prots s i) _ x)) allSubs d2
  clear_value d3
  have h4 : d4.prots = d3.prots := Dev.each_prots (fun o x => by simp) _ (d3.modTier _)
  clear_value d4
  have h5 : d5.prots = d4.prots := Dev.each_prots (fun f x => x.respond_prots _ _ _ _) _ (d4.modTxn _)
  clear_value d5
  have h6 : (Dev.each (fun p x => x.drainFlushEnd p) allPorts d5).prots = d5.prots :=
    Dev.each_prots (fun p x => x.drainFlushEnd_prots p) allPorts d5
  rw [h6, h5, h4, h3, h2, h1]

@[simp] theorem Dev.enterFatal_prots : d.enterFatal.prots = d.prots := by
  unfold Dev.enterFatal
  split
  · rfl
  · rw [Dev.fatalQ_prots, Dev.fatalEngines_prots]

end

/-! ### Dead positions (R208) -/

/-- From `x` to `y` every subchannel keeps its dead positions. -/
def Dev.sameDead (x y : Dev) : Prop := ∀ b : Fin 8, (y.prots[b]).dead = (x.prots[b]).dead

theorem Dev.sameDead_of_prots {x y : Dev} (h : y.prots = x.prots) : x.sameDead y := fun b => by rw [h]

theorem Dev.sameDead.trans {x y z : Dev} (h : x.sameDead y) (k : y.sameDead z) : x.sameDead z := fun b => (k b).trans (h b)

theorem Dev.sameDead_modProt (d : Dev) (c : Fin 8) {f : Prot → Prot} (h : ∀ x, (f x).dead = x.dead) : d.sameDead (d.modProt c f) := by
  intro b
  by_cases hb : b = c
  · rw [hb, Dev.modProt_prots_same, h]
  · rw [Dev.modProt_prots_ne _ _ _ hb]

theorem Dev.each_sameDead {α : Type} {f : α → Dev → Dev} (h : ∀ x d, Dev.sameDead d (f x d)) (l : List α) (d : Dev) :
    d.sameDead (Dev.each f l d) :=
  Dev.each_keeps d.sameDead f (fun x y hy => hy.trans (h x y)) l d fun _ => rfl

section
variable (d : Dev)

theorem Dev.complete_sameDead (c : Acc × Option (BitVec 64)) (st : Status) : d.sameDead (d.complete c st) := by
  unfold Dev.complete
  extract_lets a
  cases hwho : a.who with
  | hub tag src => exact Dev.sameDead_of_prots ((Dev.noteLatency_prots _ _ _).trans (Dev.respond_prots _ _ _ _ _))
  | slot e k g => exact Dev.sameDead_of_prots (Dev.noteLatency_prots _ _ _)
  | latom e g => exact Dev.sameDead_of_prots (Dev.noteLatency_prots _ _ _)
  | job id k => exact Dev.sameDead_of_prots (Dev.jobDrop_prots _ _)
  | fill s => exact d.sameDead_modProt s fun _ => rfl
  | _ => exact fun _ => rfl

/-- A fence of a subchannel takes its work, not its dead positions (R291). -/
theorem Dev.fenceSubCore_sameDead (b : Fin 8) : d.sameDead (d.fenceSubCore b) := by
  unfold Dev.fenceSubCore
  extract_lets p flt d0 isMerge d1 d2 d3 d4 d5 d6
  have h1 : d.sameDead d1 := Dev.sameDead_of_prots (Dev.each_prots (fun r x => x.dropRdEnt_prots p r) _ d0)
  clear_value d1
  have h2 : d1.sameDead d2 := Dev.each_sameDead (fun (w : WrEnt) x =>
    (Dev.each_sameDead (fun c y => y.complete_sameDead c .poison) w.comps x).trans
      (Dev.sameDead_of_prots (Dev.each_prots (fun (n : Nat × BitVec 4) y => y.writeEnd_prots n.1 true) w.reqs _))) _ d1
  clear_value d2
  have h3 : d2.sameDead d3 := Dev.sameDead_of_prots ((Dev.drainFlushEnd_prots _ p).trans (Dev.modPort_prots d2 p _))
  clear_value d3
  have h4 : d3.sameDead d4 := Dev.sameDead_of_prots (Dev.each_prots (fun i x => x.dropFly_prots b i) _ d3)
  clear_value d4
  have h5 : d4.sameDead d5 := Dev.sameDead_of_prots (Dev.modPhy_prots d4 b _)
  clear_value d5
  have h6 : d5.sameDead d6 := Dev.sameDead_modProt (d5.setFld (A.testStat b.val) 47 1 0) b fun _ => rfl
  clear_value d6
  refine (((((h1.trans h2).trans h3).trans h4).trans h5).trans h6).trans ?_
  exact Dev.sameDead_of_prots ((Dev.each_prots (fun t x => Dev.modTile_prots x t _) (subTiles b) _).trans (Dev.setFld_prots d6 _ _ _ _))

end

/-! ### The faults of a subchannel (R289) -/

theorem fenceTarget_sub : ∀ b : Fin 8, fenceTarget (72 + b.val) = .sub b := by decide

/-- A fault of a subchannel's line code takes no dead position away, whatever its severity brings about. -/
theorem Dev.fault_sameDead (d : Dev) (b : Fin 8) (r : Report) : d.sameDead (d.fault (72 + b.val) r) := by
  obtain ⟨⟨_, _, _, hrec⟩, -⟩ := d.recordGraded_reports (72 + b.val) r false true true (d.gradeSev (72 + b.val) r.event.toNat)
  generalize hq : d.recordGraded (72 + b.val) r false true true (d.gradeSev (72 + b.val) r.event.toNat) = q at hrec
  have hrecorded : d.sameDead q.1 := Dev.sameDead_of_prots (by rw [hrec])
  have hfault : d.fault (72 + b.val) r = q.1.react (Dev.faultN 7) (72 + b.val) r q.2 := by
    rw [← hq]
    rfl
  rw [hfault]
  refine hrecorded.trans ?_
  unfold Dev.react
  split
  · exact Dev.sameDead_of_prots (Dev.raiseAttn_prots _ _)
  · exact Dev.sameDead_of_prots (Dev.raiseAttn_prots _ _)
  · have hraised : q.1.sameDead (q.1.raiseAttn 10) := Dev.sameDead_of_prots (Dev.raiseAttn_prots _ _)
    refine hraised.trans ?_
    rw [Dev.fence, fenceTarget_sub]
    refine Dev.sameDead.trans ?_ (Dev.fenceSubCore_sameDead _ b)
    exact Dev.sameDead_of_prots (Dev.sillPush_prots _ _ _ _ _)
  · exact Dev.sameDead_of_prots ((Dev.enterFatal_prots _).trans (Dev.raiseAttn_prots _ _))
  · exact fun _ => rfl

end Sys2Proof.Machine
end

section
/-! PROOF. O38: a position that is declared dead (R207, R208), and the obligation. -/

namespace Sys2Proof.Machine

theorem Dev.rowBegin_sameDead (d : Dev) (b : Fin 8) : d.sameDead (d.rowBegin b) := fun c => by
  obtain ⟨o, hc⟩ := (d.rowBegin_rowStarts b).prots c
  rw [hc]

@[simp] theorem Dev.eventWhere_prots (d : Dev) (k : Nat) (c : Fin 72 → Engine → Bool) : (d.eventWhere k c).prots = d.prots := by
  unfold Dev.eventWhere
  rfl

@[simp] theorem Dev.sillSparing_prots (d : Dev) (coord : BitVec 16) (ev : Nat) : (d.sillSparing coord ev).prots = d.prots :=
  d.sillPush_prots _ _ _ _

theorem Dev.journalStart_sameDead (d : Dev) : d.sameDead d.journalStart := by
  obtain ⟨-, rf, journal, h⟩ := d.journalStart_keeps
  exact Dev.sameDead_of_prots (by rw [h])

/-- What follows from a declaration, be it a rebuild or one that freezes, takes no dead position away. -/
theorem Dev.declareDead_keeps (d : Dev) (b : Fin 8) {pos : Nat} (hpos : pos ≤ 12) (hnew : (d.prots[b]).dead.getLsbD pos = false) :
    (d.modProt b (fun x => { x with dead := putBit x.dead pos true })).sameDead (d.declareDead b pos) := by
  have hgoes : ¬ (decide (12 < pos) || (d.prots[b]).dead.getLsbD pos) = true := by
    rw [hnew, decide_eq_false (by omega)]
    decide
  unfold Dev.declareDead
  extract_lets pr d1 moving start freeze d2 rep
  rw [if_neg hgoes]
  have h1 : (d.modProt b (fun x => { x with dead := putBit x.dead pos true })).sameDead d1 :=
    Dev.sameDead_of_prots (Dev.sillSparing_prots _ _ _)
  clear_value d1
  have h2 : d1.sameDead d2 := by
    unfold d2
    split
    · refine Dev.sameDead.trans ?_ (Dev.sameDead_of_prots ((Dev.eventWhere_prots _ _ _).trans (Dev.sillSparing_prots _ _ _)))
      exact d1.sameDead_modProt b fun _ => rfl
    · split
      · refine Dev.sameDead.trans ?_ (Dev.rowBegin_sameDead _ b)
        refine Dev.sameDead.trans ?_ (Dev.sameDead_of_prots ((Dev.sillSparing_prots _ _ _).trans (Dev.modPort_prots _ _ _)))
        exact d1.sameDead_modProt b fun _ => rfl
      · exact fun _ => rfl
  clear_value d2
  have h3 : d2.sameDead (d2.raiseAttn 5) := Dev.sameDead_of_prots (Dev.raiseAttn_prots _ _)
  exact ((h1.trans h2).trans h3).trans ((Dev.fault_sameDead _ b rep).trans (Dev.journalStart_sameDead _))

/-- DECLARE: the position is dead. -/
theorem declare_exec (s : State) (m : Master) (b : Fin 8) (v : Word) (hlive : s.dev.live = true) (hbit : bit v 4 = true)
    (hpos : fld v 0 4 ≤ 12) (hnew : (s.dev.prots[b]).dead.getLsbD (fld v 0 4) = false) :
    ∃ d : Dev, exec (.declare m b v) s = .next { s with dev := d } ∧ (d.prots[b]).dead.getLsbD (fld v 0 4) = true := by
  have hexec : exec (.declare m b v) s = .next { s with dev := s.dev.declareDead b (fld v 0 4) } := by
    refine exec_of_devNext hlive ?_
    show devNext s (s.dev.declareWrite b v) = _
    rw [Dev.declareWrite, if_pos hbit]
  refine ⟨_, hexec, ?_⟩
  rw [Dev.declareDead_keeps s.dev b hpos hnew b, Dev.modProt_prots_same]
  show (putBit _ _ true).getLsbD _ = true
  rw [putBit_getLsbD, if_pos rfl, decide_eq_true (by omega)]
  rfl

/-- Settles O38: windows, declarations, the self-test, injections and fills act on what they name, and a spare-journal record
that ends leaves its slot, or the slot's erase, as it ended. -/
theorem sparingAndJournal : Obligations.SparingAndJournal := by
  unfold Obligations.SparingAndJournal
  exact ⟨fun s b hlive hwindow => deadWindowEnd_exec s b hlive hwindow,
    fun s m b v hlive hbit hpos hnew => declare_exec s m b v hlive hbit hpos hnew,
    fun s b hlive hperiod => selftest_exec s b hlive hperiod,
    fun s m b v hlive => injectArm_exec s m b v hlive,
    fun s b hlive hdue hready => fill_exec s b hlive hdue hready,
    fun s b hlive hcalm hwritten => fillDone_exec s b hlive hcalm hwritten,
    fun s hlive hbusy hdirty himage => journalRecordDone_whole s hlive hbusy hdirty himage,
    fun s hlive hbusy => journalRecordDone_failed s hlive hbusy⟩

end Sys2Proof.Machine
end

section
/-! SUPPORT. Events of the engines (R262, Table 10.9): what setting one does to an engine, and which engines one reaches. -/

namespace Sys2Proof.Machine

theorem and_not_and {w : Nat} (x y : BitVec w) : x &&& ~~~ (x &&& y) = x &&& ~~~ y := by
  apply BitVec.eq_of_getLsbD_eq
  intro i hi
  simp only [BitVec.getLsbD_and, BitVec.getLsbD_not, hi, decide_true, Bool.true_and]
  cases x.getLsbD i <;> rfl

section
variable {x : Engine} {b : Nat}

theorem Engine.setEvent_missed {mask : BitVec 16} {rd : Fin 16} (hwait : x.wait = .event mask rd)
    (h : putBit x.events b true &&& mask = 0) : x.setEvent b = { x with events := putBit x.events b true } := by
  unfold Engine.setEvent Engine.wakeEvent
  simp only [hwait]
  exact if_pos h

theorem Engine.setEvent_woken {mask : BitVec 16} {rd : Fin 16} (hwait : x.wait = .event mask rd)
    (h : putBit x.events b true &&& mask ≠ 0) : x.setEvent b =
      (Engine.setW { x with events := putBit x.events b true &&& ~~~ mask, wait := .none, run := .running } rd
        ((putBit x.events b true &&& mask).setWidth 48)).next := by
  unfold Engine.setEvent Engine.wakeEvent
  simp only [hwait]
  rw [if_neg h, and_not_and]

theorem Engine.setEvent_unawaited (h : ∀ mask rd, x.wait ≠ .event mask rd) :
    x.setEvent b = { x with events := putBit x.events b true } := by
  unfold Engine.setEvent Engine.wakeEvent
  split
  next mask rd hwait => exact absurd hwait (h mask rd)
  next => rfl

end

/-- The bit of an event is set, and a WAITE whose mask has it goes on (R262). -/
theorem Engine.setEvent_getsEvent (x : Engine) (b : Nat) : x.getsEvent (x.setEvent b) b := by
  unfold Engine.getsEvent
  extract_lets ev
  split
  next mask rd hwait =>
    split
    next hmiss => exact Engine.setEvent_missed hwait hmiss
    next hhit =>
      let y : Engine := { x with events := ev &&& ~~~ mask, wait := .none, run := .running }
      have hset : x.setEvent b = (y.setW rd ((ev &&& mask).setWidth 48)).next := Engine.setEvent_woken hwait hhit
      have hw : x.writes (x.setEvent b) rd ((ev &&& mask).setWidth 48) := by
        rw [hset]
        exact y.w_setW rd _
      obtain ⟨regs, hregs⟩ := y.setW_eq rd ((ev &&& mask).setWidth 48)
      rw [hset, hregs] at hw ⊢
      exact ⟨rfl, rfl, rfl, rfl, hw, rfl⟩
  next hno => exact Engine.setEvent_unawaited hno

@[simp] theorem Dev.eventWhere_reg (d : Dev) (b : Nat) (c : Fin 72 → Engine → Bool) (a : Nat) :
    (d.eventWhere b c).reg a = d.reg a := by
  have hrf : (d.eventWhere b c).rf = d.rf := by unfold Dev.eventWhere; rfl
  exact Dev.reg_of_rf hrf a

/-- An event that every engine gets reaches those that run (R262). -/
theorem Dev.eventWhere_all {d y : Dev} (hengs : y.engs = d.engs) (b : Nat) (e : Fin 72) :
    if (d.engs[e]).run ≠ .off ∧ (d.engs[e]).run ≠ .fenced then (d.engs[e]).getsEvent (y.eventWhere b (fun _ _ => true)).engs[e] b
    else (y.eventWhere b (fun _ _ => true)).engs[e] = d.engs[e] := by
  have heng : (y.eventWhere b (fun _ _ => true)).engs[e] =
      if (d.engs[e]).run ≠ .off ∧ (d.engs[e]).run ≠ .fenced then (d.engs[e]).setEvent b else d.engs[e] := by
    simp [Dev.eventWhere, hengs]
  rw [heng]
  split
  · exact Engine.setEvent_getsEvent _ b
  · rfl

end Sys2Proof.Machine
end

section
/-! PROOF. O40: key slots, the start of a rotation, and the obligation (R228, R229, R231). -/

namespace Sys2Proof.Machine

/-! ### Key slots (R228, R229) -/

theorem keyOp_put (v : Word) {op : Nat} (h : op ≤ 2) : keyOp (put v 46 2 op) = op := by
  have hop : fld (put v 46 2 op) 46 2 = op := by
    rw [fld_put_same _ _ _ _ (by decide) (by decide)]
    omega
  rw [keyOp, hop, codeOf, if_pos]
  interval_cases op <;> rfl

theorem keySlot_put (v : Word) (op : Nat) : fld (put v 46 2 op) 36 5 = fld v 36 5 :=
  fld_put_other _ _ _ _ _ _ (by decide) (by decide) (by decide)

/-- The device with key slots `c`. -/
def Dev.withCrypt (d : Dev) (c : Crypt) : Dev := { d with crypt := c }

/-- Slot `k` holds `key`. -/
def Crypt.fill (c : Crypt) (k : Nat) (key : Option (BitVec 256)) : Crypt := { c with slots := c.slots.setIfInBounds k key }

theorem Crypt.fill_slot (c : Crypt) (k : Nat) (key : Option (BitVec 256)) (i : Fin 32) :
    (c.fill k key).slots[i] = if i.val = k then key else c.slots[i] := by
  simp only [Crypt.fill, Fin.getElem_fin, Vector.getElem_setIfInBounds, eq_comm]

section
variable (d : Dev) (c : Crypt) (lo len v : Nat)

/-- Key slots change, and a field of KEY_CMD is set. -/
def Dev.keyStep (d : Dev) (c : Crypt) (lo len v : Nat) : Dev := (d.withCrypt c).setFld A.keyCmd lo len v

theorem Dev.keyStep_regsBut : d.regsBut (d.keyStep c lo len v) [A.keyCmd] := (d.withCrypt c).setFld_regsBut _ _ _ _

theorem Dev.keyStep_same (h : 0 < len) (hl : lo + len ≤ 48) : (d.keyStep c lo len v).fldR A.keyCmd lo len = v % 2 ^ len :=
  (d.withCrypt c).fldR_setFld_same _ _ _ _ h hl

theorem Dev.keyStep_other {lo' len' : Nat} (h : 0 < len) (hl : lo + len ≤ 48) (hd : lo' + len' ≤ lo ∨ lo + len ≤ lo') :
    (d.keyStep c lo len v).fldR A.keyCmd lo' len' = d.fldR A.keyCmd lo' len' :=
  (d.withCrypt c).fldR_setFld_other _ _ _ _ _ _ h hl hd

end

/-- KEY_CMD names slot `n`. -/
def Dev.keyNamed (d : Dev) (n : Nat) : Dev := d.setFld A.keyCmd 36 5 n

/-- A LOAD of slot `n` is under way (R229). -/
def Dev.keyLoading (d : Dev) (n : Nat) : Dev :=
  (d.keyNamed n).keyStep { d.crypt with busy := some (BitVec.ofNat 5 n) } 35 1 1

/-- A CLEAR has emptied slot `n` and the key data (R229). -/
def Dev.keyCleared (d : Dev) (n : Nat) : Dev :=
  (d.keyNamed n).keyStep { d.crypt.fill n none with keyData := Vector.replicate 8 0 } 32 3 1

section
variable {s : State} (v : Word) (hlive : s.dev.live = true) (hbusy : s.dev.crypt.busy = none)
include hlive hbusy

/-- A LOAD is busy with the slot it names (R229). -/
theorem exec_keyLoad (hvoid : s.fuses.state ≠ 4) :
    exec (.keyLoad .hub v) s = .next { s with dev := s.dev.keyLoading (fld v 36 5) } := by
  refine Eq.trans (congrArg (devNext s) ?_) (devNext_of_live _ hlive)
  simp [State.keyCmdWrite, hvoid, Dev.keyCmdWrite, hbusy, keyOp_put, keySlot_put, Dev.keyLoading,
    Dev.keyNamed, Dev.keyStep, Dev.withCrypt]

/-- A CLEAR empties its slot and the key data (R229). -/
theorem exec_keyClear : exec (.keyClear .hub v) s = .next { s with dev := s.dev.keyCleared (fld v 36 5) } := by
  have hslot : (BitVec.ofNat 5 (fld v 36 5)).toNat = fld v 36 5 := by
    rw [BitVec.toNat_ofNat, Nat.mod_eq_of_lt (fld_lt v 36 5)]
  refine Eq.trans (congrArg (devNext s) ?_) (devNext_of_live _ hlive)
  simp [Dev.keyCmdWrite, hbusy, keyOp_put, keySlot_put, hslot, Dev.keyCleared, Dev.keyNamed, Dev.keyStep,
    Dev.withCrypt, Crypt.fill]

end

theorem keyLoad_isBusy (s : State) (v : Word) (hlive : s.dev.live = true) (hvoid : s.fuses.state ≠ 4)
    (hbusy : s.dev.crypt.busy = none) : ∃ d : Dev, exec (.keyLoad .hub v) s = .next { s with dev := d } ∧
      d.crypt = { s.dev.crypt with busy := some (BitVec.ofNat 5 (fld v 36 5)) } ∧ d.fldR A.keyCmd 35 1 = 1 ∧
      d.fldR A.keyCmd 36 5 = fld v 36 5 ∧ s.dev.regsBut d [A.keyCmd] := by
  refine ⟨_, exec_keyLoad v hlive hbusy hvoid, rfl, Dev.keyStep_same _ _ 35 1 1 (by decide) (by decide), ?_,
    Dev.regsBut.trans (s.dev.setFld_regsBut _ 36 5 _) (Dev.keyStep_regsBut _ _ _ _ _)⟩
  rw [Dev.keyLoading, Dev.keyStep_other _ _ _ _ _ (by decide) (by decide) (by decide)]
  exact s.dev.fldR_setFld_fits _ (by decide) (by decide) (fld_lt v 36 5)

theorem keyClear_empties (s : State) (v : Word) (hlive : s.dev.live = true) (hbusy : s.dev.crypt.busy = none) :
    ∃ d : Dev, exec (.keyClear .hub v) s = .next { s with dev := d } ∧ d.fldR A.keyCmd 32 3 = 1 ∧
      d.crypt.keyData = Vector.replicate 8 0 ∧ s.dev.regsBut d [A.keyCmd] ∧
      ∀ i : Fin 32, d.crypt.slots[i] = if i.val = fld v 36 5 then none else s.dev.crypt.slots[i] :=
  ⟨_, exec_keyClear v hlive hbusy, Dev.keyStep_same _ _ 32 3 1 (by decide) (by decide), rfl,
    Dev.regsBut.trans (s.dev.setFld_regsBut _ 36 5 _) (Dev.keyStep_regsBut _ _ _ _ _), s.dev.crypt.fill_slot _ _⟩

/-! ### The judgement of a wrapped key (R228, R229) -/

/-- The wrapped key in the key data checks for slot `k` under the programmed KWK (R228). -/
def State.keyChecks (s : State) (k : BitVec 5) : Prop :=
  s.fuses.kwkOk = true ∧ unwrapBlock s.fuses.kwk s.dev.crypt.wrapped 0 = wrapCheck k

/-- The key that the wrapped key holds (R228). -/
def State.keyUnwrapped (s : State) : BitVec 256 :=
  unwrapBlock s.fuses.kwk s.dev.crypt.wrapped 1 ++ unwrapBlock s.fuses.kwk s.dev.crypt.wrapped 2

/-- No LOAD is under way. -/
def Crypt.idle (c : Crypt) : Crypt := { c with busy := none }

/-- The LOAD is over, its RESULT not yet set. -/
def Dev.keyLoaded (d : Dev) : Dev := d.keyStep d.crypt.idle 35 1 0

section
variable {s : State} {k : BitVec 5} (hlive : s.dev.live = true) (hbusy : s.dev.crypt.busy = some k)
include hlive hbusy

theorem exec_keyLoadDone_unchecked (hbad : ¬ s.keyChecks k) :
    exec .keyLoadDone s = .next { s with dev := s.dev.keyLoaded.keyStep s.dev.crypt.idle 32 3 2 } := by
  have hor : s.fuses.kwkOk = false ∨ ¬ unwrapBlock s.fuses.kwk s.dev.crypt.wrapped 0 = wrapCheck k := by
    simpa [State.keyChecks, imp_iff_not_or] using hbad
  refine Eq.trans (congrArg (devNext s) ?_) (devNext_of_live _ hlive)
  simp only [hbusy]
  rw [if_pos (by simpa using hor)]
  rfl

variable (hgood : s.keyChecks k)
include hgood

theorem exec_keyLoadDone_filled (hfull : (s.dev.crypt.slots[k.toNat]?.join).isSome = true) :
    exec .keyLoadDone s = .next { s with dev := s.dev.keyLoaded.keyStep s.dev.crypt.idle 32 3 3 } := by
  obtain ⟨hkwk, hcheck⟩ := hgood
  refine Eq.trans (congrArg (devNext s) ?_) (devNext_of_live _ hlive)
  simp only [hbusy]
  rw [if_neg (by simp [hkwk, hcheck]), if_pos hfull]
  rfl

theorem exec_keyLoadDone_taken (hempty : s.dev.crypt.slots[k.toNat]?.join = none) :
    exec .keyLoadDone s = .next { s with dev := s.dev.keyLoaded.keyStep (s.dev.crypt.idle.fill k.toNat (some s.keyUnwrapped)) 32 3 1 } := by
  obtain ⟨hkwk, hcheck⟩ := hgood
  refine Eq.trans (congrArg (devNext s) ?_) (devNext_of_live _ hlive)
  simp only [hbusy]
  rw [if_neg (by simp [hkwk, hcheck]), if_neg (by simp [hempty])]
  rfl

end

/-- RESULT is set and BUSY stays clear as the LOAD ends. -/
theorem Dev.keyLoaded_step (d : Dev) (c : Crypt) {r : Nat} (hr : r < 8) : (d.keyLoaded.keyStep c 32 3 r).fldR A.keyCmd 35 1 = 0 ∧
    d.regsBut (d.keyLoaded.keyStep c 32 3 r) [A.keyCmd] ∧ (d.keyLoaded.keyStep c 32 3 r).fldR A.keyCmd 32 3 = r := by
  refine ⟨?_, Dev.regsBut.trans (Dev.keyStep_regsBut _ _ _ _ _) (Dev.keyStep_regsBut _ _ _ _ _), ?_⟩
  · rw [Dev.keyStep_other _ _ _ _ _ (by decide) (by decide) (by decide)]
    exact Dev.keyStep_same _ _ _ _ _ (by decide) (by decide)
  · rw [Dev.keyStep_same _ _ _ _ _ (by decide) (by decide)]
    exact Nat.mod_eq_of_lt hr

theorem keyLoadDone_judges (s : State) (k : BitVec 5) (hlive : s.dev.live = true) (hbusy : s.dev.crypt.busy = some k) :
    ∃ d : Dev, exec .keyLoadDone s = .next { s with dev := d } ∧ d.crypt.busy = none ∧ d.fldR A.keyCmd 35 1 = 0 ∧
      s.dev.regsBut d [A.keyCmd] ∧
      (¬ s.keyChecks k → d.fldR A.keyCmd 32 3 = 2 ∧ d.crypt.slots = s.dev.crypt.slots) ∧
      (s.keyChecks k → (s.dev.crypt.slots[k.toNat]?.join).isSome = true → d.fldR A.keyCmd 32 3 = 3 ∧ d.crypt.slots = s.dev.crypt.slots) ∧
      (s.keyChecks k → s.dev.crypt.slots[k.toNat]?.join = none → d.fldR A.keyCmd 32 3 = 1 ∧
        ∀ i : Fin 32, d.crypt.slots[i] = if i.val = k.toNat then some s.keyUnwrapped else s.dev.crypt.slots[i]) := by
  by_cases hgood : s.keyChecks k
  · cases hslot : s.dev.crypt.slots[k.toNat]?.join with
    | some key =>
      obtain ⟨hb, hregs, hres⟩ := s.dev.keyLoaded_step s.dev.crypt.idle (r := 3) (by decide)
      exact ⟨_, exec_keyLoadDone_filled hlive hbusy hgood (by rw [hslot]; rfl), rfl, hb, hregs, fun h => absurd hgood h,
        fun _ _ => ⟨hres, rfl⟩, fun _ h => absurd h (by simp)⟩
    | none =>
      obtain ⟨hb, hregs, hres⟩ := s.dev.keyLoaded_step (s.dev.crypt.idle.fill k.toNat (some s.keyUnwrapped)) (r := 1) (by decide)
      exact ⟨_, exec_keyLoadDone_taken hlive hbusy hgood hslot, rfl, hb, hregs, fun h => absurd hgood h,
        fun _ h => absurd h (by simp), fun _ _ => ⟨hres, s.dev.crypt.idle.fill_slot _ _⟩⟩
  · obtain ⟨hb, hregs, hres⟩ := s.dev.keyLoaded_step s.dev.crypt.idle (r := 2) (by decide)
    exact ⟨_, exec_keyLoadDone_unchecked hlive hbusy hgood, rfl, hb, hregs, fun _ => ⟨hres, rfl⟩, fun h => absurd h hgood,
      fun h => absurd h hgood⟩

/-! ### The start of a rotation (R231) -/

theorem rotStartRegs_apart : ∀ r : Fin 64, A.rotCmd ≠ A.rot r.val ∧ A.rotCmd ≠ A.nextEpoch r.val := by decide

section
variable (d : Dev) (v : Word)

/-- ROT_CMD holds the region and the epoch that the write `v` names. -/
def Dev.rotNamed : Dev := (d.setFld A.rotCmd 40 6 (fld v 40 6)).setFld A.rotCmd 0 32 (fld v 0 32)

/-- Region and epoch may start: an encrypted region that does not rotate, and not its own epoch (R231). -/
def Dev.rotFree (r : Nat) : Prop := regionUsed d.cfg r = true ∧ regionEnc d.cfg r = true ∧ d.rotating r = false ∧
  fld v 0 32 ≠ d.fldR (A.epoch r) 0 32

/-- The registers of region `r` as its rotation starts: at the first unit, under the epoch of `v` (R231). -/
def Dev.rotBegun (r : Nat) : Dev :=
  (((d.rotNamed v).setFld A.rotCmd 46 1 0).setReg (A.rot r) (ones 47 47)).setReg (A.nextEpoch r) (BitVec.ofNat 48 (fld v 0 32))

theorem rotFld_putBit (lo len : Nat) (h : lo + len ≤ 47) : fld (putBit v 47 true) lo len = fld v lo len :=
  fld_putBit_other _ _ (.inr h)

theorem Dev.rotNamed_regsBut : d.regsBut (d.rotNamed v) [A.rotCmd] :=
  (d.setFld_regsBut _ _ _ _).trans (Dev.setFld_regsBut _ _ _ _ _)

theorem Dev.rotWrite_free (h : d.rotFree v (fld v 40 6)) :
    d.rotWrite (putBit v 47 true) = (d.rotBegun v (fld v 40 6)).eventWhere 3 (fun _ _ => true) := by
  obtain ⟨hused, henc, hrot, hepoch⟩ := h
  simp [Dev.rotWrite, rotFld_putBit, bit_putBit_same, hused, henc, hrot, hepoch, Dev.rotBegun, Dev.rotNamed]

theorem Dev.rotWrite_rejected (h : ¬ d.rotFree v (fld v 40 6)) :
    d.rotWrite (putBit v 47 true) = (d.rotNamed v).setFld A.rotCmd 46 1 1 := by
  have hor : (((!regionUsed d.cfg (fld v 40 6) || !regionEnc d.cfg (fld v 40 6)) || d.rotating (fld v 40 6)) ||
      decide (fld v 0 32 = d.fldR (A.epoch (fld v 40 6)) 0 32)) = true := by
    by_contra hnot
    simp only [Bool.or_eq_true, Bool.not_eq_true', decide_eq_true_eq, not_or, Bool.not_eq_false, Bool.not_eq_true] at hnot
    exact h ⟨hnot.1.1.1, hnot.1.1.2, hnot.1.2, hnot.2⟩
  simp only [Dev.rotWrite, rotFld_putBit, bit_putBit_same, Nat.reduceAdd, Nat.reduceLeDiff, Nat.reduceLT, Bool.not_true,
    Bool.false_eq_true, if_false]
  rw [if_pos hor]
  rfl

variable (r : Fin 64)

theorem Dev.rotBegun_engs : (d.rotBegun v r.val).engs = d.engs := rfl

theorem Dev.rotBegun_regs : (d.rotBegun v r.val).fldR A.rotCmd 46 1 = 0 ∧ (d.rotBegun v r.val).reg (A.rot r.val) = ones 47 47 ∧
    (d.rotBegun v r.val).reg (A.nextEpoch r.val) = BitVec.ofNat 48 (fld v 0 32) ∧
    d.regsBut (d.rotBegun v r.val) [A.rotCmd, A.rot r.val, A.nextEpoch r.val] := by
  obtain ⟨hcmd, hcmd'⟩ := rotStartRegs_apart r
  obtain ⟨⟨-, -, hapart⟩, -, -⟩ := rotRegs_apart r
  refine ⟨?_, ?_, ?_, fun a ha => ?_⟩
  · rw [Dev.rotBegun, Dev.fldR, Dev.reg_setReg, if_neg hcmd', Dev.reg_setReg, if_neg hcmd]
    exact Dev.fldR_setFld_same _ _ _ _ _ (by decide) (by decide)
  · rw [Dev.rotBegun, Dev.reg_setReg, if_neg (Ne.symm hapart), Dev.reg_setReg, if_pos rfl]
  · rw [Dev.rotBegun, Dev.reg_setReg, if_pos rfl]
  · simp only [List.mem_cons, List.not_mem_nil, or_false, not_or] at ha
    obtain ⟨h1, h2, h3⟩ := ha
    rw [Dev.rotBegun, Dev.reg_setReg, if_neg h3, Dev.reg_setReg, if_neg h2, Dev.reg_setFld, if_neg h1]
    exact d.rotNamed_regsBut v a (by simpa using h1)

end

theorem rotationStart_starts (s : State) (m : Master) (v : Word) (hlive : s.dev.live = true) :
    ∃ d : Dev, exec (.rotationStart m v) s = .next { s with dev := d } ∧
      (s.dev.rotFree v (fld v 40 6) → d.fldR A.rotCmd 46 1 = 0 ∧ d.rotating (fld v 40 6) = true ∧ d.rotPtr (fld v 40 6) = 0 ∧
        d.fldR (A.nextEpoch (fld v 40 6)) 0 32 = fld v 0 32 ∧
        s.dev.regsBut d [A.rotCmd, A.rot (fld v 40 6), A.nextEpoch (fld v 40 6)] ∧
        ∀ e : Fin 72, if (s.dev.engs[e]).run ≠ .off ∧ (s.dev.engs[e]).run ≠ .fenced then
          (s.dev.engs[e]).getsEvent d.engs[e] 3 else d.engs[e] = s.dev.engs[e]) ∧
      (¬ s.dev.rotFree v (fld v 40 6) → d.fldR A.rotCmd 46 1 = 1 ∧ d = { s.dev with rf := d.rf } ∧ s.dev.regsBut d [A.rotCmd]) := by
  refine ⟨s.dev.rotWrite (putBit v 47 true), devNext_of_live _ hlive, fun hfree => ?_, fun hnot => ?_⟩
  · obtain ⟨hcmd, hrot, hnext, hregs⟩ := s.dev.rotBegun_regs v ⟨fld v 40 6, fld_lt v 40 6⟩
    rw [s.dev.rotWrite_free v hfree]
    have hepoch : fld (BitVec.ofNat 48 (fld v 0 32)) 0 32 = fld v 0 32 := by
      simp [fld]
    have hon : bit (ones 47 47) 47 = true := by decide
    have hptr : fld (ones 47 47) 0 42 = 0 := by decide
    have hengs := s.dev.rotBegun_engs v ⟨fld v 40 6, fld_lt v 40 6⟩
    have hreg := Dev.eventWhere_reg (s.dev.rotBegun v (fld v 40 6)) 3 (fun _ _ => true)
    refine ⟨?_, ?_, ?_, ?_, fun a ha => (hreg a).trans (hregs a ha), Dev.eventWhere_all hengs 3⟩
    · rw [Dev.fldR, hreg]
      exact hcmd
    · rw [Dev.rotating, hreg, hrot]
      exact hon
    · rw [Dev.rotPtr, Dev.fldR, hreg, hrot]
      exact hptr
    · rw [Dev.fldR, hreg, hnext]
      exact hepoch
  · rw [s.dev.rotWrite_rejected v hnot]
    exact ⟨Dev.fldR_setFld_same _ _ _ _ _ (by decide) (by decide), rfl,
      (s.dev.rotNamed_regsBut v).trans (Dev.setFld_regsBut _ _ _ _ _)⟩

/-- Settles O40, from the two commands of the key slots, the judgement of a wrapped key, and the two ends of a start. -/
theorem keysAndRotation : Obligations.KeysAndRotation :=
  ⟨keyLoad_isBusy, keyLoadDone_judges, keyClear_empties, rotationStart_starts⟩

end Sys2Proof.Machine
end

section
/-! SUPPORT. One access of the capacity tier by itself: rounds with nothing else held, the page map cache (R235), and what the answer
of an access leaves alone (R243, R244). -/

namespace Sys2Proof.Machine

/-! ### Rounds with one tier access (R241) -/

theorem Dev.jobsEnd_of_none {d : Dev} (h : d.jobs = []) : d.jobsEnd = d := by
  rw [Dev.jobsEnd, h]
  rfl

section
variable {d : Dev} {o : TierOp} (hops : d.tier.ops = [o])
include hops

theorem Dev.tierAdvance_only : d.tierAdvance = d.tierStep [] o := by
  simp [Dev.tierAdvance, hops, Dev.tierRun]

/-- The access is the one that a search finds. -/
theorem Dev.findOp_only {c : TierOp → Bool} (h : c o = true) : d.tier.ops.find? c = some o := by
  rw [hops, List.find?_cons_of_pos h]

theorem Dev.setTierOp_only (p : TierOp) : (d.setTierOp o (some p)).tier.ops = [p] := by
  simp [Dev.setTierOp, hops]

theorem Dev.setTierOp_gone : (d.setTierOp o none).tier.ops = [] := by
  simp [Dev.setTierOp, hops]

variable (hheld : d.txn.held = []) (hjobs : d.jobs = [])
include hheld hjobs

/-- With nothing held, a round is a step of the one access. -/
theorem Dev.settleN_only (n : Nat) : Dev.settleN (n + 1) d = Dev.settleN n (d.tierStep [] o) := by
  rw [Dev.settleN, hheld, Dev.admitList, Dev.jobsEnd_of_none hjobs, Dev.tierAdvance_only hops]

theorem Dev.enterQueues_of_waiting (h : d.tierStep [] o = d) : d.enterQueues = d := by
  have hall : ∀ n, Dev.settleN n d = d := by
    intro n
    induction n with
    | zero => rfl
    | succ n ih => rw [Dev.settleN_only hops hheld hjobs, h, ih]
  exact hall 4

theorem Dev.calm_setTierOp_none : (d.setTierOp o none).calm := ⟨hheld, Dev.setTierOp_gone hops, hjobs⟩

end

/-! ### The page map cache (R235) -/

/-- The cache holds `x` for page `idx`. -/
def Dev.withEnt (d : Dev) (idx : BitVec 32) (x : PmcEnt) : Dev := d.modTier (fun t => { t with pmc := kvSet t.pmc idx.toNat x })

section
variable {d : Dev} {idx : BitVec 32}

theorem Dev.withEnt_pmcGet (x : PmcEnt) : (d.withEnt idx x).pmcGet idx = some x.e := by
  simp [Dev.withEnt, Dev.pmcGet]

@[simp] theorem Dev.withEnt_jobs (x : PmcEnt) : (d.withEnt idx x).jobs = d.jobs := rfl
@[simp] theorem Dev.withEnt_txn (x : PmcEnt) : (d.withEnt idx x).txn = d.txn := rfl

theorem Dev.pmcGet_of_pmc {x y : Dev} (h : y.tier.pmc = x.tier.pmc) (i : BitVec 32) : y.pmcGet i = x.pmcGet i := by
  rw [Dev.pmcGet, Dev.pmcGet, h]

/-- An entry in the cache is changed in its place. -/
theorem Dev.pmcWrite_of_some (h : (d.pmcGet idx).isSome = true) (e : BitVec 128) :
    d.pmcWrite idx e = d.withEnt idx { e := e, dirty := true } := by
  rw [Dev.pmcGet, Option.isSome_map, Option.isSome_iff_exists] at h
  obtain ⟨_, hx⟩ := h
  simp only [Dev.pmcWrite, Dev.pmcPut, hx]
  rfl

/-- A set with a free way takes the entry (R235). -/
theorem Dev.pmcPut_of_room (hnone : d.pmcGet idx = none)
    (hroom : (d.tier.pmc.filter (fun x => x.1 % 8192 = idx.toNat % 8192)).length < 8) (x : PmcEnt) :
    d.pmcPut idx x = d.withEnt idx x := by
  rw [Dev.pmcGet, Option.map_eq_none_iff] at hnone
  simp only [Dev.pmcPut, hnone]
  rw [if_pos hroom]
  rfl

end

/-! ### Answers -/

/-- From `x` to `y` accesses have been answered: no other is held, no step has begun, and the tier has its accesses and its cache. -/
structure Dev.answers (x y : Dev) : Prop where
  held : y.txn.held = x.txn.held
  jobs : y.jobs = x.jobs
  pmc : y.tier.pmc = x.tier.pmc
  ids : y.tier.ops.map TierOp.id = x.tier.ops.map TierOp.id

section
variable (d : Dev)

theorem Dev.answers_refl : d.answers d := ⟨rfl, rfl, rfl, rfl⟩

theorem Dev.answers_ite {x y z : Dev} {p : Prop} [Decidable p] (hy : x.answers y) (hz : x.answers z) :
    x.answers (if p then y else z) := by
  split
  · exact hy
  · exact hz

theorem Dev.rxDrop_eq (h : Held) : ∃ rx, d.rxDrop h = d.modTxn (fun x => { x with rx := rx }) := by
  unfold Dev.rxDrop
  split <;> exact ⟨_, rfl⟩

@[simp] theorem Dev.noteLatency_tier (n : BitVec 4) (lat : Nat) : (d.noteLatency n lat).tier = d.tier := by
  obtain ⟨⟨_, _, _, he⟩, -⟩ := d.noteLatency_measures n lat
  rw [he]

@[simp] theorem Dev.markExec_tier (vc : Vc) (tag : BitVec 12) : (d.markExec vc tag).tier = d.tier := by
  unfold Dev.markExec
  extract_lets d1
  show d1.tier = d.tier
  unfold d1
  split <;> rfl

@[simp] theorem Dev.respondWith_tier (exec : Bool) (vc : Vc) (tag : BitVec 12) (late : Bool) (mk : Nat → List Slot) :
    (d.respondWith exec vc tag late mk).tier = d.tier := by
  unfold Dev.respondWith
  extract_lets sel any isIt
  split
  · extract_lets d1 d2
    have h1 : d1.tier = d.tier := by
      unfold d1
      split
      · rfl
      · exact d.markExec_tier vc tag
    split
    · exact h1
    · exact h1
  · split <;> rfl

variable {d}

theorem Dev.completes.answers {y : Dev} (h : d.completes y) (htier : y.tier = d.tier) : d.answers y :=
  ⟨h.cycle.held, h.cycle.jobs, by rw [htier], by rw [htier]⟩

/-- A completion, with no step under way (R108). -/
theorem Dev.complete_answers (hjobs : d.jobs = []) (c : Acc × Option (BitVec 64)) (st : Status) : d.answers (d.complete c st) := by
  by_cases hjob : ∀ id k, c.1.who ≠ .job id k
  · have hcomp := d.complete_completes c st hjob
    cases hwho : c.1.who with
    | tier id _ =>
      rw [show d.complete c st = d.tierLoaded id by simp only [Dev.complete, hwho]]
      exact ⟨rfl, rfl, rfl, by simp [Dev.tierLoaded, Function.comp_def, apply_ite TierOp.id]⟩
    | job id k => exact absurd hwho (hjob id k)
    | init =>
      rw [show d.complete c st = d.modTier (fun t => { t with initLeft := t.initLeft - 1 }) by simp only [Dev.complete, hwho]]
      exact ⟨rfl, rfl, rfl, rfl⟩
    | _ => exact hcomp.answers (by simp [Dev.complete, hwho, Dev.respond, Dev.engDone, Dev.atomDone])
  · push Not at hjob
    obtain ⟨id, k, hwho⟩ := hjob
    have hdrop : d.complete c st = d := by simp [Dev.complete, hwho, Dev.jobDrop, hjobs]
    rw [hdrop]
    exact d.answers_refl

end

end Sys2Proof.Machine
end

section
/-! SUPPORT. The block's own accesses as they wait and as their ports take them (R130, R163, R243). -/

namespace Sys2Proof.Machine

/-! ### What an access wakes (R162, R163) -/

/-- The registers that the arrival of an access bears on. -/
def arriveRegs : List Nat := [A.sr 0, A.sr 1, A.sr 2, A.sr 3, A.refusals, A.pwrStatus, A.sillLost]

/-- From `x` to `y` the tier, the steps, what is held and the reads queued are as they were, and the registers apart from those that
an arrival bears on. -/
structure Dev.spares (x y : Dev) : Prop where
  tier : y.tier = x.tier
  jobs : y.jobs = x.jobs
  held : y.txn.held = x.txn.held
  rdq : ∀ p : Fin 4, (y.ports[p]).rdq = (x.ports[p]).rdq
  regs : x.regsBut y arriveRegs

section
variable {x y z : Dev}

theorem Dev.spares.trans (h : x.spares y) (k : y.spares z) : x.spares z :=
  ⟨k.tier.trans h.tier, k.jobs.trans h.jobs, k.held.trans h.held, fun p => (k.rdq p).trans (h.rdq p), h.regs.trans k.regs⟩

theorem Dev.spares_ite {p : Prop} [Decidable p] (hy : x.spares y) (hz : x.spares z) : x.spares (if p then y else z) := by
  split
  · exact hy
  · exact hz

variable (d : Dev)

theorem Dev.spares_refl : d.spares d := ⟨rfl, rfl, rfl, fun _ => rfl, fun _ _ => rfl⟩

theorem Dev.spares_setFld {a : Nat} (ha : a ∈ arriveRegs) (lo len v : Nat) : d.spares (d.setFld a lo len v) :=
  ⟨rfl, rfl, rfl, fun _ => rfl, (d.setFld_regsBut a lo len v).mono (List.cons_subset.mpr ⟨ha, List.nil_subset _⟩)⟩

theorem Dev.spares_ports {ports : Vector Port 4} (h : ∀ p : Fin 4, (ports[p]).rdq = (d.ports[p]).rdq) :
    d.spares { d with ports := ports } :=
  ⟨rfl, rfl, rfl, h, fun _ _ => rfl⟩

theorem Dev.spares_modPort (p : Fin 4) {f : Port → Port} (h : (f d.ports[p]).rdq = (d.ports[p]).rdq) :
    d.spares (d.modPort p f) := by
  refine d.spares_ports fun q => ?_
  show ((d.modPort p f).ports[q]).rdq = _
  rw [Dev.modPort_ports]
  split
  next hq => rw [hq, h]
  next => rfl

theorem Dev.spares_tiles (tiles : Vector Tile 16) : d.spares { d with tiles := tiles } :=
  ⟨rfl, rfl, rfl, fun _ => rfl, fun _ _ => rfl⟩

theorem Dev.spares_pwr (pwr : Pwr) : d.spares { d with pwr := pwr } := ⟨rfl, rfl, rfl, fun _ => rfl, fun _ _ => rfl⟩

theorem Dev.spares_sillPush (ty : Nat) (coord : BitVec 16) (i : Nat) (data : Word) : d.spares (d.sillPush ty coord i data) := by
  have hregs := (d.sillPush_regsBut ty coord i data).mono (l' := arriveRegs) (by decide)
  obtain ⟨_, _, he, -⟩ := d.sillPush_eq ty coord i data
  rw [he] at hregs ⊢
  exact ⟨rfl, rfl, rfl, fun _ => rfl, hregs⟩

theorem Dev.spares_resumePorts : d.spares d.resumePorts := by
  refine d.spares_ports fun p => ?_
  simp only [Fin.getElem_fin, Vector.getElem_map]
  split <;> rfl

theorem Dev.spares_refuseEntry (b : Nat) : d.spares (d.refuseEntry b) := by
  unfold Dev.refuseEntry
  refine Dev.spares_ite d.spares_refl ?_
  refine Dev.spares.trans ?_ (Dev.spares_sillPush _ _ _ _ _)
  refine Dev.spares.trans ?_ (Dev.spares_pwr _ _)
  refine Dev.spares.trans ?_ (Dev.spares_setFld _ (by decide) _ _ _)
  refine Dev.spares.trans ?_ (Dev.spares_setFld _ (by decide) _ _ _)
  refine Dev.spares.trans ?_ (Dev.spares_setFld _ (by decide) _ _ _)
  exact d.spares_resumePorts.trans (Dev.spares_setFld _ (by decide) _ _ _)

theorem sr_mem_arriveRegs : ∀ p : Fin 4, A.sr p.val ∈ arriveRegs := by decide

/-- An access wakes its port, or ends the drain before self-refresh. -/
theorem Dev.spares_arrive (p : Fin 4) : d.spares (d.arrive p) := by
  unfold Dev.arrive
  split
  · extract_lets power d1 d2
    have hdrain : d.spares d2 := by
      refine Dev.spares.trans ?_ (Dev.spares_tiles _ _)
      exact (d.spares_modPort p rfl).trans (Dev.spares_setFld _ (sr_mem_arriveRegs p) _ _ _)
    exact Dev.spares_ite (hdrain.trans (d2.spares_refuseEntry 3)) (hdrain.trans (d2.spares_modPort p rfl))
  · exact d.spares_refl
  · exact Dev.spares_ite d.spares_refl (d.spares_modPort p rfl)

theorem Dev.spares_rtBegin (p : Fin 4) (n : BitVec 4) : d.spares (d.rtBegin p n) := by
  have hrdq := (Dev.rtBegin_tells (e := 0) d p n).rdq
  obtain ⟨_, _, he⟩ := d.rtBegin_eq p n
  rw [he] at hrdq ⊢
  exact ⟨rfl, rfl, rfl, hrdq, fun _ _ => rfl⟩

theorem Dev.drains.spares {p : Fin 4} (h : Dev.drains p x y) : x.spares y := by
  obtain ⟨_, _, rfl⟩ := h
  exact x.spares_modPort p rfl

end

/-! ### The list of what is held -/

theorem mem_of_dropFirst {α : Type} {c : α → Bool} {k : α} : ∀ {l : List α}, k ∈ dropFirst c l → k ∈ l
  | [], h => h
  | x :: r, h => by
    rw [dropFirst] at h
    split at h
    · exact List.mem_cons_of_mem _ h
    · obtain rfl | hr := List.mem_cons.mp h
      · exact List.mem_cons_self
      · exact List.mem_cons_of_mem _ (mem_of_dropFirst hr)

theorem mem_of_modFirst {α : Type} {c : α → Bool} {f : α → α} {k : α} :
    ∀ {l : List α}, k ∈ modFirst c f l → k ∈ l ∨ ∃ x ∈ l, k = f x
  | [], h => .inl h
  | x :: r, h => by
    rw [modFirst] at h
    split at h
    · obtain rfl | hr := List.mem_cons.mp h
      · exact .inr ⟨x, List.mem_cons_self, rfl⟩
      · exact .inl (List.mem_cons_of_mem _ hr)
    · obtain rfl | hr := List.mem_cons.mp h
      · exact .inl List.mem_cons_self
      · obtain hr | ⟨y, hy, hk⟩ := mem_of_modFirst hr
        · exact .inl (List.mem_cons_of_mem _ hr)
        · exact .inr ⟨y, List.mem_cons_of_mem _ hy, hk⟩

theorem mem_of_insertHeld {h k : Held} : ∀ {l : List Held}, k ∈ insertHeld h l → k = h ∨ k ∈ l
  | [], hk => .inl (List.mem_singleton.mp hk)
  | x :: r, hk => by
    rw [insertHeld] at hk
    split at hk
    · exact List.mem_cons.mp hk
    · obtain rfl | hr := List.mem_cons.mp hk
      · exact .inr List.mem_cons_self
      · exact (mem_of_insertHeld hr).imp_right (List.mem_cons_of_mem _)

/-! ### Rounds in which only the block's own accesses wait -/

/-- An access of the block's own work, as it is held: accepted, to a known location, and no message. -/
structure Held.ofBlock (h : Held) : Prop where
  vc : h.vc = .q
  decided : h.decided = none
  accepted : h.accepted = true
  msg : h.msg = false
  inner : h.isInner = true
  op : h.op ≠ .flush
  fixed : h.fixed.isSome = true

/-- It stays one as it is taken from the buffer. -/
theorem Held.ofBlock.take {h : Held} (hown : h.ofBlock) : Held.ofBlock { h with taken := true } :=
  ⟨hown.vc, hown.decided, hown.accepted, hown.msg, hown.inner, hown.op, hown.fixed⟩

/-- All that is held is of kind `A`, and the device is as `Q` says. -/
def Dev.holdsOnly (A : Held → Prop) (Q : Dev → Prop) (d : Dev) : Prop := (∀ h ∈ d.txn.held, A h) ∧ Q d

/-- `Q` stands while accesses of kind `A` wait and are taken, and no step is under way. -/
structure Dev.standsWhile (A : Held → Prop) (Q : Dev → Prop) : Prop where
  own : ∀ h, A h → h.ofBlock
  wait : ∀ h, A h → A { h with taken := true }
  idle : ∀ d, Q d → d.jobs = []
  txn : ∀ d f, Q d → Q (d.modTxn f)
  spared : ∀ x y : Dev, x.spares y → Q x → Q y
  refuse : ∀ d h, A h → Q d → Q (d.refuseHeld h .poison) ∧ (d.refuseHeld h .poison).txn.held = d.txn.held
  enter : ∀ d h p loc d1, A h → Q d → d.admitOne h p loc = some d1 → Q d1 ∧ d1.txn.held = d.txn.held

section
variable {A : Held → Prop} {Q : Dev → Prop} (hQ : Dev.standsWhile A Q) {d : Dev} {h : Held}
include hQ

theorem Dev.standsWhile.unhold (hA : A h) (hd : d.holdsOnly A Q) : (d.unhold h).holdsOnly A Q := by
  have hmsg := (hQ.own h hA).msg
  have heq : d.unhold h = d.modTxn (fun x => { x with held := dropFirst (· = h) x.held }) := by
    simp [Dev.unhold, Dev.rxDrop, hmsg]
  rw [heq]
  exact ⟨fun k hk => hd.1 k (mem_of_dropFirst hk), hQ.txn _ _ hd.2⟩

/-- An access taken from the buffer behind a lock (R105). -/
theorem Dev.standsWhile.take (hA : A h) (hd : d.holdsOnly A Q) : Dev.holdsOnly A Q
    ((d.modTxn (fun x => { x with held := modFirst (· = h) (fun y => { y with taken := true }) x.held })).rxDrop h) := by
  have hmsg := (hQ.own h hA).msg
  have heq (x : Dev) : x.rxDrop h = x := by simp [Dev.rxDrop, hmsg]
  rw [heq]
  refine ⟨fun k hk => ?_, hQ.txn _ _ hd.2⟩
  obtain hk | ⟨x, hx, rfl⟩ := mem_of_modFirst hk
  · exact hd.1 k hk
  · exact hQ.wait x (hd.1 x hx)

theorem Dev.standsWhile.spares {x y : Dev} (hxy : x.spares y) (hx : x.holdsOnly A Q) : y.holdsOnly A Q := by
  refine ⟨?_, hQ.spared x y hxy hx.2⟩
  rw [hxy.held]
  exact hx.1

theorem Dev.standsWhile.hold (hA : A h) (hd : d.holdsOnly A Q) : (d.hold h).holdsOnly A Q := by
  refine ⟨fun k hk => ?_, hQ.txn _ _ hd.2⟩
  obtain rfl | hk := mem_of_insertHeld hk
  · exact hA
  · exact hd.1 k hk

theorem Dev.standsWhile.admitList : ∀ (l : List Held) (wait : List (Held × Option Loc)) (locked : List Loc) (d : Dev),
    (∀ h ∈ l, A h) → d.holdsOnly A Q → (Dev.admitList l wait locked d).holdsOnly A Q
  | [], _, _, _, _, hd => hd
  | h :: r, wait, locked, d, hl, hd => by
    have hA := hl h List.mem_cons_self
    have hr : ∀ k ∈ r, A k := fun k hk => hl k (List.mem_cons_of_mem _ hk)
    have hown := hQ.own h hA
    have hgo := fun w lk x (hx : Dev.holdsOnly A Q x) => Dev.standsWhile.admitList r w lk x hr hx
    obtain ⟨loc, hloc⟩ : ∃ loc, d.heldLoc h = some loc := by
      obtain ⟨x, hx⟩ := Option.isSome_iff_exists.mp hown.fixed
      exact ⟨x.1, by simp [Dev.heldLoc, hown.op, hx]⟩
    rw [Dev.admitList]
    rw [if_neg (by simp [hown.vc, hown.decided]), if_neg (by simp [hown.accepted])]
    simp only [hloc]
    split
    · obtain ⟨hheld, hq⟩ := hQ.unhold hA hd
      obtain ⟨hq', hheld'⟩ := hQ.refuse _ h hA hq
      exact hgo _ _ _ ⟨by rw [hheld']; exact hheld, hq'⟩
    split
    · exact hgo _ _ _ hd
    split
    · split
      · exact hgo _ _ _ hd
      split
      · exact hgo _ _ _ (hQ.take hA hd)
      · exact hgo _ _ _ hd
    split
    next d1 hadm =>
      obtain ⟨hheld, hq⟩ := hQ.unhold hA hd
      obtain ⟨hq', hheld'⟩ := hQ.enter _ h _ _ d1 hA hq hadm
      refine hgo _ _ _ (hQ.spares (Dev.spares_rtBegin _ _ _) ⟨?_, hq'⟩)
      rw [hheld']
      exact hheld
    · split
      · exact hgo _ _ _ hd
      · exact hgo _ _ _ hd

/-- What stands while the accesses are taken, and in the tier's own step, stands after the rounds (R241). -/
theorem Dev.standsWhile.settleN (hadv : ∀ x : Dev, x.holdsOnly A Q → x.tierAdvance.holdsOnly A Q) :
    ∀ (n : Nat) (d : Dev), d.holdsOnly A Q → (Dev.settleN n d).holdsOnly A Q
  | 0, _, hd => hd
  | n + 1, d, hd => by
    have hlist := hQ.admitList d.txn.held [] [] d hd.1 hd
    rw [Dev.settleN, Dev.jobsEnd_of_none (hQ.idle _ hlist.2)]
    exact Dev.standsWhile.settleN hadv n _ (hadv _ hlist)

theorem Dev.standsWhile.enterQueues (hadv : ∀ x : Dev, x.holdsOnly A Q → x.tierAdvance.holdsOnly A Q) (hd : d.holdsOnly A Q) :
    d.enterQueues.holdsOnly A Q :=
  hQ.settleN hadv 4 d hd

end

end Sys2Proof.Machine
end

section
/-! PROOF. O41: the entry's switch, the granules freed, the end of the initial fill, and a read of a page never written (R235, R239,
R240, R243, R244). -/

namespace Sys2Proof.Machine

/-! ### The entry changes (R244) -/

theorem tierEntrySwitch_changes (s : State) (o : TierOp) (hlive : s.dev.live = true) (hheld : s.dev.txn.held = [])
    (hjobs : s.dev.jobs = []) (hops : s.dev.tier.ops = [o]) (hphase : o.phase = .writing) (hmove : o.move = none)
    (hleft : o.wleft = 0) (hcopies : o.copies = 0) (hold : entState o.oldEntry ≠ 2) (hent : (s.dev.pmcGet o.idx).isSome = true) :
    ∃ d : Dev, exec (.tierEntrySwitch o.idx) s = .next { s with dev := d } ∧ d.tier.ops = [] ∧
      d.pmcGet o.idx = some (entTouch (s.dev.entNow o.idx o.newEntry)) := by
  let x := s.dev.withEnt o.idx { e := entTouch (s.dev.entNow o.idx o.newEntry), dirty := true }
  obtain ⟨y, hans, hswitch⟩ : ∃ y : Dev, x.answers y ∧
      s.dev.tierSwitch o.idx = (y.writeEnd o.h.rid false).setTierOp o none := by
    have hfind := Dev.findOp_only hops
      (c := fun p => p.idx = o.idx && p.phase = .writing && p.move.isNone && p.wleft = 0 && p.copies = 0)
      (by simp [hphase, hmove, hleft, hcopies])
    unfold Dev.tierSwitch
    simp only [hfind, Dev.pmcWrite_of_some hent]
    rw [if_neg (by simp [hold])]
    refine ⟨_, ?_, rfl⟩
    exact Dev.answers_ite (Dev.complete_answers (d := x) hjobs _ _) x.answers_refl
  obtain ⟨p, hp, hid⟩ : ∃ p, y.tier.ops = [p] ∧ p.id = o.id := by
    have hids : y.tier.ops.map TierOp.id = [o.id] := hans.ids.trans (congrArg _ hops)
    exact List.map_eq_singleton_iff.mp hids
  have hgone : ((y.writeEnd o.h.rid false).setTierOp o none).tier.ops = [] := by
    simp [Dev.setTierOp, Dev.writeEnd, hp, hid]
  have hcalm : ((y.writeEnd o.h.rid false).setTierOp o none).calm := ⟨hans.held.trans hheld, hgone, hans.jobs.trans hjobs⟩
  refine ⟨_, (congrArg (devNext s) ?_).trans (devNext_of_live _ hlive), hgone, ?_⟩
  · rw [hswitch, Dev.enterQueues_of_calm hcalm]
  · exact (Dev.pmcGet_of_pmc hans.pmc o.idx).trans (Dev.withEnt_pmcGet _)

/-! ### The granules left are free again (R239) -/

theorem Tier.freeRun_tier {t : Tier} {b : Nat} {used : BitVec 8} (h : kvGet t.pool b = some (.tier used)) (i g : Nat) :
    (used &&& ~~~ runBits i g = 0 → kvGet (t.freeRun b i g).pool b = none ∧ (t.freeRun b i g).free = t.free + 1) ∧
    (used &&& ~~~ runBits i g ≠ 0 →
      kvGet (t.freeRun b i g).pool b = some (.tier (used &&& ~~~ runBits i g)) ∧ (t.freeRun b i g).free = t.free) := by
  simp only [Tier.freeRun, h]
  split
  next hleft => exact ⟨fun _ => ⟨kvGet_kvDel_same _ _, rfl⟩, fun hne => absurd hleft hne⟩
  next hleft => exact ⟨fun heq => absurd heq hleft, fun _ => ⟨kvGet_kvSet_same _ _ _, rfl⟩⟩

theorem Tier.freeRun_ops (t : Tier) (b i g : Nat) : (t.freeRun b i g).ops = t.ops := by
  unfold Tier.freeRun
  split
  · extract_lets used'
    split <;> rfl
  · rfl

theorem granuleFree_frees (s : State) (o : TierOp) (used : BitVec 8) (hlive : s.dev.live = true) (hheld : s.dev.txn.held = [])
    (hjobs : s.dev.jobs = []) (hops : s.dev.tier.ops = [o]) (hphase : o.phase = .switched) (hreaders : o.readers = [])
    (hold : entState o.oldEntry = 2) (hgran : entGranules o.oldEntry ≠ 0) :
    let b := (s.dev.poolPlace (entPtr o.oldEntry)).1
    let left := used &&& ~~~ runBits (s.dev.poolPlace (entPtr o.oldEntry)).2 (entGranules o.oldEntry)
    kvGet s.dev.tier.pool b = some (.tier used) →
    ∃ d : Dev, exec (.granuleFree o.idx) s = .next { s with dev := d } ∧ d.tier.ops = [] ∧
      (left = 0 → kvGet d.tier.pool b = none ∧ d.tier.free = s.dev.tier.free + 1) ∧
      (left ≠ 0 → kvGet d.tier.pool b = some (.tier left) ∧ d.tier.free = s.dev.tier.free) := by
  intro b left hpool
  let y := (s.dev.setTierOp o none).modTier (fun t =>
    t.freeRun b (s.dev.poolPlace (entPtr o.oldEntry)).2 (entGranules o.oldEntry))
  have hfree : s.dev.tierFree o.idx = y := by
    have hfind := Dev.findOp_only hops (c := fun p => p.idx = o.idx && p.phase = .switched &&
      !(s.dev.tier.ops.any (fun x => p.readers.contains x.id))) (by simp [hphase, hreaders])
    unfold Dev.tierFree
    simp only [hfind, Dev.freeOld, Dev.freeExtent, hold]
    rw [if_neg (by simp), if_pos trivial, if_neg hgran]
    rfl
  have hgone : y.tier.ops = [] := (Tier.freeRun_ops _ _ _ _).trans (Dev.setTierOp_gone hops)
  have hcalm : y.calm := ⟨hheld, hgone, hjobs⟩
  have hruns := Tier.freeRun_tier (t := (s.dev.setTierOp o none).tier) hpool (s.dev.poolPlace (entPtr o.oldEntry)).2
    (entGranules o.oldEntry)
  refine ⟨y, (congrArg (devNext s) ?_).trans (devNext_of_live _ hlive), hgone, hruns⟩
  rw [hfree, Dev.enterQueues_of_calm hcalm]

/-! ### The end of the initial fill (R240) -/

theorem tierInitDone_empties (s : State) (hlive : s.dev.live = true) (hcalm : s.dev.calm) (hover : s.dev.tierInitOver = true) :
    exec .tierInitDone s = .next { s with dev := s.dev.modTier (fun t =>
      { t with initWait := false, pmc := [], pool := [], free := s.dev.poolBlocks, frag := 0 }) } := by
  refine Eq.trans (congrArg (devNext s) ?_) (devNext_of_live _ hlive)
  rw [if_pos hover]
  exact Dev.enterQueues_of_calm hcalm

/-! ### A read of a page never written (R235, R243) -/

/-- An entry that holds no page has no lines. -/
theorem entLines_of_empty {e : BitVec 128} (h : entState e = 0) (l : LineAddr) (op : Op) : entLines e l op = [] := by
  simp [entLines, h]

/-- What a read of a page never written is answered with. -/
theorem Dev.tierReadStart_of_empty {d : Dev} {o : TierOp} {e : BitVec 128} (h : entState e = 0) :
    d.tierReadStart o e = (d.rxDrop o.h).tierAnswer o (cleanRead 0 0) := by
  simp only [Dev.tierReadStart, entLines_of_empty h, if_true]
  rfl

/-- A read of a page never written begins with its answer: no bank or fence bears on it. -/
theorem Dev.tierBegin_of_empty {d : Dev} {o : TierOp} {e : BitVec 128} (h : entState e = 0) (hmove : o.move = none)
    (hread : o.h.op = .rd) : d.tierBegin o e = ((d.pmcWrite o.idx (entTouch e)).rxDrop o.h).tierAnswer o (cleanRead 0 0) := by
  have hstate : entState e ≠ 1 := by
    rw [h]
    decide
  have hlost : d.entLost e o.h.r.line o.h.op = false := by rw [Dev.entLost, entLines_of_empty h, List.any_nil, Bool.and_false]
  have hfenced : d.entFenced e o.h.r.line o.h.op = false := by rw [Dev.entFenced, entLines_of_empty h, List.any_nil]
  have hwrite : o.h.op.isWrite = false := congrArg Op.isWrite hread
  unfold Dev.tierBegin
  simp only [hmove]
  rw [if_neg (Bool.eq_false_iff.mp hlost), if_neg (Bool.eq_false_iff.mp hfenced), if_neg hstate,
    if_neg (Bool.eq_false_iff.mp hwrite), Dev.tierReadStart_of_empty h]

/-- An access that waits for its entry, with no step or other access before it, looks it up (R235). -/
theorem Dev.tierStep_lookup {d : Dev} {o : TierOp} {e : BitVec 128} (hphase : o.phase = .waitEntry) (hjobs : d.jobs = [])
    (hmove : o.move = none) (hinit : d.tier.initWait = false) (hopen : d.powerOpen = true) (hget : d.pmcGet o.idx = some e) :
    d.tierStep [] o = d.tierBegin o e := by
  have hblocked : d.tierBlocked [] o = false := by simp [Dev.tierBlocked, hjobs, hmove]
  simp only [Dev.tierStep, hphase, stagedFor, List.find?_nil, hblocked, hinit, hopen, hget, Bool.not_true, Bool.or_false,
    Bool.false_eq_true, if_false]

theorem Dev.modTier_attnValue (d : Dev) (f : Tier → Tier) : (d.modTier f).attnValue = d.attnValue :=
  Dev.attnValue_congr (d.modTier_reg f _) (d.modTier_flt f) (d.modTier_noAccord f)

theorem Dev.measures.tier {x y : Dev} (h : x.measures y) : y.tier = x.tier := by
  obtain ⟨⟨_, _, _, rfl⟩, -⟩ := h
  rfl

/-- The entry of a table line read fills the cache (R235). -/
theorem Dev.pmcLoaded_of_room {d : Dev} {idx : BitVec 32} {table : Line} (hload : kvGet d.tier.loaded idx.toNat = some (some table))
    (hnone : d.pmcGet idx = none) (hroom : (d.tier.pmc.filter (fun x => x.1 % 8192 = idx.toNat % 8192)).length < 8) :
    d.pmcLoaded idx = (d.modTier (fun t => { t with loaded := kvDel t.loaded idx.toNat })).withEnt idx
      { e := table.extractLsb' (8 * d.pmtByte idx) 128, dirty := false } := by
  have hnone' : (d.modTier (fun t => { t with loaded := kvDel t.loaded idx.toNat })).pmcGet idx = none := hnone
  simp only [Dev.pmcLoaded, hload, Dev.pmcFill, hnone']
  exact Dev.pmcPut_of_room hnone' hroom _

/-- The answer of a read by itself ends its access (R243). -/
theorem Dev.tierAnswer_hub {d : Dev} {o : TierOp} {tag : BitVec 12} {src : BitVec 10} (hheld : d.txn.held = []) (hjobs : d.jobs = [])
    (hops : d.tier.ops = [o]) (hmove : o.move = none) (hwho : o.h.who = .hub tag src) (htrack : d.txn.track = [newTrack .q tag])
    (l : Line) : (d.tierAnswer o (cleanRead l 0)).calm ∧ (d.tierAnswer o (cleanRead l 0)).tier.pmc = d.tier.pmc ∧
      d.queuesP (d.tierAnswer o (cleanRead l 0)) .q tag (rspD tag src .ok false false l d.attnValue) := by
  have hacc : o.acc.who = .hub tag src := by rw [TierOp.acc, hmove, if_neg (by decide), hwho]
  obtain ⟨track, hread⟩ := Dev.deliverRead_hub (d := d.setTierOp o none) hacc l 0 htrack
  refine ⟨hread.calm (Dev.calm_setTierOp_none hops hheld hjobs), ?_, ?_⟩
  · rw [Dev.tierAnswer, hread.tier]
    rfl
  · rw [Dev.queuesP, Dev.tierAnswer, hread.txn]
    rfl

/-- A read waits for a page never written: the table line answers it with zeros (R235, R243). -/
theorem pmcMissFill_answersZeros (s : State) (o : TierOp) (table : Line) (tag : BitVec 12) (src : BitVec 10)
    (hlive : s.dev.live = true) (hheld : s.dev.txn.held = []) (hjobs : s.dev.jobs = []) (hops : s.dev.tier.ops = [o])
    (hphase : o.phase = .waitEntry) (hmove : o.move = none) (hread : o.h.op = .rd) (hwho : o.h.who = .hub tag src) (hinit : s.dev.tier.initWait = false)
    (hopen : s.dev.powerOpen = true) (hnone : s.dev.pmcGet o.idx = none)
    (hroom : (s.dev.tier.pmc.filter (fun x => x.1 % 8192 = o.idx.toNat % 8192)).length < 8) (htrack : s.dev.tracksOnly .q tag)
    (hload : kvGet s.dev.tier.loaded o.idx.toNat = some (some table)) :
    let e : BitVec 128 := table.extractLsb' (8 * s.dev.pmtByte o.idx) 128
    entState e = 0 →
    ∃ d : Dev, exec (.pmcMissFill o.idx ()) s = .next { s with dev := d } ∧ d.tier.ops = [] ∧
      d.pmcGet o.idx = some (entTouch e) ∧ s.dev.queuesP d .q tag (rspD tag src .ok false false 0 s.dev.attnValue) := by
  intro e hempty
  let x := (s.dev.modTier (fun t => { t with loaded := kvDel t.loaded o.idx.toNat })).withEnt o.idx { e := e, dirty := false }
  have hget : x.pmcGet o.idx = some e := Dev.withEnt_pmcGet _
  let y := x.withEnt o.idx { e := entTouch e, dirty := true }
  have hyjobs : y.jobs = [] := by simp [y, x, hjobs]
  obtain ⟨rx, hrx⟩ := y.rxDrop_eq o.h
  have hstep : x.tierStep [] o = (y.rxDrop o.h).tierAnswer o (cleanRead 0 0) := by
    rw [Dev.tierStep_lookup (d := x) hphase hjobs hmove hinit hopen hget]
    refine (Dev.tierBegin_of_empty hempty hmove hread).trans ?_
    rw [Dev.pmcWrite_of_some (by rw [hget]; rfl)]
  obtain ⟨hcalm, hpmc, hqueues⟩ := Dev.tierAnswer_hub (d := y.rxDrop o.h) (by rw [hrx]; exact hheld)
    (by rw [hrx, Dev.modTxn_jobs]; exact hyjobs) (by rw [hrx]; exact hops) hmove hwho (by rw [hrx]; exact htrack.2) 0
  refine ⟨_, (congrArg (devNext s) ?_).trans (devNext_of_live _ hlive), hcalm.2.1, ?_, ?_⟩
  · rw [if_pos (by rw [hload]; rfl), Dev.pmcLoaded_of_room hload hnone hroom]
    refine (Dev.settleN_only (d := x) hops hheld hjobs 3).trans ?_
    rw [hstep, Dev.settleN_of_calm 3 hcalm]
  · have hcache : (y.rxDrop o.h).tier.pmc = y.tier.pmc := by rw [hrx]; rfl
    exact (Dev.pmcGet_of_pmc (hpmc.trans hcache) o.idx).trans (Dev.withEnt_pmcGet _)
  · have hout : (y.rxDrop o.h).txn.outP = s.dev.txn.outP := by
      rw [hrx]
      rfl
    have hattn : (y.rxDrop o.h).attnValue = s.dev.attnValue := by
      rw [hrx]
      calc (y.modTxn _).attnValue = y.attnValue := Dev.attnValue_withTxn _ _
        _ = x.attnValue := x.modTier_attnValue _
        _ = (s.dev.modTier _).attnValue := Dev.modTier_attnValue _ _
        _ = s.dev.attnValue := s.dev.modTier_attnValue _
    rw [Dev.queuesP, hout, hattn] at hqueues
    exact hqueues

end Sys2Proof.Machine
end

section
/-! PROOF. O41: a merged write is staged, and its claim ends (R244). -/

namespace Sys2Proof.Machine

/-! ### The lines that a write of the tier loads (R244) -/

/-- A line write of the tier access `id`, as it is held. -/
structure Held.writesFor (id : Nat) (h : Held) : Prop where
  own : h.ofBlock
  who : ∃ i, h.who = .tier id i
  op : (∃ l, h.op = .wr l) ∨ h.op = .pois

/-- The access `o` has its lines written, and no read waits at a port: how many of them are still to be loaded is all of it that
changes. -/
structure Dev.writesOut (o : TierOp) (claims : Nat) (d : Dev) : Prop where
  jobs : d.jobs = []
  rdq : ∀ p : Fin 4, (d.ports[p]).rdq = []
  ops : ∃ n, d.tier.ops = [{ o with wleft := n }]
  claims : d.tier.claims = claims

/-- A whole line for a tier access enters its port's queue and is told to none (R106, R244). -/
theorem Dev.enterWrite_tier {d : Dev} {p : Fin 4} {acc : Acc} {id i : Nat} (hwho : acc.who = .tier id i)
    (loc : Loc) (key : KeyUse) (l : Line) (poison : Bool) : d.spares (d.enterWrite p loc key fullMask l poison acc) := by
  unfold Dev.enterWrite
  simp only [hwho, Who.told, Bool.true_or, if_true]
  refine Dev.spares.trans ?_ (Dev.drainStart_drains _ p).spares
  have hput := d.spares_modPort p (f := fun x => x.putWrite loc key fullMask l poison acc [(acc, none)] (d.carryOf acc loc))
    (Port.putWrite_rdq ..)
  split <;> exact hput

theorem Dev.forwardReady_of_noReads {d : Dev} {p : Fin 4} (h : (d.ports[p]).rdq = []) (loc : Loc) : d.forwardReady p loc = d :=
  Dev.forwardReady_of_unread (fun r hr => absurd hr (by rw [h]; exact List.not_mem_nil))

theorem Dev.admitOne_writesFor {d d1 : Dev} {h : Held} {id : Nat} {p : Fin 4} {loc : Loc} (hh : h.writesFor id)
    (hrdq : (d.ports[p]).rdq = []) (hadm : d.admitOne h p loc = some d1) : d.spares d1 := by
  obtain ⟨i, hwho⟩ := hh.who
  have hmedia : h.byMedia = false := by simp [Held.byMedia, hh.own.inner]
  have hwait : (d.ports[p]).readsWait loc = false := by
    unfold Port.readsWait
    split
    · rw [hrdq, List.any_nil, Bool.and_false]
    · rfl
  have henter (key : KeyUse) (l : Line) (poison : Bool) :
      d.spares ((d.enterWrite p loc key fullMask l poison (d.accOf h)).forwardReady p loc) := by
    have hs := Dev.enterWrite_tier (d := d) (p := p) (acc := d.accOf h) hwho loc key l poison
    rw [Dev.forwardReady_of_noReads ((hs.rdq p).trans hrdq)]
    exact hs
  unfold Dev.admitOne at hadm
  extract_lets key n acc at? ov wr at hadm
  have hwr (l : Line) (poison : Bool) (hsome : wr fullMask l poison = some d1) : d.spares d1 := by
    simp only [wr, hwait, hmedia, Bool.false_eq_true, if_false, Option.some.injEq] at hsome
    rw [← hsome]
    exact henter key l poison
  split at hadm
  · exact absurd hadm (by simp)
  · obtain ⟨l, hop⟩ | hop := hh.op
    · simp only [hop] at hadm
      exact hwr l false hadm
    · simp only [hop] at hadm
      exact hwr 0 true hadm

theorem Dev.writesOut.refuse {d : Dev} {o : TierOp} {c : Nat} {h : Held} (hd : d.writesOut o c) (hh : h.writesFor o.id) :
    (d.refuseHeld h .poison).writesOut o c := by
  obtain ⟨i, hwho⟩ := hh.who
  have hop : h.op ≠ .rd := by
    obtain ⟨l, hop⟩ | hop := hh.op <;> simp [hop]
  obtain ⟨n, hops⟩ := hd.ops
  have heq : d.refuseHeld h .poison = (d.writeEnd h.rid true).tierLoaded o.id := by
    simp only [Dev.refuseHeld, hwho, if_neg hop]
  rw [heq]
  refine ⟨hd.jobs, hd.rdq, ⟨n - 1, ?_⟩, hd.claims⟩
  show d.tier.ops.map _ = _
  rw [hops, List.map_singleton, if_pos rfl]

theorem Dev.writesOut_stands (o : TierOp) (c : Nat) : Dev.standsWhile (Held.writesFor o.id) (Dev.writesOut o c) where
  own _ hh := hh.own
  wait _ hh := ⟨hh.own.take, hh.who, hh.op⟩
  idle _ hd := hd.jobs
  txn _ _ hd := ⟨hd.jobs, hd.rdq, hd.ops, hd.claims⟩
  spared x y hxy hx := ⟨hxy.jobs.trans hx.jobs, fun p => (hxy.rdq p).trans (hx.rdq p), by rw [hxy.tier]; exact hx.ops,
    by rw [hxy.tier]; exact hx.claims⟩
  refuse d h hh hd := by
    obtain ⟨i, hwho⟩ := hh.who
    refine ⟨hd.refuse hh, ?_⟩
    simp only [Dev.refuseHeld, hwho]
    split <;> rfl
  enter d h p loc d1 hh hd hadm := by
    have hs := Dev.admitOne_writesFor hh (hd.rdq p) hadm
    exact ⟨⟨hs.jobs.trans hd.jobs, fun q => (hs.rdq q).trans (hd.rdq q), by rw [hs.tier]; exact hd.ops,
      by rw [hs.tier]; exact hd.claims⟩, hs.held⟩

/-! ### The merge of a whole line into a page without an extent (R244, R245) -/

/-- From `x` to `y` a claim has ended, with what its allocation brings about; the tier has access `o` alone. -/
structure Dev.unclaims (o : TierOp) (x y : Dev) : Prop where
  txn : y.txn = x.txn
  jobs : y.jobs = x.jobs
  ports : y.ports = x.ports
  ops : y.tier.ops = [o]
  claims : y.tier.claims = x.tier.claims - 1

theorem Dev.poolWarn_eq (d : Dev) : ∃ rf sill engs, d.poolWarn = { d with rf := rf, sill := sill, engs := engs } := by
  obtain ⟨sill, rf, hattn, -⟩ := d.setAttn_eq (d.fldR A.attn 0 12 ||| 2 ^ 3)
  have hraise : ∃ rf sill, (if d.tier.free - d.tier.claims ≤ tierResv + d.warnBlocks then d.raiseAttn 3 else d) =
      { d with rf := rf, sill := sill } := by
    split
    · exact ⟨rf, sill, hattn⟩
    · exact ⟨d.rf, d.sill, rfl⟩
  obtain ⟨rf, sill, hraise⟩ := hraise
  unfold Dev.poolWarn
  simp only [hraise]
  split
  · unfold Dev.eventWhere
    exact ⟨_, _, _, rfl⟩
  · exact ⟨rf, sill, d.engs, rfl⟩

theorem Tier.useRun_ops (t : Tier) (b i g : Nat) : (t.useRun b i g).ops = t.ops ∧ (t.useRun b i g).claims = t.claims := by
  unfold Tier.useRun
  split <;> exact ⟨rfl, rfl⟩

theorem Tier.allocate_ops (t : Tier) (g : Nat) : (t.allocate g).1.ops = t.ops ∧ (t.allocate g).1.claims = t.claims := by
  unfold Tier.allocate
  split
  · exact t.useRun_ops _ _ _
  · exact ⟨rfl, rfl⟩

theorem Dev.unclaims.poolWarn {o : TierOp} {x y : Dev} (h : Dev.unclaims o x y) : Dev.unclaims o x y.poolWarn := by
  obtain ⟨_, _, _, he⟩ := y.poolWarn_eq
  rw [he]
  exact ⟨h.txn, h.jobs, h.ports, h.ops, h.claims⟩

/-- The write `p` of the access `o` is staged: its line `l` is merged, and its claim has ended. -/
structure TierOp.stagesAs (o p : TierOp) (l : Line) : Prop where
  id : p.id = o.id
  idx : p.idx = o.idx
  phase : p.phase = .writing
  line : p.staged[chunkPos o.h.r.line]? = some (some l)
  claim : p.claim = false
  got : p.got = []

theorem mergeOp_whole (l : Line) (line : Option Line) : mergeOp (.wr l) line = (some l, none, .ok, true) := rfl

theorem Dev.modTier_of_fixed {d : Dev} {f : Tier → Tier} (h : f d.tier = d.tier) : d.modTier f = d := by
  rw [Dev.modTier, h]

/-- A page without an extent merges into zeros. -/
theorem chunkLines_of_noExtent {e : BitVec 128} (h : entState e ≠ 2) (k : Nat) (old : List (Option Line)) :
    chunkLines e k old = (List.replicate 8 (some 0), false) := by
  simp [chunkLines, h]

theorem zeroChunk_set (a : LineAddr) (l : Line) :
    ((List.replicate 8 (some (0 : Line))).set (chunkPos a) (some l))[chunkPos a]? = some (some l) := by
  have hpos : chunkPos a < 8 := Nat.mod_lt _ (by decide)
  rw [List.getElem?_set_self (by rw [List.length_replicate]; exact hpos)]

/-- Where neither the accesses nor the claims have changed, a claim ends with the space `t` allocated. -/
theorem Dev.unclaims_of_allocated {o : TierOp} {x y : Dev} {t : Tier} {rf : RegMap} (hy : y = { x with rf := rf })
    (hops : x.tier.ops = [o]) (ht : t.ops = x.tier.ops ∧ t.claims = x.tier.claims) :
    Dev.unclaims o x ((y.modTier (fun _ => t)).modTier (fun t => { t with claims := t.claims - 1 })) := by
  subst hy
  exact ⟨rfl, rfl, rfl, ht.1.trans hops, congrArg (· - 1) ht.2⟩

/-- The merge of a whole line stages it and begins to write its chunk. -/
theorem Dev.tierMerge_whole {d : Dev} {o : TierOp} {l : Line} (hops : d.tier.ops = [o]) (hphase : o.phase = .reading)
    (hop : o.h.op = .wr l) (hold : entState o.oldEntry ≠ 2) :
    ∃ (y : Dev) (p : TierOp) (n : Nat) (line : Nat → Nat) (data : Nat → Option Line), Dev.unclaims o d y ∧ o.stagesAs p l ∧
      d.tierMerge o = Dev.each (fun i x => x.tierWrite p (line i) i (data i)) (List.range n) (y.setTierOp o (some p)) := by
  unfold Dev.tierMerge
  extract_lets e k j c s d0 d1 m unclaim isAtom d2 lines st zero fits d3 answerNow d4 o1 n' rs' ne' o2' n base rs g al ptr ne d5 d6 d7
    others o2 d8
  have hc : c = (List.replicate 8 (some 0), false) := chunkLines_of_noExtent hold _ _
  have hm : m = (some l, none, .ok, true) := (congrArg (mergeOp · _) hop).trans (mergeOp_whole l _)
  have hatom : isAtom = false := by
    unfold isAtom
    rw [hop]
  have hfits : fits = false := if_neg hold
  have hd4 : d4 = d3 := by
    have hans : answerNow = false := by
      unfold answerNow
      rw [hatom, Bool.false_and]
    exact if_neg (by rw [hans]; decide)
  have hd2 : d2 = d0 := by
    have hd1 : d1 = d0 := if_neg (by rw [hc]; decide)
    rw [← hd1]
    unfold d2
    rw [hatom]
  rw [if_neg (by simp [hm]), if_neg (by rw [hfits]; decide), if_neg hold]
  have hd0 : d0 = d := by
    have hmarked : d.tier.ops.map (fun x => if x.idx = o.idx && x.phase = .waitEntry then { x with early := true } else x) =
        d.tier.ops := by
      rw [hops, List.map_singleton, if_neg (by simp [hphase])]
    exact Dev.modTier_of_fixed (congrArg (fun ops => { d.tier with ops := ops }) hmarked)
  have hd3 : ∃ rf, d3 = { d with rf := rf } := by
    unfold d3
    rw [hd2, hd0]
    split
    · exact ⟨_, rfl⟩
    · exact ⟨_, rfl⟩
  obtain ⟨rf, hrf⟩ := hd3
  have hal : al.1.ops = d.tier.ops ∧ al.1.claims = d.tier.claims := by
    have htier : d4.tier = d.tier := by rw [hd4, hrf]
    unfold al
    rw [htier]
    split
    · exact ⟨rfl, rfl⟩
    · exact Tier.allocate_ops _ _
  have hd5 : Dev.unclaims o d d5 := Dev.unclaims_of_allocated (hd4.trans hrf) hops hal
  have hd7 : Dev.unclaims o d d7 := by
    have hd7 : d7 = d6 := if_neg hold
    rw [hd7]
    unfold d6
    split
    · exact hd5
    · exact hd5.poolWarn
  refine ⟨d7, o2, n, _, _, hd7, ⟨rfl, rfl, rfl, ?_, rfl, rfl⟩, rfl⟩
  have hlines : lines = (List.replicate 8 (some 0)).set j (some l) := by
    unfold lines
    rw [hc, hm]
  exact (congrArg (·[j]?) hlines).trans (zeroChunk_set _ l)

/-- The line writes of a staged write wait for their ports (R244). -/
theorem Dev.tierWrite_waits {o : TierOp} {c : Nat} {d : Dev}
    (hd : d.holdsOnly (Held.writesFor o.id) (Dev.writesOut o c)) (m i : Nat) (l : Option Line) :
    (d.tierWrite o m i l).holdsOnly (Held.writesFor o.id) (Dev.writesOut o c) := by
  have hQ := Dev.writesOut_stands o c
  have hline (op : Op) (hop : op = .pois ∨ ∃ l, op = .wr l) :
      (d.tierLine o m i op).holdsOnly (Held.writesFor o.id) (Dev.writesOut o c) := by
    refine hQ.hold ⟨⟨rfl, rfl, rfl, rfl, rfl, ?_, rfl⟩, ⟨i, rfl⟩, hop.symm⟩ (hQ.spares (d.spares_arrive _) hd)
    obtain rfl | ⟨l, rfl⟩ := hop <;> exact Op.noConfusion
  cases l with
  | none => exact hline _ (.inl rfl)
  | some l => exact hline _ (.inr ⟨l, rfl⟩)

/-- A staged write only waits for its lines to be loaded. -/
theorem Dev.tierAdvance_of_writesOut {o : TierOp} {c : Nat} {d : Dev} (hphase : o.phase = .writing) (hgot : o.got = [])
    (hd : d.writesOut o c) : d.tierAdvance = d := by
  obtain ⟨n, hops⟩ := hd.ops
  rw [Dev.tierAdvance_only hops]
  simp [Dev.tierStep, hphase, hgot]

theorem tierWriteMerge_stages (s : State) (o : TierOp) (l : Line) (hlive : s.dev.live = true) (hheld : s.dev.txn.held = [])
    (hjobs : s.dev.jobs = []) (hqueues : s.dev.queuesEmpty) (hops : s.dev.tier.ops = [o]) (hphase : o.phase = .reading)
    (hmove : o.move = none) (hgot : o.gotAll = true) (hop : o.h.op = .wr l) (hold : entState o.oldEntry ≠ 2) :
    ∃ (d : Dev) (p : TierOp), exec (.tierWriteMerge o.idx ()) s = .next { s with dev := d } ∧ d.tier.ops = [p] ∧
      p.phase = .writing ∧ p.staged[chunkPos o.h.r.line]? = some (some l) ∧ p.idx = o.idx ∧ p.claim = false ∧
      d.tier.claims = s.dev.tier.claims - 1 := by
  obtain ⟨y, p, n, line, data, hun, hst, hmerge⟩ := Dev.tierMerge_whole hops hphase hop hold
  have hQ := Dev.writesOut_stands p (s.dev.tier.claims - 1)
  have hstart : (y.setTierOp o (some p)).holdsOnly (Held.writesFor p.id) (Dev.writesOut p (s.dev.tier.claims - 1)) := by
    refine ⟨fun h hh => ?_, hun.jobs.trans hjobs, fun q => ?_, ⟨p.wleft, Dev.setTierOp_only hun.ops p⟩, hun.claims⟩
    · have hnone : (y.setTierOp o (some p)).txn.held = [] := (congrArg Txn.held hun.txn).trans hheld
      rw [hnone] at hh
      exact absurd hh List.not_mem_nil
    · show (y.ports[q]).rdq = []
      rw [hun.ports]
      exact (hqueues q).1
  have hwrites : (s.dev.tierMerge o).holdsOnly (Held.writesFor p.id) (Dev.writesOut p (s.dev.tier.claims - 1)) := by
    rw [hmerge]
    exact Dev.each_keeps (Dev.holdsOnly (Held.writesFor p.id) (Dev.writesOut p (s.dev.tier.claims - 1))) _
      (fun i x hx => Dev.tierWrite_waits hx _ _ _) _ _ hstart
  have hafter := hQ.enterQueues (fun x hx => by rw [Dev.tierAdvance_of_writesOut hst.phase hst.got hx.2]; exact hx) hwrites
  obtain ⟨w, hpops⟩ := hafter.2.ops
  have hwrite : o.h.op.isWrite = true := congrArg Op.isWrite hop
  have hfind : s.dev.tier.toMerge o.idx = some o := Dev.findOp_only hops (by simp [hphase, hwrite, hmove, hgot])
  have hexec : exec (.tierWriteMerge o.idx ()) s = devNext s (s.dev.tierMerge o).enterQueues := by
    show execTierWriteMerge o.idx () s = _
    simp only [execTierWriteMerge, hfind]
  exact ⟨_, { p with wleft := w }, hexec.trans (devNext_of_live _ hlive), hpops, hst.phase, hst.line, hst.idx, hst.claim,
    hafter.2.claims⟩

/-- Settles O41, an access at a time: each clause has the tier's one access or none, so the rounds only step it. -/
theorem tierAccess : Obligations.TierAccess :=
  ⟨pmcMissFill_answersZeros, tierWriteMerge_stages, tierEntrySwitch_changes, granuleFree_frees, tierInitDone_empties⟩

end Sys2Proof.Machine
end

section
/-! PROOF. O42: the end of a move (R246, R362). -/

namespace Sys2Proof.Machine

/-- No read of a page began under an old entry where the one access is not reading. -/
theorem Dev.pageReaders_only {d : Dev} {o : TierOp} (hops : d.tier.ops = [o]) (hphase : o.phase ≠ .reading) (idx : BitVec 32) :
    d.pageReaders idx = [] := by
  simp [Dev.pageReaders, hops, hphase]

theorem Dev.moveResult_tier (d : Dev) (m : Fin 4) (r : Nat) :
    (d.moveResult m r).tier = { d.tier with moves := d.tier.moves.set m none } := rfl

/-- BUSY and RESULT of an ended move (Table 9.23). -/
theorem Dev.moveResult_regs (d : Dev) (m : Fin 4) :
    bit ((d.moveResult m 1).reg (A.moveCmd m.val)) 43 = false ∧ (d.moveResult m 1).fldR (A.moveCmd m.val) 44 2 = 1 := by
  constructor
  · rw [Dev.moveResult, Dev.modTier_reg, Dev.reg_setFld, if_pos rfl, bit, put_getLsbD _ 44 2 _ 43 (by decide) (by decide),
      if_neg (by decide), Dev.reg_setFld, if_pos rfl, put_getLsbD _ 43 1 _ 43 (by decide) (by decide), if_pos (by decide)]
    exact Nat.zero_testBit _
  · exact Dev.fldR_setFld_fits (d := d.setFld (A.moveCmd m.val) 43 1 0) _ (by decide) (by decide) (by decide)

theorem moveDone_ends (s : State) (m : Fin 4) (o : TierOp) (hlive : s.dev.live = true) :
    (s.dev.throttled = true → exec (.moveDone m ()) s = .next s) ∧
    (s.dev.throttled = false → s.dev.txn.held = [] → s.dev.jobs = [] → s.dev.tier.ops = [o] → o.move = some m →
      o.phase = .writing → o.wleft = 0 → (s.dev.pmcGet o.idx).isSome = true →
      ∃ d : Dev, exec (.moveDone m ()) s = .next { s with dev := d } ∧
        bit (d.reg (A.moveCmd m.val)) 43 = false ∧ d.fldR (A.moveCmd m.val) 44 2 = 1 ∧ d.tier.moves[m] = none ∧
        d.pmcGet o.idx = some (s.dev.entNow o.idx o.newEntry) ∧
        d.tier.ops = [{ o with phase := .switched, readers := [] }]) := by
  refine ⟨fun hthr => ?_, fun hthr hheld hjobs hops hmove hphase hleft hent => ?_⟩
  · exact (congrArg (devNext s) (if_pos hthr)).trans (devNext_self s)
  let x := (s.dev.withEnt o.idx { e := s.dev.entNow o.idx o.newEntry, dirty := true }).moveResult m 1
  let p : TierOp := { o with phase := .switched, readers := [] }
  obtain ⟨pool, hend⟩ : ∃ pool, s.dev.moveEnd m = (x.modTier (fun t => { t with pool := pool })).setTierOp o (some p) := by
    have hfind := Dev.findOp_only hops (c := fun p => p.move = some m && p.phase = .writing && p.wleft = 0)
      (by simp [hmove, hphase, hleft])
    have hreaders : s.dev.pageReaders o.idx = [] := Dev.pageReaders_only hops (by simp [hphase]) _
    unfold Dev.moveEnd
    simp only [hfind, Dev.pmcWrite_of_some hent, hreaders]
    split
    · exact ⟨_, rfl⟩
    · exact ⟨x.tier.pool, rfl⟩
  let y := (x.modTier (fun t => { t with pool := pool })).setTierOp o (some p)
  have hxops : (x.modTier (fun t => { t with pool := pool })).tier.ops = [o] := hops
  have hyjobs : y.jobs = [] := by simp [y, x, Dev.setTierOp, Dev.moveResult, hjobs]
  have hpmc : y.tier.pmc = (s.dev.withEnt o.idx { e := s.dev.entNow o.idx o.newEntry, dirty := true }).tier.pmc := by
    simp [y, x, Dev.setTierOp, Dev.moveResult]
  have hpops := Dev.setTierOp_only hxops p
  obtain ⟨hbusy, hres⟩ := (s.dev.withEnt o.idx { e := s.dev.entNow o.idx o.newEntry, dirty := true }).moveResult_regs m
  refine ⟨y, (congrArg (devNext s) ?_).trans (devNext_of_live _ hlive), hbusy, hres, ?_, ?_, hpops⟩
  · rw [if_neg (by simp [hthr]), hend]
    exact Dev.enterQueues_of_waiting hpops hheld hyjobs rfl
  · exact Vector.getElem_set_self _
  · exact (Dev.pmcGet_of_pmc hpmc o.idx).trans (Dev.withEnt_pmcGet _)

end Sys2Proof.Machine
end

section
/-! PROOF. O42: a mover takes its command, and its page's entry is looked up (R235, R246). -/

namespace Sys2Proof.Machine

/-! ### The table line that a lookup waits for (R235) -/

/-- A read of the table line of page `idx`, as it is held. -/
structure Held.looksUp (idx : BitVec 32) (h : Held) : Prop where
  own : h.ofBlock
  who : h.who = .pmc idx
  op : h.op = .rd

/-- The access `o` waits for its page's entry, which the cache does not hold; mover `m` makes the move `mv`, and its command reads
as `v`. -/
structure Dev.waitsEntry (m : Fin 4) (mv : Move) (v : Word) (o : TierOp) (d : Dev) : Prop where
  jobs : d.jobs = []
  ops : d.tier.ops = [o]
  moves : d.tier.moves[m] = some mv
  cache : d.pmcGet o.idx = none
  cmd : d.reg (A.moveCmd m.val) = v

section
variable {m : Fin 4} {mv : Move} {v : Word} {o : TierOp} {d : Dev}

theorem moveCmd_apart : ∀ m : Fin 4, A.moveCmd m.val ∉ arriveRegs ∧ A.moveCmd m.val ≠ A.pmcCnt := by decide

theorem Dev.waitsEntry.loaded (h : d.waitsEntry m mv v o) (loaded : List (Nat × Option Line)) :
    (d.modTier (fun t => { t with loaded := loaded })).waitsEntry m mv v o :=
  ⟨h.jobs, h.ops, h.moves, h.cache, h.cmd⟩

theorem Dev.waitsEntry.spares {y : Dev} (hy : d.spares y) (h : d.waitsEntry m mv v o) : y.waitsEntry m mv v o where
  jobs := hy.jobs.trans h.jobs
  ops := by rw [hy.tier]; exact h.ops
  moves := by rw [hy.tier]; exact h.moves
  cache := by rw [Dev.pmcGet, hy.tier]; exact h.cache
  cmd := (hy.regs _ (moveCmd_apart m).1).trans h.cmd

/-- A table line's read is queued, or takes its line from a full entry (R105). -/
theorem Dev.admitOne_looksUp {d1 : Dev} {h : Held} {idx : BitVec 32} {p : Fin 4} {loc : Loc} (hh : h.looksUp idx)
    (hadm : d.admitOne h p loc = some d1) :
    (∃ f, d1 = d.modPort p f) ∨ ∃ loaded, d1 = d.modTier (fun t => { t with loaded := loaded }) := by
  have hdeliver (ov : Option (BitVec 64 × Line)) (r : ReadRes) (k : Option KeyUse) :
      ∃ loaded, d.deliverRead (d.accOf h) ov r k = d.modTier (fun t => { t with loaded := loaded }) := by
    have hwho : (d.accOf h).who = .pmc idx := hh.who
    simp only [Dev.deliverRead, hwho]
    exact ⟨_, rfl⟩
  unfold Dev.admitOne at hadm
  extract_lets key n acc at? ov wr at hadm
  simp only [hh.op] at hadm
  clear_value at?
  split at hadm
  · exact absurd hadm (by simp)
  split at hadm
  · split at hadm
    · obtain ⟨loaded, hl⟩ := hdeliver ov _ _
      exact .inr ⟨loaded, (Option.some.inj hadm).symm.trans hl⟩
    · exact .inl ⟨_, (Option.some.inj hadm).symm⟩
  · exact .inl ⟨_, (Option.some.inj hadm).symm⟩

theorem Dev.waitsEntry_stands (m : Fin 4) (mv : Move) (v : Word) (o : TierOp) :
    Dev.standsWhile (Held.looksUp o.idx) (Dev.waitsEntry m mv v o) where
  own _ hh := hh.own
  wait _ hh := ⟨hh.own.take, hh.who, hh.op⟩
  idle _ hd := hd.jobs
  txn _ _ hd := ⟨hd.jobs, hd.ops, hd.moves, hd.cache, hd.cmd⟩
  spared _ _ hxy hx := hx.spares hxy
  refuse d h hh hd := by
    have heq : d.refuseHeld h .poison = d.modTier (fun t => { t with loaded := kvSet t.loaded o.idx.toNat none }) := by
      simp only [Dev.refuseHeld, hh.who]
    rw [heq]
    exact ⟨hd.loaded _, rfl⟩
  enter d h p loc d1 hh hd hadm := by
    obtain ⟨f, rfl⟩ | ⟨loaded, rfl⟩ := Dev.admitOne_looksUp hh hadm
    · exact ⟨⟨hd.jobs, hd.ops, hd.moves, hd.cache, hd.cmd⟩, rfl⟩
    · exact ⟨hd.loaded _, rfl⟩

/-- A miss waits, or asks for the entry's table line (R235). -/
theorem Dev.pmcMiss_looksUp (hd : d.holdsOnly (Held.looksUp o.idx) (Dev.waitsEntry m mv v o)) (master : BitVec 11) :
    (d.pmcMiss o.idx master).holdsOnly (Held.looksUp o.idx) (Dev.waitsEntry m mv v o) := by
  have hQ := Dev.waitsEntry_stands m mv v o
  unfold Dev.pmcMiss
  extract_lets line
  split
  · exact hd
  · refine hQ.hold ⟨⟨rfl, rfl, rfl, rfl, rfl, Op.noConfusion, rfl⟩, rfl, rfl⟩ (hQ.spares (Dev.spares_arrive _ _) ?_)
    exact ⟨hd.1, hQ.txn _ _ hd.2⟩

/-- A round only looks the entry up again. -/
theorem Dev.tierAdvance_looksUp (hphase : o.phase = .waitEntry) (hd : d.holdsOnly (Held.looksUp o.idx) (Dev.waitsEntry m mv v o)) :
    d.tierAdvance.holdsOnly (Held.looksUp o.idx) (Dev.waitsEntry m mv v o) := by
  rw [Dev.tierAdvance_only hd.2.ops]
  simp only [Dev.tierStep, hphase, stagedFor, List.find?_nil, hd.2.cache]
  split
  · exact hd
  · exact Dev.pmcMiss_looksUp hd _

end

/-! ### The command of a move (R246, Table 9.23) -/

theorem exec_moveOf {i : Instr} {ma : Master} {m : Fin 4} {v : Word} {op : Nat} (h : moveOf i = some (ma, m, v, op)) (s : State) :
    exec i s = devNext s (s.dev.moveWrite ma m (put v 46 2 op)) ∧ 1 ≤ op ∧ op ≤ 3 := by
  cases i with
  | promote | demote | repack =>
    obtain ⟨rfl, rfl, rfl, rfl⟩ := h
    exact ⟨rfl, by decide, by decide⟩
  | _ => cases h

/-- A busy mover takes no command. -/
theorem Dev.moveWrite_busy {d : Dev} {ma : Master} {m : Fin 4} {v : Word} (h : bit (d.reg (A.moveCmd m.val)) 43 = true) :
    d.moveWrite ma m v = d := if_pos h

/-- MOVE_CMD of a mover that has taken page `idx` reads as BUSY. -/
def Dev.moveTaken (d : Dev) (m : Fin 4) (idx : BitVec 32) : Dev :=
  (d.setFld (A.moveCmd m.val) 0 32 idx.toNat).setFld (A.moveCmd m.val) 43 1 1

theorem Dev.moveTaken_regs (d : Dev) (m : Fin 4) (idx : BitVec 32) :
    bit ((d.moveTaken m idx).reg (A.moveCmd m.val)) 43 = true ∧ (d.moveTaken m idx).fldR (A.moveCmd m.val) 0 32 = idx.toNat := by
  constructor
  · rw [Dev.moveTaken, Dev.reg_setFld, if_pos rfl, bit, put_getLsbD _ 43 1 _ 43 (by decide) (by decide), if_pos (by decide)]
    decide
  · rw [Dev.moveTaken, Dev.fldR_setFld_other _ _ _ _ _ _ _ (by decide) (by decide) (by decide),
      d.fldR_setFld_fits _ (by decide) (by decide) idx.isLt]

section
variable (d : Dev) (o : TierOp)

@[simp] theorem Dev.tierEnter_txn : (d.tierEnter o).txn = d.txn := rfl
@[simp] theorem Dev.tierEnter_jobs : (d.tierEnter o).jobs = d.jobs := rfl

@[simp] theorem Dev.tierEnter_tier : (d.tierEnter o).tier =
    { d.tier with ops := d.tier.ops ++ [{ o with id := d.tier.nextId }], nextId := d.tier.nextId + 1 } := rfl

/-- An access that joins the list counts its lookup (R235). -/
theorem Dev.tierEnter_reg {a : Nat} (ha : a ≠ A.pmcCnt) : (d.tierEnter o).reg a = d.reg a := by
  rw [Dev.tierEnter, Dev.bump, Dev.bumpBy, Dev.reg_setFld, if_neg ha, Dev.modTier_reg]

end

/-- A mover that is free takes its command: its access joins the tier's list, its page's entry unknown. -/
theorem Dev.moveWrite_free {d : Dev} {ma : Master} {m : Fin 4} {v : Word} (hfree : bit (d.reg (A.moveCmd m.val)) 43 = false)
    (hop : fld v 46 2 ≠ 0) (hcalm : d.calm) (hnone : d.pmcGet (BitVec.ofNat 32 (fld v 0 32)) = none) :
    ∃ (x : Dev) (o : TierOp), d.moveWrite ma m v = x.enterQueues ∧ o.move = some m ∧ o.idx = BitVec.ofNat 32 (fld v 0 32) ∧
      o.phase = .waitEntry ∧ x.holdsOnly (Held.looksUp o.idx) (Dev.waitsEntry m
        { op := BitVec.ofNat 2 (fld v 46 2), idx := BitVec.ofNat 32 (fld v 0 32) }
        ((d.moveTaken m (BitVec.ofNat 32 (fld v 0 32))).reg (A.moveCmd m.val)) o) := by
  obtain ⟨hheld, hops, hjobs⟩ := hcalm
  unfold Dev.moveWrite
  extract_lets a idx d1 mv r h0 h
  rw [if_neg (by rw [hfree]; decide), if_neg hop]
  refine ⟨_, { mkTierOp idx h (some m) with id := d.tier.nextId }, rfl, rfl, rfl, rfl, fun k hk => ?_, ?_, ?_, ?_, ?_, ?_⟩
  · rw [Dev.tierEnter_txn] at hk
    exact absurd (hheld ▸ hk) List.not_mem_nil
  · rw [Dev.tierEnter_jobs]
    exact hjobs
  · rw [Dev.tierEnter_tier]
    exact congrArg (· ++ [{ mkTierOp idx h (some m) with id := d.tier.nextId }]) hops
  · rw [Dev.tierEnter_tier]
    exact Vector.getElem_set_self _
  · rw [Dev.pmcGet, Dev.tierEnter_tier]
    exact hnone
  · rw [Dev.tierEnter_reg _ _ (moveCmd_apart m).2]
    rfl

theorem moveCommand_taken (s : State) (i : Instr) (ma : Master) (m : Fin 4) (v : Word) (op : Nat) (hlive : s.dev.live = true)
    (hmove : moveOf i = some (ma, m, v, op)) :
    let idx : BitVec 32 := BitVec.ofNat 32 (fld v 0 32)
    (bit (s.dev.reg (A.moveCmd m.val)) 43 = true → exec i s = .next s) ∧
    (bit (s.dev.reg (A.moveCmd m.val)) 43 = false → s.dev.calm → s.dev.pmcGet idx = none →
      ∃ (d : Dev) (o : TierOp), exec i s = .next { s with dev := d } ∧ bit (d.reg (A.moveCmd m.val)) 43 = true ∧
        d.fldR (A.moveCmd m.val) 0 32 = fld v 0 32 ∧ d.tier.moves[m] = some { op := BitVec.ofNat 2 op, idx := idx } ∧
        d.tier.ops = [o] ∧ o.move = some m ∧ o.idx = idx ∧ o.phase = .waitEntry) := by
  intro idx
  obtain ⟨hexec, hlo, hhi⟩ := exec_moveOf hmove s
  refine ⟨fun hbusy => ?_, fun hfree hcalm hnone => ?_⟩
  · rw [hexec, Dev.moveWrite_busy hbusy, devNext_self]
  have hpage : fld (put v 46 2 op) 0 32 = fld v 0 32 := fld_put_other _ _ _ _ _ _ (by decide) (by decide) (by decide)
  have hop : fld (put v 46 2 op) 46 2 = op := by
    rw [fld_put_same _ _ _ _ (by decide) (by decide)]
    exact Nat.mod_eq_of_lt (by omega)
  obtain ⟨x, o, hwrite, homove, hoidx, hophase, hx⟩ := Dev.moveWrite_free (ma := ma) (v := put v 46 2 op) hfree (by omega) hcalm
    (by rw [hpage]; exact hnone)
  rw [hop, hpage] at hx
  rw [hpage] at hoidx
  obtain ⟨-, hafter⟩ := (Dev.waitsEntry_stands m _ _ o).enterQueues (fun y hy => Dev.tierAdvance_looksUp hophase hy) hx
  obtain ⟨hbusy, hfield⟩ := s.dev.moveTaken_regs m idx
  refine ⟨x.enterQueues, o, ?_, ?_, ?_, hafter.moves, hafter.ops, homove, hoidx, hophase⟩
  · rw [hexec, hwrite]
    exact devNext_of_live _ hlive
  · rw [hafter.cmd]
    exact hbusy
  · have hidx : idx.toNat = fld v 0 32 := by
      rw [BitVec.toNat_ofNat]
      exact Nat.mod_eq_of_lt (fld_lt v 0 32)
    rw [Dev.fldR, hafter.cmd]
    exact hfield.trans hidx

/-- Settles O42: what a mover's command leaves waiting is an invariant of the rounds that follow it. -/
theorem movesRunTheirCourse : Obligations.MovesRunTheirCourse := ⟨moveCommand_taken, moveDone_ends⟩

end Sys2Proof.Machine
end
